-- ==== Sys2Proof/Word.lean ====
section
/-!
DEFINITION. The word types of the card: a register word (R42: registers of 32 bits) and a sector of host data
(R16: 4,096 bytes). Everything a later test could show wrong about bit fields lives in Machine/Bits.lean.
-/
namespace Sys2Proof

/-- A register word as REGREAD returns it (R42). -/
abbrev Word := BitVec 32

/-- A sector of host data, 4,096 bytes, byte 0 in the low bits (R16, Notation: little-endian). -/
abbrev Sector := BitVec 32768

end Sys2Proof
end

