-- ==== Sys2Proof/Syntax.lean ====
section
/-!
DEFINITION. The commands the block takes: one constructor per row of spec/opcode_table.json, in the table's order.
The table gives a row no operand bits; each constructor carries what its step takes from outside the card: the bytes of a frame in
their order of travel (`idle`: an idle code or a training block stood on lane 0 since the frame before it, R105), the level of a pin, the outcome of a NAND operation or of a decode, the value of a register
write. A command of chapter 5 that has been accepted and decoded is named by `q`, its ORDER_SEQ; its field bytes,
sender and data are then those of its entry among the commands In flight.
-/
namespace Sys2Proof

/-- The link fields of a down frame (Table 5-1): its own LSEQ, its ACKSEQ, whether that is valid, RETX and NAK. -/
structure LinkHdr where
  lseq : Nat
  ackSeq : Nat
  ackv : Bool
  retx : Bool
  nak : Bool
deriving DecidableEq, Repr

/-- The outcome of reading and decoding one codeword slot (R342–R345). DESIGN CHOICE: log entry 50. -/
inductive SlotOut where
  /-- hard decode passes with so many corrected bits -/
  | hard (bits : Nat)
  /-- hard decode fails and soft decode passes -/
  | soft
  /-- hard and soft decode fail; `rebuilt`: a rebuild of the page, where one is possible, succeeds (R286) -/
  | fails (rebuilt : Bool)
  /-- a decode passes and the tag check fails (R344); `afterSoft`: it was a soft decode -/
  | tagBad (afterSoft rebuilt : Bool)
  /-- the slot reads erased (R345) -/
  | erased (rebuilt : Bool)
  /-- decode passes and the up buffer takes an uncorrectable error (Table 8-4) -/
  | upBuffer
deriving DecidableEq, Repr

/-- One page program: which member of the open superblock takes the page (counted among its members with room),
whether its status reads pass, and whether the parity version's does (R277, R278, R288). -/
structure ProgOut where
  member : Nat
  pass : Bool
  parityPass : Bool
deriving DecidableEq, Repr

/-- What power-up recovery meets on the flash (Table 12-7): the dies that answer with their profile's identification,
the dies whose parameter page or ID disagrees are simply not among them; the programmed pages that fail decode and
those whose page record is invalid, as (die, block, page); the map pages that fail in both copies, as (Slice, page);
the temperature conversion; whether the two wear-record copies check good; the firmware slots with a unit that reads
back from neither copy; the dies whose target reports Reset LUN as unsupported (R327); the factory bad-block marks as
(die, block) (R296). DESIGN CHOICE: log entry 31. -/
structure RecoveryIn where
  dies : List Nat
  badPages : List (Nat × Nat × Nat)
  noRecord : List (Nat × Nat × Nat)
  lostMaps : List (Nat × Nat)
  temp : Nat
  wearA : Bool
  wearB : Bool
  unreadable : List Nat
  noResetLun : List Nat
  factoryBad : List (Nat × Nat)
deriving DecidableEq, Repr

/-- The commands of the block. -/
inductive Instr where
  -- commands of Table 5-5
  | nop (q : Nat)
  | identify (q : Nat)
  | assignAddress (q : Nat)
  | switch (q : Nat)
  | declareClock (q : Nat)
  | declareClockCountsLoad (q : Nat)
  | hello (q : Nat)
  | helloEpochRecord (q : Nat)
  | sleepPropose (q : Nat)
  | sleepVeto
  | vetoWindowEnd
  | sleepCommit (q : Nat)
  | sleepCommitComplete (q : Nat)
  | reset (q : Nat)
  | abort (q : Nat)
  | abortTakesEffect (q : Nat)
  | read (q : Nat) (outs : List SlotOut)
  | write (q : Nat) (progs : List ProgOut)
  | trim (q : Nat)
  | barrier (q : Nat)
  | barrierRelease (q : Nat)
  | verify (q : Nat) (outs : List SlotOut)
  | rest (q : Nat)
  | restComplete (q : Nat)
  | regread (q : Nat)
  | regwrite (q : Nat) (met : List (Nat × Nat))
  | sliceCreate (q : Nat)
  | sliceBindChallenge (q : Nat)
  | sliceBindAnswer (q : Nat)
  | sliceUnbind (q : Nat)
  | sliceUnbindComplete (q : Nat)
  | sliceLock (q : Nat)
  | sliceUnlock (q : Nat)
  | sliceReset (q : Nat)
  | sliceResetEnd (slice : Nat)
  | sliceSoftReset (slice : Nat)
  | sliceDestroy (q : Nat)
  | sliceDestroyComplete (q : Nat)
  | fwStage (q : Nat)
  | fwActivate (q : Nat) (readable : Bool)
  | fwConfirm (q : Nat)
  | attnFetch (q : Nat)
  | selftest (q : Nat) (findings : Nat)
  -- the link
  | cmdFrame (idle : Bool) (bytes : List Nat)
  | commandDecode
  | stagingReserved
  | dataDn (idle : Bool) (bytes : List Nat)
  | linkctl (idle : Bool) (bytes : List Nat)
  | frameDiscard (idle : Bool) (bytes : List Nat)
  | nakReplay (ackSeq : Nat)
  | replayTimeout
  | linkctlIdleAck
  | tsd (lane : Nat) (bytes : List Nat) (inSlot : Bool)
  | tse (blocks : List (List Nat)) (inSlot : Bool)
  | returnToIdRequest
  | returnToIdComplete
  | idCommandFrame (bytes : List Nat)
  | idReceiverResync
  | switchRegulated
  | switchConfirm
  | switchCancel (startBit : Bool)
  | switchTimeout
  | progressInterval (q : Nat)
  -- flash and upkeep
  | arbiterGrant (die : Nat)
  | dieReady (die : Nat) (pass : Bool)
  | grantWatchdogBite (die : Nat)
  | hardDecodeDone (die block page slot : Nat) (out : SlotOut)
  | softDecodeDone (die block page slot : Nat) (out : SlotOut)
  | mapPageResident (slice idx : Nat) (firstOk secondOk : Bool)
  | blockErase (die block : Nat) (pass : Bool)
  | pageRelocation (die block page : Nat) (outs : List SlotOut) (prog : ProgOut)
  | refreshRelocation (die block page : Nat) (outs : List SlotOut) (prog : ProgOut)
  | verificationRead (die block page : Nat) (outs : List SlotOut)
  | patrolStart
  | reconfiguration (ch : Nat) (trainLimits : List (Nat × Nat))
  -- power, reset and removal
  | powerOn
  | resetRelease (testEn : Bool)
  | powerUpRecovery (env : RecoveryIn)
  | detNArm
  | rstN
  | linkSystemReset
  | coreResetHalt
  | coreResetRestart (env : RecoveryIn)
  | blockSoftReset (page : Nat)
  | blockSoftResetEnd (page : Nat)
  | blockIsolate (page : Nat) (on : Bool)
  | blockEnable (page : Nat) (on : Bool)
  | removalTrigger (detN brownOut : Bool)
  | removalRbWaitEnd (rbHigh : Bool)
  | removalRestart
  | holdDroop
  | crustPowerOn
  | sleepEntry
  | wakePattern
  | wakeForce
  | wakeCauseClear (mask met : Nat)
  | leaseExpired (slice : Nat)
  | tempConversion (value : Option Nat)
  -- faults, register-write actions and the test access port
  | faultSourceError (page bank bit : Nat) (place : Option (Nat × Nat))
  | graceExpiry
  | hdrParity (page bank index : Nat)
  | stageEcc (q : Nat)
  | alertReadback (padP padN : Bool)
  | faultGraceWrite (value : Nat)
  | inject (page bank bit : Nat)
  | capacityWrite (q slice cap : Nat)
  | capacityLowerLand (slice : Nat)
  | mapPin (slice : Nat) (on : Bool)
  | authClear (slice : Nat)
  | bindKeyWrite (slice key : Nat)
  | qosWrite (slice cls weight dieCap : Nat)
  | hwmClr (slice : Nat)
  | wmCrossClear (ring mask met : Nat)
  | optionStageLoad
  | optionCommit
  | optionCommitDone (good : Bool)
  | tempRangeClr
  | crustLostClear
  | fuseProgram (entry code confirm : Nat)
  | testSeal (confirm : Nat)
  | keyProgram (slot confirm : Nat)
  | keyRevoke (slot confirm : Nat)
  | fuseProgramDone (good : Bool)
  | wdStop (on : Bool)
  | extest
  | samplePreload (levels : Nat)
  | idcode
  | highz
  | clamp
  | bypass
  | trstN
  | vccLoss
  | vbakLoss
  | vholdOk
  | enableWrite (page bank index value : Nat)
  | faultHandling (page bank index value met : Nat)
  | alertControlWrite (mask : Nat) (force : Bool)
deriving DecidableEq, Repr

end Sys2Proof
end

