-- ==== Sys2Proof/Config.lean ====
section
/-!
DEFINITION. What the spec leaves free. Each constant here has no body: nothing in Lean can evaluate it, so a claim
holds whatever its value. The counter `draws` of the state numbers the values drawn from the random bit generator.
-/
namespace Sys2Proof.Config

/-- The card's n-th nonce of SLICE_BIND STEP 0, 16 bytes (R162: drawn from the random bit generator). -/
opaque nonce : Nat → BitVec 128

/-- The card's `k`-th draw of the XTS key number `n`, 512 bits (R173: drawn from the random bit generator, and drawn again where the two
halves are equal). -/
opaque xtsDraw : (n k : Nat) → BitVec 512

/-- The key-encryption key, unique to the die and fused at manufacture (R173). -/
opaque wrapKek : BitVec 256

/-- Does the ECDSA P-384 signature (r, s) over the SHA-256 digest verify under the public key (R392, FIPS 186-5)?
The spec takes the verdict from FIPS 186-5; it is a function of its four operands. -/
opaque ecdsaVerifies : (key digest r s : Nat) → Bool

/-- Does a started main image find the settings copy in force good by its own content checks (check 10 of Table 16-3:
"the image's own content checks")? A function of the image's payload digest and the settings format. -/
opaque contentChecks : (digest fmt : Nat) → Bool

/-- Does every setting of format `fmt` migrate (check 11 of Table 16-3)? The image decides. -/
opaque migrates : (digest fmt : Nat) → Bool

/-- Which bits of a fuse whose programming pulse was cut short read as programmed at the next power-on (chapter 21,
Collisions: "may read programmed or unprogrammed"). -/
opaque cutPulse : Nat → Nat

/-- The usable sectors of a card with so many sectors in its data region (`SLICETAB.USABLE`: "set at start-up"; the
spec gives no formula). -/
opaque usableSectors : Nat → BitVec 40

/-- The blocks that the first start-up gives the map region of a die with so many good blocks outside the system area
(R296: "naming the regions it has chosen"; the spec gives no size). -/
opaque mapRegion : Nat → Nat

/-- The interface minima of SDR timing mode 0 in ns, in the order TADL, TCCS, TWHR, TRHW, TCS: R337 takes them from
ONFI 5.1. -/
opaque sdrMinimum : Nat → Nat

/-- The timing mode number of an interface (0 ONFI, 1 Toggle DDR) for a channel rate in kT/s: R336 takes the list of
modes from ONFI 5.1 and JESD230. -/
opaque timingMode : (iface rate : Nat) → BitVec 8

/-- How a NAND operation ends whose end no row of the table carries: `kind` 0 an erase, 1 a decode and 2 a destination program of
Forced upkeep (R263), 3 a program repeated after a failure and 4 the reads of a rebuild after a failure (R288), 5 the read of a member
page and 6 of a parity version for a parity buffer (R276, R280), 7 the reads of a rebuild for a failed die (R290). Die, block and
page say where, `n` tells one operation from the next at the same place. -/
opaque nand : (kind die block page n : Nat) → Nat

end Sys2Proof.Config
end

