-- ==== Sys2Proof/Machine/Bits.lean ====
section
/-!
DEFINITION. Bit-field, byte-order and counter helpers over natural numbers. Frames, command fields and register
words are little-endian (spec 00, Notation); counters saturate or wrap as the rule that names them says.
-/
namespace Sys2Proof.Machine

/-- Bits `lo … lo + w - 1` of `x`. -/
def bitsOf (x lo w : Nat) : Nat := (x >>> lo) % 2 ^ w

/-- Bit `i` of `x`, as a Bool. -/
def bitAt (x i : Nat) : Bool := (x >>> i) % 2 == 1

/-- The mask of `w` ones. -/
def ones (w : Nat) : Nat := 2 ^ w - 1

/-- `x` without the bits of `m`. -/
def clearBits (x m : Nat) : Nat := x ^^^ (x &&& m)

/-- A field of a command unit: `w` bits from bit 0 of byte `byte` (Table 5-5). -/
def byteField (x byte w : Nat) : Nat := bitsOf x (8 * byte) w

/-- A Bool as a one-bit field. -/
def bit01 (b : Bool) : Nat := if b then 1 else 0

/-- Add with saturation at `top`. -/
def satAdd (a b top : Nat) : Nat := min (a + b) top

/-- Add modulo 2 to the `w`. -/
def wrapAdd (a b w : Nat) : Nat := (a + b) % 2 ^ w

/-- `a - b` modulo 2 to the `w`, for sequence numbers. -/
def wrapSub (a b w : Nat) : Nat := (a + 2 ^ w - b % 2 ^ w) % 2 ^ w

/-- The ceiling of `a / b`. -/
def ceilDiv (a b : Nat) : Nat := (a + b - 1) / b

/-- The first `n` bytes of `x`, least significant first. -/
def bytesLE : Nat → Nat → List Nat
  | 0, _ => []
  | n + 1, x => x % 256 :: bytesLE n (x / 256)

/-- A list of bytes read little-endian. -/
def ofBytesLE : List Nat → Nat
  | [] => 0
  | b :: bs => b % 256 + 256 * ofBytesLE bs

/-- A list of bytes read big-endian. -/
def ofBytesBE (l : List Nat) : Nat := ofBytesLE l.reverse

/-- Does any element satisfy `p`? (List.any, named for reading.) -/
def count {α : Type} (p : α → Bool) (l : List α) : Nat := (l.filter p).length

/-- Sum of `f` over a list. -/
def sumBy {α : Type} (f : α → Nat) : List α → Nat
  | [] => 0
  | a :: l => f a + sumBy f l

/-- The largest `f a` over a list, 0 for none. -/
def maxBy {α : Type} (f : α → Nat) : List α → Nat
  | [] => 0
  | a :: l => max (f a) (maxBy f l)

/-- Change every element that satisfies `p`. -/
def mapIf {α : Type} (p : α → Bool) (f : α → α) : List α → List α
  | [] => []
  | a :: l => (if p a then f a else a) :: mapIf p f l

/-- The numbers from `a` to `a + n - 1`. -/
def rangeFrom (a : Nat) : Nat → List Nat
  | 0 => []
  | n + 1 => a :: rangeFrom (a + 1) n

end Sys2Proof.Machine
end

