-- ==== Sys2Proof/Machine/Regs.lean ====
section
/-!
DEFINITION. How register fields are held. A field is named by its page, index and lowest bit (R42) and, on a
banked page, its bank (R54). The register store lists, in rising key order, only the fields that differ from
their reset value: each cell holds the field's value XOR its reset value, so that the empty store is the card at
reset and a reset of a level is the removal of that level's cells (Table 0-4). The same store form, with 0 for
an unlisted key, holds the Crust's cells, the option memory and the option staging buffer.
-/
namespace Sys2Proof.Machine

/-- Access codes (Table 0-3). -/
inductive Access where
  | ro | rw | w1c | w1s | wo | snap
deriving DecidableEq, Repr

/-- Reset levels (Table 0-4). -/
inductive Level where
  | k | p | s | c | b
deriving DecidableEq, Repr

/-- A register field as its owning table gives it. `live` marks a field that is a view of other state (live,
stored or fused in the tables); `mask` its writable bits. -/
structure Field where
  page : Nat
  index : Nat
  lo : Nat
  width : Nat
  acc : Access
  level : Level
  reset : Nat
  mask : Nat
  live : Bool
  bank : Nat := 0
deriving DecidableEq, Repr

/-- A sparse store of naturals by key, in canonical form: keys strictly rising, no cell of value 0. -/
abbrev Store := List (Nat × Nat)

/-- What a key reads as; an unlisted key reads 0. -/
def storeRead : Store → Nat → Nat
  | [], _ => 0
  | (k, v) :: m, key => if k = key then v else storeRead m key

/-- Remove a key. -/
def storeErase (m : Store) (key : Nat) : Store := m.filter (fun e => e.1 != key)

/-- Put a cell in its place in the order (the key not listed before). -/
def storeInsert (key v : Nat) : Store → Store
  | [] => [(key, v)]
  | (k, w) :: m => if key < k then (key, v) :: (k, w) :: m else (k, w) :: storeInsert key v m

/-- Write one key, keeping the canonical form: writing 0 removes the cell. -/
def storeWrite (m : Store) (key v : Nat) : Store :=
  if v = 0 then storeErase m key else storeInsert key v (storeErase m key)

/-- Keys strictly above `lo` and strictly rising, and no cell of value 0. -/
def storeWfFrom : Nat → Store → Bool
  | _, [] => true
  | lo, (k, v) :: m => decide (lo ≤ k) && decide (v ≠ 0) && storeWfFrom (k + 1) m

/-- The canonical form of a store. -/
def storeWf (m : Store) : Bool := storeWfFrom 0 m

/-- Does every cell of a store hold at most 16 bits? -/
def store16 (m : Store) : Bool := m.all (fun e => decide (e.2 < 65536))

/-- The code of a level in a key. -/
def levelCode : Level → Nat
  | .k => 0 | .p => 1 | .s => 2 | .c => 3 | .b => 4

/-- The key of a field: level, bank, page, index, low bit. Distinct fields of the tables have distinct keys. -/
def Field.key (f : Field) : Nat :=
  levelCode f.level * 2 ^ 22 + (f.bank % 64) * 2 ^ 16 + (f.page % 64) * 2 ^ 10 + (f.index % 32) * 2 ^ 5 + f.lo % 32

/-- The level code of a key. -/
def keyLevel (k : Nat) : Nat := k / 2 ^ 22

/-- The bank of a key. -/
def keyBank (k : Nat) : Nat := k / 2 ^ 16 % 64

/-- The page of a key. -/
def keyPage (k : Nat) : Nat := k / 2 ^ 10 % 64

/-- The field of a banked page in bank `b`. -/
def Field.inBank (f : Field) (b : Nat) : Field := { f with bank := b }

/-- The field of channel `n`'s page, from its description on channel 0's page (R64). -/
def Field.ofChannel (f : Field) (n : Nat) : Field := { f with page := f.page + n }

/-- The field `k` registers further, for a run of like registers. -/
def Field.plus (f : Field) (k : Nat) : Field := { f with index := f.index + k }

/-- A stored field of `width` bits. -/
def fld (page index lo width : Nat) (acc : Access) (level : Level) (reset : Nat) : Field :=
  { page := page, index := index, lo := lo, width := width, acc := acc, level := level, reset := reset,
    mask := ones width, live := false }

/-- A field that is a view of other state. -/
def lvf (page index lo width : Nat) (acc : Access) (level : Level) : Field :=
  { page := page, index := index, lo := lo, width := width, acc := acc, level := level, reset := 0,
    mask := ones width, live := true }

/-- The value a store of register fields holds for a field. -/
def regRead (r : Store) (f : Field) : Nat := storeRead r f.key ^^^ f.reset

/-- Write a field; the value is cut to the field's bits. -/
def regWrite (r : Store) (f : Field) (v : Nat) : Store := storeWrite r f.key ((v &&& f.mask) ^^^ f.reset)

/-- Return every cell that `p` selects to its reset value. -/
def regClear (r : Store) (p : Nat → Bool) : Store := r.filter (fun e => !p e.1)

/-- What a power-on clears: every level but K (Table 0-4). -/
def clearedByPowerOn (k : Nat) : Bool := decide (1 ≤ keyLevel k)

/-- What a system reset clears: levels S, C and B (Table 0-4), the DEBUG page apart (R386). -/
def clearedBySystem (k : Nat) : Bool := decide (2 ≤ keyLevel k ∧ keyPage k ≠ 0x27)

/-- What a core reset clears: level C (Table 0-4). -/
def clearedByCore (k : Nat) : Bool := decide (keyLevel k = 3)

/-- What a page's soft reset clears: the B fields of that page (R49). -/
def clearedByPage (page : Nat) (k : Nat) : Bool := decide (keyLevel k = 4 ∧ keyPage k = page)

/-- What a Slice's reset clears: the B fields of its SLICE and QUEUE banks (R56). -/
def clearedBySlice (bank : Nat) (k : Nat) : Bool :=
  decide (keyLevel k = 4 ∧ keyBank k = bank ∧ (keyPage k = 6 ∨ keyPage k = 7))

end Sys2Proof.Machine
end

