-- ==== Sys2Proof/Machine/RegTable.lean ====
section
/-!
DEFINITION. The register fields of all pages, from the field tables of the owning chapters (R44, R64 and each
chapter's "Registers of this chapter"), and the header sources of Table 15-1 and of the chapters' header tables.
Reserved bits have no field: they read 0 and ignore writes (R8, R51).
-/
namespace Sys2Proof.Reg
open Sys2Proof.Machine

/-! Page 0x00 IDENT (R65). -/
/-- 0x9130, 0x9118 or 0x9104 (P:fused) -/
def IDENT.PART.PART_NO : Field := lvf 0x00 8 0 16 .ro .p
/-- Sarquel family code -/
def IDENT.PART.FAMILY : Field := fld 0x00 8 16 16 .ro .p 0x5351
/-- stepping code; 0x01 for the stepping described here (P:fused) -/
def IDENT.STEPPING.STEP : Field := lvf 0x00 9 0 8 .ro .p
/-- capability bits; all 0 on this stepping (R7) -/
def IDENT.CAP0.CAP : Field := fld 0x00 10 0 32 .ro .p 0
/-- capability bits; all 0 on this stepping -/
def IDENT.CAP1.CAP : Field := fld 0x00 11 0 32 .ro .p 0
/-- unique serial, bits [31:0] (P:fused) -/
def IDENT.SERIAL_0.SN_LO : Field := lvf 0x00 12 0 32 .ro .p
/-- bits [63:32] (P:fused) -/
def IDENT.SERIAL_1.SN_MID : Field := lvf 0x00 13 0 32 .ro .p
/-- bits [95:64] (P:fused) -/
def IDENT.SERIAL_2.SN_HI : Field := lvf 0x00 14 0 32 .ro .p
/-- bit n = 1: channel CHn present on this part (R2) (P:fused) -/
def IDENT.CHANNELS.CH_PRESENT : Field := lvf 0x00 15 0 16 .ro .p
/-- bit 16 + n = 1: CHn present and marked populated by the Option store (view) -/
def IDENT.CHANNELS.CH_POPULATED : Field := lvf 0x00 15 16 16 .ro .s
/-- bit t = 1: target t of channel 2k answered at start-up and matched a valid Die profile (view), 8 registers -/
def IDENT.DIE_PRESENT.CH_EVEN : Field := lvf 0x00 16 0 16 .ro .s
/-- bit 16 + t: target t of channel 2k + 1, likewise (view), 8 registers -/
def IDENT.DIE_PRESENT.CH_ODD : Field := lvf 0x00 16 16 16 .ro .s

/-! Page 0x01 LINK (R101). -/
/-- 0 ID_NOT_READY, 1 ID_READY, 2 SWITCHING, 3 FAST_WAIT, 4 TRAINING, 5 UP, 6 LOST, 7 RETURNING (live) -/
def LINK.STATE.STATE : Field := lvf 0x01 8 0 3 .ro .s
/-- 0 ID mode, 1 fast mode (live) -/
def LINK.STATE.MODE : Field := lvf 0x01 8 3 1 .ro .s
/-- down width in force, coded as in R80 -/
def LINK.STATE.DOWN_W : Field := fld 0x01 8 4 2 .ro .s 0
/-- up width in force -/
def LINK.STATE.UP_W : Field := fld 0x01 8 6 2 .ro .s 0
/-- bit l = down lane l locked (live) -/
def LINK.STATE.LOCK : Field := lvf 0x01 8 8 4 .ro .s
/-- the card presents ready: high ready level in ID mode, 0xB5 in fast mode (live) -/
def LINK.STATE.READY : Field := lvf 0x01 8 12 1 .ro .s
/-- link retry budget, 0–15; meaning in "Frames, commands and completions" -/
def LINK.RETRY.LINK_RETRY_MAX : Field := fld 0x01 9 0 4 .rw .s 7
/-- ORDER_SEQ of the most recently stamped frame -/
def LINK.ORDER_SEQ.LAST : Field := fld 0x01 10 0 32 .ro .s 0
/-- switches that reached step 5; saturates at 0xFFFF -/
def LINK.LINKUPS.SWITCHES : Field := fld 0x01 11 0 16 .ro .s 0
/-- entries to UP; saturates at 0xFFFF -/
def LINK.LINKUPS.TRAININGS : Field := fld 0x01 11 16 16 .ro .s 0
/-- ID-mode frames discarded for CRC; saturates at 0xFFFF -/
def LINK.ID_ERRORS.CRC_ERR : Field := fld 0x01 12 0 16 .ro .s 0
/-- frames dropped while not ready or while an ID-mode command was In flight; saturates at 0xFFFF -/
def LINK.ID_ERRORS.DROPPED : Field := fld 0x01 12 16 16 .ro .s 0

/-! Page 0x02 LINKERR (R133). -/
/-- frames discarded for header error or CRC (R105); word 0 of the group -/
def LINKERR.RX_BAD.COUNT : Field := fld 0x02 8 0 32 .snap .b 0
/-- NAKs the card sent -/
def LINKERR.NAK_SENT.COUNT : Field := fld 0x02 9 0 32 .snap .b 0
/-- frames the card replayed, by NAK or by the replay count -/
def LINKERR.REPLAYS.COUNT : Field := fld 0x02 10 0 32 .snap .b 0
/-- CMD frames discarded under R115 -/
def LINKERR.DUP_DROPPED.COUNT : Field := fld 0x02 11 0 32 .snap .b 0
/-- frames discarded under R112, R114 or R117 -/
def LINKERR.STRAY.COUNT : Field := fld 0x02 12 0 32 .snap .b 0
/-- losses declared by the card (R110) -/
def LINKERR.LOSSES.BUDGET : Field := fld 0x02 13 0 16 .snap .b 0
/-- restarts by the host's RESTART and returns to ID mode -/
def LINKERR.LOSSES.RESTART : Field := fld 0x02 13 16 16 .snap .b 0
/-- commands ended ABORTED_LINK -/
def LINKERR.ABORTED_LINK.COUNT : Field := fld 0x02 14 0 32 .snap .b 0
/-- completions posted under R131 -/
def LINKERR.DEFERRED.COUNT : Field := fld 0x02 15 0 32 .snap .b 0
/-- CMD_LIMIT in force (live) -/
def LINKERR.CREDIT.CMD_LIMIT : Field := lvf 0x02 16 0 16 .ro .s
/-- up frames unacknowledged, 0–32 (live) -/
def LINKERR.WINDOW.TX_UNACKED : Field := lvf 0x02 17 0 8 .ro .s
/-- LSEQ the card expects next (live) -/
def LINKERR.WINDOW.RX_EXPECTED : Field := lvf 0x02 17 8 8 .ro .s

/-! Page 0x03 SHELF (R157). -/
/-- Card address; kept through SLEEP (R139) -/
def SHELF.ADDR.CARD_ADDR : Field := fld 0x03 8 0 12 .ro .s 0
/-- 1 = the card has a Card address -/
def SHELF.ADDR.ASSIGNED : Field := fld 0x03 8 12 1 .ro .s 0
/-- ASSIGN_ADDRESS commands that set the address -/
def SHELF.COUNTS.ASSIGNS : Field := fld 0x03 9 0 16 .ro .s 0
/-- broadcasts not selecting this card (R134) -/
def SHELF.COUNTS.BCAST_SKIPPED : Field := fld 0x03 9 16 16 .ro .s 0
/-- shelf sleep enabled; loaded from the Option store at start-up -/
def SHELF.SLEEP_CFG.SLEEP_EN : Field := fld 0x03 10 0 1 .rw .s 0
/-- window = 2^value CCLK; writes below 8 store 8, above 15 store 15 -/
def SHELF.SLEEP_CFG.VETO_LOG2 : Field := fld 0x03 10 8 4 .rw .s 0xc
/-- 0 IDLE, 1 WINDOW, 2 ARMED, 3 COMMITTING -/
def SHELF.SLEEP_STAT.STATE : Field := fld 0x03 11 0 2 .ro .s 0
/-- round of the last proposal that armed -/
def SHELF.SLEEP_STAT.ROUND : Field := fld 0x03 11 16 16 .ro .s 0
/-- bit 0 WAKE_CAUSE, 1 INFLIGHT, 2 DISABLED, 3 ALERT_MASKED; set by each veto -/
def SHELF.VETO.LAST_REASON : Field := fld 0x03 12 0 4 .ro .s 0
/-- SLEEP_PROPOSE commands completed VETOED -/
def SHELF.VETO.VETOES : Field := fld 0x03 12 16 16 .ro .s 0
/-- Originator whose entry indices 14–15 show; 0xFF fails check 6 with OUT_OF_RANGE -/
def SHELF.ORIG_SEL.ORIG : Field := fld 0x03 13 0 8 .rw .s 0
/-- Epoch held for the selected Originator; word 0 of the group (view) -/
def SHELF.ORIG_EPOCH.EPOCH : Field := lvf 0x03 14 0 32 .snap .s
/-- a HELLO has been accepted (view) -/
def SHELF.ORIG_FLAGS.HELLO_SEEN : Field := lvf 0x03 15 0 1 .snap .s
/-- the Originator is the Administrator (view) -/
def SHELF.ORIG_FLAGS.IS_ADMIN : Field := lvf 0x03 15 1 1 .snap .s
/-- Slice bound, valid when BOUND = 1 (view) -/
def SHELF.ORIG_FLAGS.BOUND_SLICE : Field := lvf 0x03 15 8 6 .snap .s
/-- the Originator is bound to a Slice (view) -/
def SHELF.ORIG_FLAGS.BOUND : Field := lvf 0x03 15 14 1 .snap .s
/-- locks the Originator holds, 0–64 (view) -/
def SHELF.ORIG_FLAGS.LOCKS_HELD : Field := lvf 0x03 15 16 7 .snap .s

/-! Page 0x04 CLOCK (R41). -/
/-- fast-mode frequency in force, kHz; 0 = undeclared -/
def CLOCK.DECL_FAST.DECL_KHZ : Field := fld 0x04 8 0 22 .ro .s 0
/-- PROGRESS_INTERVAL = 2^value CCLK; writes below 16 store 16, above 30 store 30 -/
def CLOCK.PROGRESS_CFG.INTERVAL_LOG2 : Field := fld 0x04 9 0 5 .rw .s 0x16
/-- HC since last system reset or power-on, bits [31:0]; word 0 of the group -/
def CLOCK.HC_COUNT_0.HC_LO : Field := fld 0x04 10 0 32 .snap .s 0
/-- bits [63:32] -/
def CLOCK.HC_COUNT_1.HC_HI : Field := fld 0x04 11 0 32 .snap .s 0
/-- commands In flight card-wide, 0–1,024 (view) -/
def CLOCK.INFLIGHT.COUNT : Field := lvf 0x04 12 0 11 .ro .s
/-- Quiet points (R27); saturates at 0xFFFF_FFFF -/
def CLOCK.STILL_ENTRIES.COUNT : Field := fld 0x04 13 0 32 .ro .s 0

/-! Page 0x05 SLICETAB (R189). -/
/-- usable sectors of the card, bits [31:0]; set at start-up (live) -/
def SLICETAB.USABLE_LO.USABLE : Field := lvf 0x05 8 0 32 .ro .s
/-- bits [39:32] (live) -/
def SLICETAB.USABLE_HI.USABLE : Field := lvf 0x05 9 0 8 .ro .s
/-- sectors allocated to Slices, bits [31:0] (live) -/
def SLICETAB.ALLOC_LO.ALLOC : Field := lvf 0x05 10 0 32 .ro .s
/-- bits [39:32] (live) -/
def SLICETAB.ALLOC_HI.ALLOC : Field := lvf 0x05 11 0 8 .ro .s
/-- bit s = 1: Slice s is not FREE, s = 0–31 (live) -/
def SLICETAB.EXIST_0.EXIST : Field := lvf 0x05 12 0 32 .ro .s
/-- bit s − 32, s = 32–63 (live) -/
def SLICETAB.EXIST_1.EXIST : Field := lvf 0x05 13 0 32 .ro .s
/-- Administrator, from the Option store; 0xFF = none (stored) -/
def SLICETAB.ADMIN.ADMIN_ORIG : Field := lvf 0x05 14 0 8 .ro .s
/-- capacity of Slices with PIN set, in sectors (live) -/
def SLICETAB.PIN.PIN_USED : Field := lvf 0x05 15 0 22 .ro .s
/-- 2,097,152 sectors -/
def SLICETAB.PIN_BUDGET.BUDGET : Field := fld 0x05 16 0 22 .ro .p 0x200000

/-! Page 0x06 SLICE (R190). -/
/-- 0 FREE, 1 ACTIVE, 2 RESETTING, 3 DESTROYING (live) -/
def SLICE.STATE.STATE : Field := lvf 0x06 8 0 2 .ro .s
/-- the Slice has an owner (view) -/
def SLICE.STATE.BOUND : Field := lvf 0x06 8 2 1 .ro .s
/-- binding key set; 0 = open binding (stored) -/
def SLICE.STATE.KEY_SET : Field := lvf 0x06 8 3 1 .ro .s
/-- AES-256-XTS in use (stored) -/
def SLICE.STATE.ENC : Field := lvf 0x06 8 4 1 .ro .s
/-- owner's Originator ID, valid when BOUND = 1 (view) -/
def SLICE.STATE.OWNER : Field := lvf 0x06 8 8 8 .ro .s
/-- capacity in sectors, bits [31:0] (stored) -/
def SLICE.CAPACITY_LO.CAP : Field := lvf 0x06 9 0 32 .rw .s
/-- bits [39:32] (stored) -/
def SLICE.CAPACITY_HI.CAP : Field := lvf 0x06 10 0 8 .rw .s
/-- 0 urgent, 1 steady, 2 bulk (stored) -/
def SLICE.QOS.CLASS : Field := lvf 0x06 11 0 2 .rw .s
/-- steady weight 1–255; reads 0 for other classes (stored) -/
def SLICE.QOS.WEIGHT : Field := lvf 0x06 11 8 8 .rw .s
/-- 0 = no cap; 1–256 (stored) -/
def SLICE.QOS.DIE_CAP : Field := lvf 0x06 11 16 9 .rw .s
/-- a lock is held (view) -/
def SLICE.LOCK.LOCKED : Field := lvf 0x06 12 0 1 .ro .s
/-- holder, valid when LOCKED = 1 (view) -/
def SLICE.LOCK.HOLDER_ORIG : Field := lvf 0x06 12 8 8 .ro .s
/-- holder's Epoch at the claim (view) -/
def SLICE.LOCK_EPOCH.HOLDER_EPOCH : Field := lvf 0x06 13 0 32 .ro .s
/-- HC before lease expiry; 0 = no lease or no lock (live) -/
def SLICE.LEASE_LEFT.HC : Field := lvf 0x06 14 0 32 .ro .s
/-- pin the map (stored) -/
def SLICE.MAP.PIN : Field := lvf 0x06 15 0 1 .rw .s
/-- 0 off, 1 loading, 2 pinned (live) -/
def SLICE.MAP.PIN_STATE : Field := lvf 0x06 15 1 2 .ro .s
/-- consecutive failed answers, saturates at 16 -/
def SLICE.AUTH.FAILS : Field := fld 0x06 16 0 8 .ro .s 0
/-- new bindings refused -/
def SLICE.AUTH.BLOCKED : Field := fld 0x06 16 8 1 .ro .s 0
/-- clear FAILS and BLOCKED; self-clearing -/
def SLICE.AUTH.CLEAR : Field := fld 0x06 16 9 1 .w1s .s 0
/-- binding key, bytes 4k to 4k + 3 in register 17 + k, little-endian (stored), 8 registers -/
def SLICE.BIND_KEY.KEY : Field := lvf 0x06 17 0 32 .wo .s
/-- Slice resets ended; saturates at 0xFFFF -/
def SLICE.COUNTS.RESETS : Field := fld 0x06 25 0 16 .ro .s 0
/-- SLICE_LOCK completed LOCKED; saturates at 0xFFFF -/
def SLICE.COUNTS.LOCK_REFUSED : Field := fld 0x06 25 16 16 .ro .b 0

/-! Page 0x07 QUEUE (R220). -/
/-- entries in the submission ring, 0–32 (live) -/
def QUEUE.LEVELS.SQ_LEVEL : Field := lvf 0x07 8 0 6 .ro .s
/-- commands popped and not completed, 0–32 (live) -/
def QUEUE.LEVELS.EXEC : Field := lvf 0x07 8 8 6 .ro .s
/-- entries in the attention ring, 0–64 (live) -/
def QUEUE.LEVELS.AQ_LEVEL : Field := lvf 0x07 8 16 7 .ro .s
/-- COMPLETION entries among them (live) -/
def QUEUE.LEVELS.AQ_COMPL : Field := lvf 0x07 8 24 7 .ro .s
/-- submission ring depth in force, 1–32 -/
def QUEUE.DEPTH.SQ_DEPTH : Field := fld 0x07 9 0 6 .rw .s 0x20
/-- submission watermark; 0 = off -/
def QUEUE.WM_CFG.SQ_WM : Field := fld 0x07 10 0 6 .rw .s 0
/-- attention watermark; 0 = off -/
def QUEUE.WM_CFG.AQ_WM : Field := fld 0x07 10 8 7 .rw .s 0
/-- upward crossings since the last clear; saturates at 255 -/
def QUEUE.WM_STAT.SQ_COUNT : Field := fld 0x07 11 0 8 .ro .s 0
/-- likewise for the attention ring -/
def QUEUE.WM_STAT.AQ_COUNT : Field := fld 0x07 11 8 8 .ro .s 0
/-- submission level at or above a non-zero SQ_WM (live) -/
def QUEUE.WM_STAT.SQ_LEVEL : Field := lvf 0x07 11 16 1 .ro .s
/-- attention level at or above a non-zero AQ_WM (live) -/
def QUEUE.WM_STAT.AQ_LEVEL : Field := lvf 0x07 11 17 1 .ro .s
/-- highest SQ_LEVEL since the last clear -/
def QUEUE.HWM.SQ_HWM : Field := fld 0x07 12 0 6 .ro .s 0
/-- highest AQ_LEVEL since the last clear -/
def QUEUE.HWM.AQ_HWM : Field := fld 0x07 12 8 7 .ro .s 0
/-- set both marks to the current levels; self-clearing -/
def QUEUE.HWM.HWM_CLR : Field := fld 0x07 12 31 1 .w1s .s 0
/-- an entry was discarded or displaced (R203) -/
def QUEUE.LOST.ATTN_LOST : Field := fld 0x07 13 0 1 .w1c .s 0
/-- entries lost; saturates at 0xFFFF -/
def QUEUE.LOST.LOST_COUNT : Field := fld 0x07 13 8 16 .ro .s 0

/-! Page 0x08 DMA (R221). -/
/-- largest staging reservation of one Slice, sectors -/
def DMA.STAGE_CFG.SLICE_MAX : Field := fld 0x08 8 0 11 .rw .s 0x400
/-- staging sectors reserved, 0–1,024 (live) -/
def DMA.STAGE.RESERVED : Field := lvf 0x08 9 0 11 .ro .s
/-- descriptors in WAIT_STAGE (live) -/
def DMA.STAGE.WAITING : Field := lvf 0x08 9 16 11 .ro .s
/-- descriptors not FREE (live) -/
def DMA.DESC.IN_USE : Field := lvf 0x08 10 0 11 .ro .s
/-- descriptors PARKED (live) -/
def DMA.DESC.PARKED : Field := lvf 0x08 10 16 11 .ro .s
/-- SQ_LEVEL (live) -/
def DMA.CARD_LEVELS.SQ_LEVEL : Field := lvf 0x08 11 0 6 .ro .s
/-- EXEC (live) -/
def DMA.CARD_LEVELS.EXEC : Field := lvf 0x08 11 8 6 .ro .s
/-- AQ_LEVEL (live) -/
def DMA.CARD_LEVELS.AQ_LEVEL : Field := lvf 0x08 11 16 7 .ro .s
/-- AQ_COMPL (live) -/
def DMA.CARD_LEVELS.AQ_COMPL : Field := lvf 0x08 11 24 7 .ro .s
/-- 0 = off -/
def DMA.CARD_WM_CFG.CARD_SQ_WM : Field := fld 0x08 12 0 6 .rw .s 0
/-- 0 = off -/
def DMA.CARD_WM_CFG.CARD_AQ_WM : Field := fld 0x08 12 8 7 .rw .s 0
/-- SQ_COUNT -/
def DMA.CARD_WM_STAT.SQ_COUNT : Field := fld 0x08 13 0 8 .ro .s 0
/-- AQ_COUNT -/
def DMA.CARD_WM_STAT.AQ_COUNT : Field := fld 0x08 13 8 8 .ro .s 0
/-- SQ_LEVEL (live) -/
def DMA.CARD_WM_STAT.SQ_LEVEL : Field := lvf 0x08 13 16 1 .ro .s
/-- AQ_LEVEL (live) -/
def DMA.CARD_WM_STAT.AQ_LEVEL : Field := lvf 0x08 13 17 1 .ro .s
/-- card attention ring lost an entry -/
def DMA.CARD_WM_STAT.ATTN_LOST : Field := fld 0x08 13 24 1 .w1c .s 0
/-- card attention entries lost; saturates at 0xFFFF -/
def DMA.CARD_LOST.LOST_COUNT : Field := fld 0x08 14 0 16 .ro .s 0
/-- parkings (R215); word 0 of the group -/
def DMA.MAP_FAULTS.COUNT : Field := fld 0x08 15 0 32 .snap .b 0
/-- descriptors ended by a Slice wrapper (R216) -/
def DMA.WRAP_ERRORS.COUNT : Field := fld 0x08 16 0 32 .snap .b 0
/-- descriptors that entered WAIT_STAGE and had to wait at least one edge -/
def DMA.STAGE_WAITS.COUNT : Field := fld 0x08 17 0 32 .snap .b 0
/-- descriptor shown in indices 19–21 -/
def DMA.DESC_SEL.INDEX : Field := fld 0x08 18 0 10 .rw .s 0
/-- Table 8-3; word 0 of the group (live) -/
def DMA.DESC_VIEW_0.STATE : Field := lvf 0x08 19 0 3 .snap .s
/-- OPCODE (live) -/
def DMA.DESC_VIEW_0.OPCODE : Field := lvf 0x08 19 8 8 .snap .s
/-- Slice 0–63, or 64 for the card ring (live) -/
def DMA.DESC_VIEW_0.RING : Field := lvf 0x08 19 16 7 .snap .s
/-- ORIG (live) -/
def DMA.DESC_VIEW_0.ORIG : Field := lvf 0x08 19 24 8 .snap .s
/-- TAG (live) -/
def DMA.DESC_VIEW_1.TAG : Field := lvf 0x08 20 0 16 .snap .s
/-- 0–256 (live) -/
def DMA.DESC_VIEW_1.OFFSET : Field := lvf 0x08 20 16 9 .snap .s
/-- 0–256 (live) -/
def DMA.DESC_VIEW_2.NEXT : Field := lvf 0x08 21 0 9 .snap .s
/-- sectors of the command; for FW_STAGE, its 4,096-byte frames (live) -/
def DMA.DESC_VIEW_2.COUNT : Field := lvf 0x08 21 16 9 .snap .s

/-! Page 0x09 ARB (R241). -/
/-- 1 = pre-empt by Table 9-2 where the profile declares suspend -/
def ARB.MODE.PREEMPT_EN : Field := fld 0x09 8 0 1 .rw .s 1
/-- steady quantum 2^value CCLK per unit weight; writes below 8 store 8, above 16 store 16 -/
def ARB.MODE.QUANTUM_LOG2 : Field := fld 0x09 8 8 4 .rw .s 0xc
/-- 0–8; 0 = urgent presented as steady -/
def ARB.URGENT.URGENT_CAP : Field := fld 0x09 9 0 4 .rw .s 2
/-- bulk floor in 64ths; writes of 0 store 1, above 32 store 32 -/
def ARB.BULK.BULK_MIN_SHARE : Field := fld 0x09 10 0 6 .rw .s 1
/-- weight of requester 64 -/
def ARB.ENGINE_W.REST_W : Field := fld 0x09 11 0 8 .rw .s 0x40
/-- weight of requester 65 -/
def ARB.ENGINE_W.VERIFY_W : Field := fld 0x09 11 8 8 .rw .s 0x20
/-- weight of requester 66 when steady -/
def ARB.ENGINE_W.MAP_W : Field := fld 0x09 11 16 8 .rw .s 0x80
/-- weight of requester 67 -/
def ARB.ENGINE_W.REFRESH_W : Field := fld 0x09 11 24 8 .rw .s 0x20
/-- ARBCNT shows requesters 8 × GROUP to 8 × GROUP + 7 -/
def ARB.CNT_SEL.GROUP : Field := fld 0x09 12 0 4 .rw .s 0
/-- channel 0–15; 16 = all channels -/
def ARB.CNT_SEL.CHAN : Field := fld 0x09 12 8 5 .rw .s 0x10
/-- die shown in DIE_VIEW -/
def ARB.DIE_SEL.CHAN : Field := fld 0x09 13 0 4 .rw .s 0
/-- TARGET -/
def ARB.DIE_SEL.TARGET : Field := fld 0x09 13 4 4 .rw .s 0
/-- requester holding the grant; 0x44 housekeeping; 0x7F none (live) -/
def ARB.DIE_VIEW.HOLDER : Field := lvf 0x09 14 0 7 .ro .s
/-- 0 urgent, 1 steady, 2 bulk, 3 housekeeping (live) -/
def ARB.DIE_VIEW.HOLDER_CLASS : Field := lvf 0x09 14 8 2 .ro .s
/-- an operation is suspended on the die (live) -/
def ARB.DIE_VIEW.SUSPENDED : Field := lvf 0x09 14 10 1 .ro .s
/-- requester of the suspended operation; 0x7F none (live) -/
def ARB.DIE_VIEW.SUSP_REQ : Field := lvf 0x09 14 12 7 .ro .s
/-- urgent count (R225) (live) -/
def ARB.DIE_VIEW.U : Field := lvf 0x09 14 20 4 .ro .s
/-- CAP(die) (live) -/
def ARB.DIE_VIEW.CAP_EFF : Field := lvf 0x09 14 24 4 .ro .s
/-- urgent requests on the wait list; saturates at 15 (live) -/
def ARB.DIE_VIEW.U_WAITING : Field := lvf 0x09 14 28 4 .ro .s

/-! Page 0x0a ARBCNT (R242). -/
/-- grants to requester r; index 8 is word 0 (counter memory), 8 registers three apart -/
def ARBCNT.GRANTS.COUNT : Field := lvf 0x0a 8 0 32 .snap .b
/-- grants that waited (counter memory), 8 registers three apart -/
def ARBCNT.WAITS.COUNT : Field := lvf 0x0a 9 0 32 .snap .b
/-- longest wait in CCLK (counter memory), 8 registers three apart -/
def ARBCNT.LONGEST_WAIT.CCLK : Field := lvf 0x0a 10 0 32 .snap .b

/-! Page 0x0b WATCHDOG (R243). -/
/-- watchdog limit; writes below 0x0001_0000 store 0x0001_0000 -/
def WATCHDOG.GRANT_WD.CCLK : Field := fld 0x0b 8 0 32 .rw .s 0x4000000
/-- bites; saturates at 0xFFFF -/
def WATCHDOG.WD_BITES.BITES : Field := fld 0x0b 9 0 16 .ro .s 0
/-- dies declared failed by the watchdog; saturates at 0xFFFF -/
def WATCHDOG.WD_BITES.STUCK : Field := fld 0x0b 9 16 16 .ro .s 0
/-- holder at the last bite: requester 0–67, or 0x44 for a housekeeping step (R237) -/
def WATCHDOG.WD_LAST_REQ.REQ : Field := fld 0x0b 10 0 7 .ro .s 0
/-- a bite has been recorded -/
def WATCHDOG.WD_LAST_REQ.VALID : Field := fld 0x0b 10 7 1 .ro .s 0
/-- channel of the last bite -/
def WATCHDOG.WD_LAST_REQ.CHAN : Field := fld 0x0b 10 8 4 .ro .s 0
/-- target of the last bite -/
def WATCHDOG.WD_LAST_REQ.TARGET : Field := fld 0x0b 10 12 4 .ro .s 0
/-- 0 grant held with no bus cycle under way and no array operation; 1 bus activity: command, address or status... -/
def WATCHDOG.WD_LAST_REQ.ACTIVITY : Field := fld 0x0b 10 16 2 .ro .s 0
/-- largest floor of R236 over the populated dies at the frequency in force, in ID mode and in fast mode alike;... (live) -/
def WATCHDOG.WD_FLOOR.CCLK : Field := lvf 0x0b 11 0 32 .ro .s

/-! Page 0x0c FTL (R272). -/
/-- map pages in the cache, 0–4,096 (live) -/
def FTL.MAP_PAGES.RESIDENT : Field := lvf 0x0c 8 0 13 .ro .s
/-- pinned map pages (live) -/
def FTL.MAP_PAGES.PINNED : Field := lvf 0x0c 8 16 13 .ro .s
/-- dirty map pages, 0–1,024 (live) -/
def FTL.MAP_DIRTY.DIRTY : Field := lvf 0x0c 9 0 11 .ro .s
/-- dirty limit (R246) -/
def FTL.MAP_DIRTY.DIRTY_MAX : Field := fld 0x0c 9 16 11 .ro .p 0x400
/-- lookups found in the cache; word 0 of the group -/
def FTL.MAP_HITS.COUNT : Field := fld 0x0c 10 0 32 .snap .b 0
/-- lookups that missed -/
def FTL.MAP_MISSES.COUNT : Field := fld 0x0c 11 0 32 .snap .b 0
/-- map pages written back -/
def FTL.MAP_WRITEBACKS.COUNT : Field := fld 0x0c 12 0 32 .snap .b 0
/-- map pages lost (R248) -/
def FTL.MAP_LOST.COUNT : Field := fld 0x0c 13 0 32 .snap .b 0
/-- sectors committed by host WRITEs, bits [31:0] -/
def FTL.HOST_SECT_LO.COUNT : Field := fld 0x0c 14 0 32 .snap .b 0
/-- bits [63:32] -/
def FTL.HOST_SECT_HI.COUNT : Field := fld 0x0c 15 0 32 .snap .b 0
/-- sectors programmed for host data, relocation and refresh, bits [31:0] -/
def FTL.NAND_SECT_LO.COUNT : Field := fld 0x0c 16 0 32 .snap .b 0
/-- bits [63:32] -/
def FTL.NAND_SECT_HI.COUNT : Field := fld 0x0c 17 0 32 .snap .b 0
/-- read-count checkpoints due (R270); saturates at 0xFFFF (live) -/
def FTL.CKPT.DUE : Field := lvf 0x0c 18 0 16 .ro .s
/-- urgent reads that carried a batch; saturates at 0xFFFF -/
def FTL.CKPT.URGENT_CARRIED : Field := fld 0x0c 18 16 16 .ro .b 0

/-! Page 0x0d UPKEEP (R273). -/
/-- Upkeep debt in steps, bits [31:0]; word 0 of the group (live) -/
def UPKEEP.DEBT_LO.DEBT : Field := lvf 0x0d 8 0 32 .snap .s
/-- bits [63:32] (live) -/
def UPKEEP.DEBT_HI.DEBT : Field := lvf 0x0d 9 0 32 .snap .s
/-- S + V (R257) (live) -/
def UPKEEP.DEBT_GC.STEPS : Field := lvf 0x0d 10 0 32 .snap .s
/-- verification and patrol reads owed (live) -/
def UPKEEP.DEBT_VERIFY.STEPS : Field := lvf 0x0d 11 0 32 .snap .s
/-- valid pages of flagged blocks (live) -/
def UPKEEP.DEBT_REFRESH.STEPS : Field := lvf 0x0d 12 0 32 .snap .s
/-- soft threshold; 0 = off -/
def UPKEEP.DEBT_SOFT.STEPS : Field := fld 0x0d 13 0 32 .rw .s 0x10000
/-- Forced upkeep threshold; 0 = off -/
def UPKEEP.DEBT_HARD.STEPS : Field := fld 0x0d 14 0 32 .rw .s 0x40000
/-- erased good blocks of the data region ready for use; retired blocks, blocks of open superblocks, and every ... (live) -/
def UPKEEP.FREE.FREE_BLOCKS : Field := lvf 0x0d 15 0 24 .ro .s
/-- set at start-up to RESERVE + 2 × the populated dies (computed) -/
def UPKEEP.FREE_TARGET.BLOCKS : Field := fld 0x0d 16 0 24 .rw .s 0
/-- R265 (live) -/
def UPKEEP.RESERVE.BLOCKS : Field := lvf 0x0d 17 0 24 .ro .s
/-- R258 (live) -/
def UPKEEP.STATE.FORCING : Field := lvf 0x0d 18 0 1 .ro .s
/-- R266 (live) -/
def UPKEEP.STATE.STARVED : Field := lvf 0x0d 18 1 1 .ro .s
/-- a patrol round owes samples (live) -/
def UPKEEP.STATE.PATROL_ACTIVE : Field := lvf 0x0d 18 2 1 .ro .s
/-- start a patrol round; self-clearing -/
def UPKEEP.STATE.PATROL_START : Field := fld 0x0d 18 8 1 .w1s .s 0
/-- WRITEs that carried at least one step; word 0 of the group -/
def UPKEEP.FORCED_COUNT.COUNT : Field := fld 0x0d 19 0 32 .snap .b 0
/-- steps carried by WRITEs -/
def UPKEEP.FORCED_STEPS.COUNT : Field := fld 0x0d 20 0 32 .snap .b 0
/-- upkeep block erases -/
def UPKEEP.ERASES.COUNT : Field := fld 0x0d 21 0 32 .snap .b 0
/-- page and refresh relocations -/
def UPKEEP.RELOCATIONS.COUNT : Field := fld 0x0d 22 0 32 .snap .b 0
/-- verification reads and patrol samples -/
def UPKEEP.VERIFY_READS.COUNT : Field := fld 0x0d 23 0 32 .snap .b 0
/-- entries to starvation; saturates at 0xFFFF -/
def UPKEEP.STARVE.ENTRIES : Field := fld 0x0d 24 0 16 .ro .b 0

/-! Page 0x0e PROOF (R299). -/
/-- open superblocks (live) -/
def PROOF.SUPERBLOCKS.OPEN : Field := lvf 0x0e 8 0 8 .ro .s
/-- closed superblocks not released; saturates at 0xFFFF (live) -/
def PROOF.SUPERBLOCKS.PENDING : Field := lvf 0x0e 8 16 16 .ro .s
/-- open stripes card-wide (live) -/
def PROOF.STRIPES.OPEN_STRIPES : Field := lvf 0x0e 9 0 16 .ro .s
/-- parity buffers in use, 0–256 (live) -/
def PROOF.STRIPES.CACHED : Field := lvf 0x0e 9 16 9 .ro .s
/-- parity region pages, card-wide (live) -/
def PROOF.PARITY_CAP.PAGES : Field := lvf 0x0e 10 0 28 .ro .s
/-- latest versions of unreleased superblocks (live) -/
def PROOF.PARITY_LIVE.PAGES : Field := lvf 0x0e 11 0 28 .ro .s
/-- erased parity pages (live) -/
def PROOF.PARITY_FREE.PAGES : Field := lvf 0x0e 12 0 28 .ro .s
/-- M of the host superblock open now, or of the last one opened (R274) (live) -/
def PROOF.LAYOUT.MEMBERS : Field := lvf 0x0e 13 0 5 .ro .s
/-- versions programmed, copy-forwards included; word 0 -/
def PROOF.PARITY_PROGRAMS.COUNT : Field := fld 0x0e 14 0 32 .snap .b 0
/-- copy-forwards (R281) -/
def PROOF.COPY_FORWARDS.COUNT : Field := fld 0x0e 15 0 32 .snap .b 0
/-- pages rebuilt -/
def PROOF.REBUILDS.COUNT : Field := fld 0x0e 16 0 32 .snap .b 0
/-- pages that failed verification -/
def PROOF.VERIFY_FAILS.COUNT : Field := fld 0x0e 17 0 32 .snap .b 0
/-- R282 -/
def PROOF.FORCED_RELEASES.COUNT : Field := fld 0x0e 18 0 32 .snap .b 0
/-- releases under R285 -/
def PROOF.RELEASES.COUNT : Field := fld 0x0e 19 0 32 .snap .b 0

/-! Page 0x0f WEAR (R300). -/
/-- 0–100 (R297) (live) -/
def WEAR.LIFE.LIFE : Field := lvf 0x0f 8 0 7 .ro .s
/-- channel giving the minimum (live) -/
def WEAR.LIFE.LIMIT_CHAN : Field := lvf 0x0f 8 8 4 .ro .s
/-- 0 spares, 1 P/E (live) -/
def WEAR.LIFE.LIMIT_KIND : Field := lvf 0x0f 8 12 1 .ro .s
/-- R293 (live) -/
def WEAR.RO_REASON.SPARES : Field := lvf 0x0f 9 0 1 .ro .s
/-- R293 (live) -/
def WEAR.RO_REASON.PE : Field := lvf 0x0f 9 1 1 .ro .s
/-- R275 (live) -/
def WEAR.RO_REASON.NO_PARITY_DIE : Field := lvf 0x0f 9 2 1 .ro .s
/-- R295 (live) -/
def WEAR.RO_REASON.WEAR_LOST : Field := lvf 0x0f 9 3 1 .ro .s
/-- view of UPKEEP.STATE.STARVED (live) -/
def WEAR.RO_REASON.STARVED : Field := lvf 0x0f 9 4 1 .ro .s
/-- spares left on channel 2k (live), 8 registers -/
def WEAR.SPARES.CH_EVEN : Field := lvf 0x0f 10 0 16 .ro .s
/-- spares left on channel 2k + 1 (live), 8 registers -/
def WEAR.SPARES.CH_ODD : Field := lvf 0x0f 10 16 16 .ro .s
/-- blocks retired since provisioning (live) -/
def WEAR.RETIRED_TOTAL.BLOCKS : Field := lvf 0x0f 18 0 24 .ro .s
/-- read threshold in force (R268) for the dies of the channel that CHAN_SEL names; 0 when that channel is unpo... (live) -/
def WEAR.REFRESH.THRESHOLD : Field := lvf 0x0f 19 0 24 .ro .s
/-- 0–3; card-wide (live) -/
def WEAR.REFRESH.HALVINGS : Field := lvf 0x0f 19 24 2 .ro .s
/-- flagged blocks relocated; saturates -/
def WEAR.REFRESHES.COUNT : Field := fld 0x0f 20 0 32 .ro .b 0
/-- erase spread for R298; 0 = off -/
def WEAR.WL_CFG.WL_SPREAD : Field := fld 0x0f 21 0 16 .rw .s 0x100
/-- channel shown in indices 23–26 -/
def WEAR.CHAN_SEL.CHAN : Field := fld 0x0f 22 0 4 .rw .s 0
/-- initial pool; word 0 (live) -/
def WEAR.CH_SPARE.INITIAL : Field := lvf 0x0f 23 0 16 .snap .s
/-- blocks retired on the channel; saturates (live) -/
def WEAR.CH_SPARE.RETIRED : Field := lvf 0x0f 23 16 16 .snap .s
/-- data-region mean erase count, rounded down (live) -/
def WEAR.CH_DATA.MEAN : Field := lvf 0x0f 24 0 16 .snap .s
/-- highest data-region erase count; saturates (live) -/
def WEAR.CH_DATA.MAX : Field := lvf 0x0f 24 16 16 .snap .s
/-- larger of the map-region and parity-region means (live) -/
def WEAR.CH_SLC.MEAN : Field := lvf 0x0f 25 0 16 .snap .s
/-- highest SLC erase count; saturates (live) -/
def WEAR.CH_SLC.MAX : Field := lvf 0x0f 25 16 16 .snap .s
/-- ceil(100 × the channel's smallest fraction) (live) -/
def WEAR.CH_LIFE.LIFE : Field := lvf 0x0f 26 0 7 .snap .s

/-! Page 0x10 CH (R347). -/
/-- population entry, 0 if invalid or absent (stored) -/
def CH.CONFIG.POPULATED : Field := lvf 0x10 8 0 1 .ro .s
/-- Die profile in use (stored) -/
def CH.CONFIG.PROFILE : Field := lvf 0x10 8 1 1 .ro .s
/-- volume addressing in use (stored) -/
def CH.CONFIG.VOLUME : Field := lvf 0x10 8 2 1 .ro .s
/-- 0 ONFI, 1 Toggle DDR (stored) -/
def CH.CONFIG.IFACE : Field := lvf 0x10 8 3 1 .ro .s
/-- dies in the entry (stored) -/
def CH.CONFIG.DIES : Field := lvf 0x10 8 4 5 .ro .s
/-- LUNs per package target (stored) -/
def CH.CONFIG.LUNS : Field := lvf 0x10 8 9 3 .ro .s
/-- channel rate in MT/s; 10 in SDR timing mode 0; 0 while unconfigured (live) -/
def CH.RATE.RATE_MT : Field := lvf 0x10 9 0 16 .ro .s
/-- R336; 0 in SDR timing mode 0 and while unconfigured (live) -/
def CH.RATE.K : Field := lvf 0x10 9 16 4 .ro .s
/-- SDR timing mode 0 in force (live) -/
def CH.RATE.SDR : Field := lvf 0x10 9 20 1 .ro .s
/-- reconfiguration needed (R338) (live) -/
def CH.RATE.RECONF_PENDING : Field := lvf 0x10 9 21 1 .ro .s
/-- timing mode number set in the dies; 0 in SDR timing mode 0 and while unconfigured (see below) (live) -/
def CH.RATE.MODE : Field := lvf 0x10 9 24 8 .ro .s
/-- TADL count (live) -/
def CH.TIMING_A.ADL : Field := lvf 0x10 10 0 16 .ro .s
/-- TCCS count (live) -/
def CH.TIMING_A.CCS : Field := lvf 0x10 10 16 16 .ro .s
/-- TWHR count (live) -/
def CH.TIMING_B.WHR : Field := lvf 0x10 11 0 16 .ro .s
/-- TRHW count (live) -/
def CH.TIMING_B.RHW : Field := lvf 0x10 11 16 16 .ro .s
/-- TCS count (live) -/
def CH.TIMING_C.CS : Field := lvf 0x10 12 0 16 .ro .s
/-- bit t: die t present (mirror of IDENT.DIE_PRESENT) (view) -/
def CH.DIES.PRESENT : Field := lvf 0x10 13 0 16 .ro .s
/-- bit 16 + t: die t declared failed (stored) -/
def CH.DIES.FAILED : Field := lvf 0x10 13 16 16 .ro .s
/-- channel microcode interface number in force; 0 under ROM sequences (live) -/
def CH.MC.MC_IF : Field := lvf 0x10 14 0 16 .ro .s
/-- boot ROM sequences in use (live) -/
def CH.MC.ROM_SEQ : Field := lvf 0x10 14 16 1 .ro .s
/-- SUSP_HOLD_MAX of the profile (stored) -/
def CH.SUSP_HOLD.MS : Field := lvf 0x10 15 0 16 .ro .s
/-- array reads; word 0 of the group -/
def CH.ARRAY_READS.COUNT : Field := fld 0x10 16 0 32 .snap .b 0
/-- programs, parity versions included -/
def CH.PROGRAMS.COUNT : Field := fld 0x10 17 0 32 .snap .b 0
/-- block erases -/
def CH.ERASES.COUNT : Field := fld 0x10 18 0 32 .snap .b 0
/-- programs whose status read fail -/
def CH.PROG_FAILS.COUNT : Field := fld 0x10 19 0 32 .snap .b 0
/-- erases whose status read fail -/
def CH.ERASE_FAILS.COUNT : Field := fld 0x10 20 0 32 .snap .b 0
/-- program and erase suspends issued -/
def CH.SUSPENDS.COUNT : Field := fld 0x10 21 0 32 .snap .b 0
/-- reconfigurations; saturates at 0xFFFF -/
def CH.COUNTS.RECONFIGS : Field := fld 0x10 22 0 16 .ro .b 0
/-- failed trainings of a die; saturates at 0xFFFF -/
def CH.COUNTS.TRAIN_FAILS : Field := fld 0x10 22 16 16 .ro .b 0

/-! Page 0x20 ECC (R348). -/
/-- hard decoders -/
def ECC.CAPS.HARD : Field := fld 0x20 8 0 5 .ro .p 0x10
/-- soft decoders -/
def ECC.CAPS.SOFT : Field := fld 0x20 8 8 4 .ro .p 4
/-- codeword slot bytes, 4,608 -/
def ECC.CAPS.CW_BYTES : Field := fld 0x20 8 16 16 .ro .p 0x1200
/-- soft decoder 3 reserved for urgent codewords (R343) -/
def ECC.CFG.URGENT_SOFT : Field := fld 0x20 9 0 1 .rw .s 1
/-- codewords passed by hard decode; word 0 of the group -/
def ECC.HARD_OK.COUNT : Field := fld 0x20 10 0 32 .snap .b 0
/-- codewords passed by soft decode -/
def ECC.SOFT_OK.COUNT : Field := fld 0x20 11 0 32 .snap .b 0
/-- codewords that failed hard and soft decode -/
def ECC.FAILED.COUNT : Field := fld 0x20 12 0 32 .snap .b 0
/-- codewords that failed the tag check -/
def ECC.TAG_FAIL.COUNT : Field := fld 0x20 13 0 32 .snap .b 0
/-- slots recognised erased (R345) -/
def ECC.ERASED.COUNT : Field := fld 0x20 14 0 32 .snap .b 0
/-- largest corrected bit count of one hard decode -/
def ECC.MAX_BITS.BITS : Field := fld 0x20 15 0 16 .snap .b 0
/-- soft decoders busy (live) -/
def ECC.SOFT_STATE.BUSY : Field := lvf 0x20 16 0 3 .ro .s
/-- codewords waiting for a soft decoder; saturates at 255 (live) -/
def ECC.SOFT_STATE.QUEUED : Field := lvf 0x20 16 8 8 .ro .s

/-! Page 0x21 REMOVAL (R325). -/
/-- 1 DET_N, 2 brown-out, 3 both -/
def REMOVAL.LAST_PHASE.SOURCE : Field := fld 0x21 8 0 2 .ro .p 0
/-- step 3 ended by its window -/
def REMOVAL.LAST_PHASE.RB_TIMEOUT : Field := fld 0x21 8 2 1 .ro .p 0
/-- a WRITE was In flight at the freeze -/
def REMOVAL.LAST_PHASE.WRITES : Field := fld 0x21 8 3 1 .ro .p 0
/-- a program or erase was running or suspended -/
def REMOVAL.LAST_PHASE.PROGRAMS : Field := fld 0x21 8 4 1 .ro .p 0
/-- bit 16 + n: channel n received a reset at step 2 -/
def REMOVAL.LAST_PHASE.CH_RESET : Field := fld 0x21 8 16 16 .ro .p 0
/-- a pending removal was found at this start-up -/
def REMOVAL.CRUST.LAST_VALID : Field := fld 0x21 9 0 1 .ro .p 0
/-- that removal reached step 6 -/
def REMOVAL.CRUST.LAST_COMPLETE : Field := fld 0x21 9 1 1 .ro .p 0
/-- the Crust lost VBAK (R319) (Crust) -/
def REMOVAL.CRUST.CRUST_LOST : Field := lvf 0x21 9 2 1 .w1c .k
/-- removal count bits [31:0]; word 0 of the group (Crust) -/
def REMOVAL.REMOVALS_0.COUNT_LO : Field := lvf 0x21 10 0 32 .snap .k
/-- bits [47:32] (Crust) -/
def REMOVAL.REMOVALS_1.COUNT_HI : Field := lvf 0x21 11 0 16 .snap .k
/-- Crust cell 15 (Crust) -/
def REMOVAL.SOURCES.DET_N : Field := lvf 0x21 12 0 8 .snap .k
/-- Crust cell 15 (Crust) -/
def REMOVAL.SOURCES.BROWNOUT : Field := lvf 0x21 12 8 8 .snap .k
/-- Crust cell 16 (Crust) -/
def REMOVAL.SOURCES.INCOMPLETE : Field := lvf 0x21 12 16 8 .snap .k
/-- Crust cell 16 (Crust) -/
def REMOVAL.SOURCES.RB_TIMEOUTS : Field := lvf 0x21 12 24 5 .snap .k
/-- R310 (live) -/
def REMOVAL.HOLD.VHOLD_OK : Field := lvf 0x21 13 0 1 .ro .s
/-- the pump is charging (live) -/
def REMOVAL.HOLD.PUMP_ACTIVE : Field := lvf 0x21 13 1 1 .ro .s
/-- sectors marked TORN at the last recovery; saturates -/
def REMOVAL.TORN_MARKED.COUNT : Field := fld 0x21 14 0 32 .ro .p 0
/-- scan set in pages (R321) (live) -/
def REMOVAL.SCAN.SET : Field := lvf 0x21 15 0 19 .ro .s

/-! Page 0x22 RESET (R368). -/
/-- 1 core, 2 system, 3 power-on -/
def RESET.CAUSE.LEVEL : Field := fld 0x22 8 0 2 .ro .p 0
/-- Table 14-2 -/
def RESET.CAUSE.SOURCE : Field := fld 0x22 8 4 3 .ro .p 0
/-- LEVEL -/
def RESET.PREV_CAUSE.LEVEL : Field := fld 0x22 9 0 2 .ro .p 0
/-- SOURCE -/
def RESET.PREV_CAUSE.SOURCE : Field := fld 0x22 9 4 3 .ro .p 0
/-- open mode in force (stored) -/
def RESET.MODE.OPEN : Field := lvf 0x22 10 0 1 .ro .s
/-- reset count bits [31:0]; word 0 of the group (Crust) -/
def RESET.RESETS_0.COUNT_LO : Field := lvf 0x22 11 0 32 .snap .k
/-- bits [47:32] (Crust) -/
def RESET.RESETS_1.COUNT_HI : Field := lvf 0x22 12 0 16 .snap .k
/-- Crust cell 5 (Crust) -/
def RESET.SRC_A.POWER_ON : Field := lvf 0x22 13 0 16 .snap .k
/-- cell 6 (Crust) -/
def RESET.SRC_A.REMOVAL_RESTART : Field := lvf 0x22 13 16 16 .snap .k
/-- cell 7 (Crust) -/
def RESET.SRC_B.RST_N : Field := lvf 0x22 14 0 16 .snap .k
/-- cell 8 (Crust) -/
def RESET.SRC_B.LINK_SYSTEM : Field := lvf 0x22 14 16 16 .snap .k
/-- cell 9 (Crust) -/
def RESET.SRC_C.LINK_CORE : Field := lvf 0x22 15 0 16 .snap .k
/-- cell 10 (Crust) -/
def RESET.SRC_C.FW_CORE : Field := lvf 0x22 15 16 16 .snap .k
/-- drain length of the last core reset; saturates -/
def RESET.DRAIN.CCLK : Field := fld 0x22 16 0 32 .ro .s 0

/-! Page 0x23 OPTION (R369). -/
/-- 0 copy A, 1 copy B -/
def OPTION.IN_FORCE.COPY : Field := fld 0x23 8 0 1 .ro .s 0
/-- defaults in force (R364) -/
def OPTION.IN_FORCE.DEFAULTS : Field := fld 0x23 8 1 1 .ro .s 0
/-- byte 10 in force -/
def OPTION.IN_FORCE.ADMIN_ORIG : Field := fld 0x23 8 8 8 .ro .s 0
/-- byte 11 in force -/
def OPTION.IN_FORCE.MODE : Field := fld 0x23 8 16 8 .ro .s 0
/-- SEQ of the copy in force; 0 with defaults -/
def OPTION.SEQ_IN_FORCE.SEQ : Field := fld 0x23 9 0 32 .ro .s 0
/-- the other copy is valid -/
def OPTION.OTHER.VALID : Field := fld 0x23 10 0 1 .ro .s 0
/-- 64-byte block shown in indices 16–31 -/
def OPTION.STAGE_SEL.BLOCK : Field := fld 0x23 11 0 3 .rw .s 0
/-- commit the staging buffer (R366); self-clearing -/
def OPTION.COMMIT.GO : Field := fld 0x23 12 0 1 .w1s .s 0
/-- commit under way (live) -/
def OPTION.COMMIT.BUSY : Field := lvf 0x23 12 1 1 .ro .s
/-- 0 none, 1 DONE, 2 REJECTED, 3 NVM_FAIL -/
def OPTION.COMMIT.RESULT : Field := fld 0x23 12 2 2 .ro .s 0
/-- copy the copy in force into the staging buffer; self-clearing -/
def OPTION.STAGE.LOAD : Field := fld 0x23 13 0 1 .w1s .s 0
/-- bytes 64 × BLOCK + 4k to + 4k + 3 of the staging buffer in register 16 + k (view), 16 registers -/
def OPTION.STAGE_WORD.DATA : Field := lvf 0x23 16 0 32 .rw .s

/-! Page 0x24 ESCALATE (R385). -/
/-- grace in CCLK; 0 = escalate on the pending edge (R373) -/
def ESCALATE.FAULT_GRACE.CCLK : Field := fld 0x24 8 0 32 .rw .s 0x3d0900
/-- an escalation is pending -/
def ESCALATE.STATE.PENDING : Field := fld 0x24 9 0 1 .ro .s 0
/-- the Safe state is in force -/
def ESCALATE.STATE.SAFE : Field := fld 0x24 9 1 1 .ro .s 0
/-- FAULT_GRACE − COUNT while PENDING, 0 at or beyond it; 0 when not pending (live) -/
def ESCALATE.GRACE_LEFT.CCLK : Field := lvf 0x24 10 0 32 .ro .s
/-- 0 none, 1 grace expiry, 2 at once, 3 HDR_PARITY, 4 forced -/
def ESCALATE.SAFE_CAUSE.KIND : Field := fld 0x24 11 0 3 .ro .s 0
/-- page of the cause -/
def ESCALATE.SAFE_CAUSE.PAGE : Field := fld 0x24 11 8 8 .ro .s 0
/-- Slice 0–63, or 0xFF for a card-level page -/
def ESCALATE.SAFE_CAUSE.BANK : Field := fld 0x24 11 16 8 .ro .s 0
/-- source bit, or 31 for HDR_PARITY -/
def ESCALATE.SAFE_CAUSE.BIT : Field := fld 0x24 11 24 5 .ro .s 0
/-- 1 = the Crust latch asserts ALERT (live) -/
def ESCALATE.ALERT_STATE.LATCH : Field := lvf 0x24 12 0 1 .ro .s
/-- level sensed at ALERT_P (live) -/
def ESCALATE.ALERT_STATE.PAD_P : Field := lvf 0x24 12 1 1 .ro .s
/-- level sensed at ALERT_N (live) -/
def ESCALATE.ALERT_STATE.PAD_N : Field := lvf 0x24 12 2 1 .ro .s
/-- MODE.ALERT_ALL of the option store reads 0 (R379) (stored) -/
def ESCALATE.ALERT_STATE.FAULTS_ONLY : Field := lvf 0x24 12 3 1 .ro .s
/-- causes present, Table 15-3 (live) -/
def ESCALATE.ALERT_CAUSE.PRESENT : Field := lvf 0x24 13 0 5 .ro .s
/-- causes present and not masked (live) -/
def ESCALATE.ALERT_CAUSE.ASSERTING : Field := lvf 0x24 13 8 5 .ro .s
/-- fault causes; never masked -/
def ESCALATE.ALERT_MASK.FAULT_CAUSES : Field := fld 0x24 14 0 2 .ro .s 0
/-- mask of WAKE, ATTN, FORCE; read 1 and ignore writes while FAULTS_ONLY -/
def ESCALATE.ALERT_MASK.MASK : Field := fld 0x24 14 2 3 .rw .s 7
/-- cause FORCE -/
def ESCALATE.ALERT_CTRL.FORCE : Field := fld 0x24 15 0 1 .rw .s 0
/-- bit p: a source of page p (any bank) holds the pending escalation, p = 0–31; word 0 of the group (live) -/
def ESCALATE.PEND_MAP_0.PAGES : Field := lvf 0x24 16 0 32 .snap .s
/-- bit p − 32, p = 32–40 (live) -/
def ESCALATE.PEND_MAP_1.PAGES : Field := lvf 0x24 17 0 9 .snap .s
/-- bit s: a source of SLICE or QUEUE bank s holds it, s = 0–31 (live) -/
def ESCALATE.PEND_BANKS_0.BANKS : Field := lvf 0x24 18 0 32 .snap .s
/-- bit s − 32, s = 32–63 (live) -/
def ESCALATE.PEND_BANKS_1.BANKS : Field := lvf 0x24 19 0 32 .snap .s

/-! Page 0x25 FIRMWARE (R410). -/
/-- 0 CONFIRMED, 1 PROBATION, 2 MINIMAL (live) -/
def FIRMWARE.STATE.FW_STATE : Field := lvf 0x25 8 0 2 .ro .s
/-- safe-interface mode (R408) (live) -/
def FIRMWARE.STATE.SAFE_IF : Field := lvf 0x25 8 2 1 .ro .s
/-- a shadow exists for this probation (live) -/
def FIRMWARE.STATE.SHADOW_READY : Field := lvf 0x25 8 3 1 .ro .s
/-- 0 slot A, 1 slot B, 3 none (live) -/
def FIRMWARE.STATE.RUN_MAIN : Field := lvf 0x25 8 4 2 .ro .s
/-- 0 slot A, 1 slot B, 3 boot ROM sequences (live) -/
def FIRMWARE.STATE.RUN_MC : Field := lvf 0x25 8 6 2 .ro .s
/-- the running main image was not the first candidate of R396 (live) -/
def FIRMWARE.STATE.FALLBACK : Field := lvf 0x25 8 8 1 .ro .s
/-- Table 16-1 (live) -/
def FIRMWARE.SLOTS.MAIN_A : Field := lvf 0x25 9 0 4 .ro .s
/-- MAIN_B (live) -/
def FIRMWARE.SLOTS.MAIN_B : Field := lvf 0x25 9 4 4 .ro .s
/-- MC_A (live) -/
def FIRMWARE.SLOTS.MC_A : Field := lvf 0x25 9 8 4 .ro .s
/-- MC_B (live) -/
def FIRMWARE.SLOTS.MC_B : Field := lvf 0x25 9 12 4 .ro .s
/-- last reject reason, Table 16-3 (Crust) -/
def FIRMWARE.REJECT.REASON : Field := lvf 0x25 10 0 8 .ro .k
/-- 0 main A, 1 main B, 2 microcode A, 3 microcode B (Crust) -/
def FIRMWARE.REJECT.SLOT : Field := lvf 0x25 10 8 2 .ro .k
/-- rejections; saturates at 0xFFFF (Crust) -/
def FIRMWARE.REJECT.COUNT : Field := lvf 0x25 10 16 16 .ro .k
/-- VERSION of the running main image -/
def FIRMWARE.MAIN_VERSION.VERSION : Field := fld 0x25 11 0 32 .ro .c 0
/-- VERSION of the loaded microcode; 0 under boot ROM sequences -/
def FIRMWARE.MC_VERSION.VERSION : Field := fld 0x25 12 0 32 .ro .c 0
/-- MC_IF of the running main image -/
def FIRMWARE.IFACE.MC_IF_EXPECT : Field := fld 0x25 13 0 16 .ro .c 0
/-- MC_IF of the loaded microcode; 0 under boot ROM sequences -/
def FIRMWARE.IFACE.MC_IF : Field := fld 0x25 13 16 16 .ro .c 0
/-- format of the settings copy in force (live) -/
def FIRMWARE.SETTINGS.FMT_IN_FORCE : Field := lvf 0x25 14 0 16 .ro .s
/-- format of the shadow; 0 without one (live) -/
def FIRMWARE.SETTINGS.SHADOW_FMT : Field := lvf 0x25 14 16 16 .ro .s
/-- sequence of the settings copy in force (live) -/
def FIRMWARE.SETTINGS_SEQ.SEQ : Field := lvf 0x25 15 0 32 .ro .s
/-- bit i: key slot i programmed (P:fused) -/
def FIRMWARE.KEYS.PROGRAMMED : Field := lvf 0x25 16 0 4 .ro .p
/-- bit 4 + i: key slot i revoked (P:fused) -/
def FIRMWARE.KEYS.REVOKED : Field := lvf 0x25 16 4 4 .ro .p
/-- key slot that verified the running main image (live) -/
def FIRMWARE.KEYS.RUN_KEY : Field := lvf 0x25 16 8 2 .ro .s

/-! Page 0x26 POWER (R427). -/
/-- latest conversion (live) -/
def POWER.TEMP.TEMP : Field := lvf 0x26 8 0 10 .ro .s
/-- a conversion has ended since start-up (live) -/
def POWER.TEMP.VALID : Field := lvf 0x26 8 16 1 .ro .s
/-- R424 (live) -/
def POWER.TEMP.ALARM : Field := lvf 0x26 8 17 1 .ro .s
/-- R423 -/
def POWER.TEMP_CFG.INTERVAL_LOG2 : Field := fld 0x26 9 0 5 .rw .s 0x14
/-- hysteresis, 0.5 °C units; 5.0 °C -/
def POWER.TEMP_CFG.HYST : Field := fld 0x26 9 8 8 .rw .s 0xa
/-- 110.0 °C -/
def POWER.TEMP_CFG.ALARM_HI : Field := fld 0x26 9 16 10 .rw .s 0xdc
/-- budget without alarm; 0 = no limit -/
def POWER.DIE_BUDGET.NORMAL : Field := fld 0x26 10 0 9 .rw .s 0
/-- budget under alarm, 16 dies -/
def POWER.DIE_BUDGET.ALARM : Field := fld 0x26 10 16 9 .rw .s 0x10
/-- counted dies (R425) (live) -/
def POWER.BUDGET_STAT.IN_USE : Field := lvf 0x26 11 0 9 .ro .s
/-- budget in force; 0 = none (live) -/
def POWER.BUDGET_STAT.LIMIT : Field := lvf 0x26 11 16 9 .ro .s
/-- lowest conversion since the last clear; the first conversion after power-on, system reset or wake, like the... -/
def POWER.TEMP_RANGE.MIN : Field := fld 0x26 12 0 10 .ro .s 0
/-- highest conversion since the last clear; set with MIN as given there -/
def POWER.TEMP_RANGE.MAX : Field := fld 0x26 12 16 10 .ro .s 0
/-- set MIN and MAX to the next conversion; self-clearing -/
def POWER.TEMP_RANGE.CLR : Field := fld 0x26 12 31 1 .w1s .s 0
/-- Crust cell 24, Table 17-4 (Crust) -/
def POWER.WAKE.CAUSES : Field := lvf 0x26 13 0 5 .w1c .k
/-- first cause latched since cell 24 last read 0 (Crust) -/
def POWER.WAKE.FIRST_CAUSE : Field := lvf 0x26 13 8 3 .ro .k
/-- Crust cell 0 WAKE_PENDING (Crust) -/
def POWER.WAKE.PENDING : Field := lvf 0x26 13 16 1 .ro .k
/-- Crust cell 26; SLEEP entries (Crust) -/
def POWER.SLEEP_COUNTS.ENTRIES : Field := lvf 0x26 14 0 16 .ro .k
/-- Crust cell 27; wakes by the WAKE pattern (Crust) -/
def POWER.SLEEP_COUNTS.HOST_WAKES : Field := lvf 0x26 14 16 16 .ro .k
/-- latch cause FORCE; self-clearing -/
def POWER.SLEEP_CTRL.WAKE_FORCE : Field := fld 0x26 15 0 1 .w1s .s 0

/-! Page 0x27 DEBUG (R386). -/
/-- cause in force at the last system reset; 0 if none (R377) -/
def DEBUG.PREV_SAFE.CAUSE : Field := fld 0x27 8 0 32 .ro .p 0
/-- entries to the Safe state; saturates at 0xFFFF -/
def DEBUG.COUNTS.SAFE_ENTRIES : Field := fld 0x27 9 0 16 .ro .b 0
/-- pending escalations ended without the Safe state; saturates at 0xFFFF -/
def DEBUG.COUNTS.AVERTED : Field := fld 0x27 9 16 16 .ro .b 0
/-- host notes kept through system and core reset, 8 registers -/
def DEBUG.SCRATCH.DATA : Field := fld 0x27 10 0 32 .rw .p 0

/-! Page 0x28 TEST (R485). -/
/-- PAGE -/
def TEST.INJECT.PAGE : Field := fld 0x28 8 0 8 .rw .s 0
/-- BANK -/
def TEST.INJECT.BANK : Field := fld 0x28 8 8 6 .rw .s 0
/-- BIT -/
def TEST.INJECT.BIT : Field := fld 0x28 8 16 5 .rw .s 0
/-- GO -/
def TEST.INJECT.GO : Field := fld 0x28 8 31 1 .w1s .s 0
/-- factory test mode in force (R477) (live) -/
def TEST.TEST_STATE.FTM : Field := lvf 0x28 9 0 1 .ro .s
/-- test seal fuse blown (P:fused) -/
def TEST.TEST_STATE.SEALED : Field := lvf 0x28 9 1 1 .ro .p
/-- level sensed at TEST_EN (live) -/
def TEST.TEST_STATE.TEST_EN : Field := lvf 0x28 9 2 1 .ro .s
/-- grant watchdog stopped (live) -/
def TEST.TEST_STATE.WD_STOPPED : Field := lvf 0x28 9 3 1 .ro .s
/-- no watchdog count runs while 1 -/
def TEST.WD_CTRL.STOP : Field := fld 0x28 10 0 1 .rw .s 0
/-- Fuse map entry 0–359 -/
def TEST.FUSE_PROG.ENTRY : Field := fld 0x28 11 0 9 .rw .s 0
/-- code to program (Table 14-7) -/
def TEST.FUSE_PROG.CODE : Field := fld 0x28 11 9 3 .rw .s 0
/-- 1 = blow the test seal fuse; ENTRY and CODE ignored -/
def TEST.FUSE_PROG.SEAL : Field := fld 0x28 11 12 1 .rw .s 0
/-- start (R479); self-clearing -/
def TEST.FUSE_PROG.GO : Field := fld 0x28 11 13 1 .w1s .s 0
/-- programming under way (live) -/
def TEST.FUSE_PROG.BUSY : Field := lvf 0x28 11 14 1 .ro .s
/-- 0 none, 1 DONE, 2 REJECTED, 3 VERIFY_FAIL -/
def TEST.FUSE_PROG.RESULT : Field := fld 0x28 11 15 2 .ro .s 0
/-- must read 0x5A at GO -/
def TEST.FUSE_PROG.CONFIRM : Field := fld 0x28 11 24 8 .rw .s 0
/-- key slot 0–3 -/
def TEST.KEY_PROG.SLOT : Field := fld 0x28 12 0 2 .rw .s 0
/-- 1 = blow the slot's revoke fuse -/
def TEST.KEY_PROG.REVOKE : Field := fld 0x28 12 2 1 .rw .s 0
/-- start; self-clearing -/
def TEST.KEY_PROG.GO : Field := fld 0x28 12 3 1 .w1s .s 0
/-- BUSY (live) -/
def TEST.KEY_PROG.BUSY : Field := lvf 0x28 12 4 1 .ro .s
/-- as FUSE_PROG.RESULT -/
def TEST.KEY_PROG.RESULT : Field := fld 0x28 12 5 2 .ro .s 0
/-- must read 0x5A at GO -/
def TEST.KEY_PROG.CONFIRM : Field := fld 0x28 12 24 8 .rw .s 0
/-- digest bytes 4k to 4k + 3 in register 13 + k, little-endian, 8 registers -/
def TEST.KEY_DIGEST.DATA : Field := fld 0x28 13 0 32 .rw .s 0

/-- The block-specific fields of page IDENT. -/
def fieldsOfIdent : List Field :=
  [IDENT.PART.PART_NO, IDENT.PART.FAMILY, IDENT.STEPPING.STEP, IDENT.CAP0.CAP, IDENT.CAP1.CAP, IDENT.SERIAL_0.SN_LO] ++
  [IDENT.SERIAL_1.SN_MID, IDENT.SERIAL_2.SN_HI, IDENT.CHANNELS.CH_PRESENT, IDENT.CHANNELS.CH_POPULATED] ++
  (rangeFrom 0 8).map (fun k => IDENT.DIE_PRESENT.CH_EVEN.plus (k)) ++
  (rangeFrom 0 8).map (fun k => IDENT.DIE_PRESENT.CH_ODD.plus (k))

/-- The block-specific fields of page LINK. -/
def fieldsOfLink : List Field :=
  [LINK.STATE.STATE, LINK.STATE.MODE, LINK.STATE.DOWN_W, LINK.STATE.UP_W, LINK.STATE.LOCK, LINK.STATE.READY] ++
  [LINK.RETRY.LINK_RETRY_MAX, LINK.ORDER_SEQ.LAST, LINK.LINKUPS.SWITCHES, LINK.LINKUPS.TRAININGS, LINK.ID_ERRORS.CRC_ERR, LINK.ID_ERRORS.DROPPED]

/-- The block-specific fields of page LINKERR. -/
def fieldsOfLinkerr : List Field :=
  [LINKERR.RX_BAD.COUNT, LINKERR.NAK_SENT.COUNT, LINKERR.REPLAYS.COUNT, LINKERR.DUP_DROPPED.COUNT, LINKERR.STRAY.COUNT, LINKERR.LOSSES.BUDGET] ++
  [LINKERR.LOSSES.RESTART, LINKERR.ABORTED_LINK.COUNT, LINKERR.DEFERRED.COUNT, LINKERR.CREDIT.CMD_LIMIT, LINKERR.WINDOW.TX_UNACKED, LINKERR.WINDOW.RX_EXPECTED]

/-- The block-specific fields of page SHELF. -/
def fieldsOfShelf : List Field :=
  [SHELF.ADDR.CARD_ADDR, SHELF.ADDR.ASSIGNED, SHELF.COUNTS.ASSIGNS, SHELF.COUNTS.BCAST_SKIPPED, SHELF.SLEEP_CFG.SLEEP_EN, SHELF.SLEEP_CFG.VETO_LOG2] ++
  [SHELF.SLEEP_STAT.STATE, SHELF.SLEEP_STAT.ROUND, SHELF.VETO.LAST_REASON, SHELF.VETO.VETOES, SHELF.ORIG_SEL.ORIG, SHELF.ORIG_EPOCH.EPOCH] ++
  [SHELF.ORIG_FLAGS.HELLO_SEEN, SHELF.ORIG_FLAGS.IS_ADMIN, SHELF.ORIG_FLAGS.BOUND_SLICE, SHELF.ORIG_FLAGS.BOUND, SHELF.ORIG_FLAGS.LOCKS_HELD]

/-- The block-specific fields of page CLOCK. -/
def fieldsOfClock : List Field :=
  [CLOCK.DECL_FAST.DECL_KHZ, CLOCK.PROGRESS_CFG.INTERVAL_LOG2, CLOCK.HC_COUNT_0.HC_LO, CLOCK.HC_COUNT_1.HC_HI, CLOCK.INFLIGHT.COUNT, CLOCK.STILL_ENTRIES.COUNT]

/-- The block-specific fields of page SLICETAB. -/
def fieldsOfSlicetab : List Field :=
  [SLICETAB.USABLE_LO.USABLE, SLICETAB.USABLE_HI.USABLE, SLICETAB.ALLOC_LO.ALLOC, SLICETAB.ALLOC_HI.ALLOC, SLICETAB.EXIST_0.EXIST, SLICETAB.EXIST_1.EXIST] ++
  [SLICETAB.ADMIN.ADMIN_ORIG, SLICETAB.PIN.PIN_USED, SLICETAB.PIN_BUDGET.BUDGET]

/-- The block-specific fields of page SLICE. -/
def fieldsOfSlice : List Field :=
  [SLICE.STATE.STATE, SLICE.STATE.BOUND, SLICE.STATE.KEY_SET, SLICE.STATE.ENC, SLICE.STATE.OWNER, SLICE.CAPACITY_LO.CAP] ++
  [SLICE.CAPACITY_HI.CAP, SLICE.QOS.CLASS, SLICE.QOS.WEIGHT, SLICE.QOS.DIE_CAP, SLICE.LOCK.LOCKED, SLICE.LOCK.HOLDER_ORIG] ++
  [SLICE.LOCK_EPOCH.HOLDER_EPOCH, SLICE.LEASE_LEFT.HC, SLICE.MAP.PIN, SLICE.MAP.PIN_STATE, SLICE.AUTH.FAILS, SLICE.AUTH.BLOCKED] ++
  [SLICE.AUTH.CLEAR] ++
  (rangeFrom 0 8).map (fun k => SLICE.BIND_KEY.KEY.plus (k)) ++
  [SLICE.COUNTS.RESETS, SLICE.COUNTS.LOCK_REFUSED]

/-- The block-specific fields of page QUEUE. -/
def fieldsOfQueue : List Field :=
  [QUEUE.LEVELS.SQ_LEVEL, QUEUE.LEVELS.EXEC, QUEUE.LEVELS.AQ_LEVEL, QUEUE.LEVELS.AQ_COMPL, QUEUE.DEPTH.SQ_DEPTH, QUEUE.WM_CFG.SQ_WM] ++
  [QUEUE.WM_CFG.AQ_WM, QUEUE.WM_STAT.SQ_COUNT, QUEUE.WM_STAT.AQ_COUNT, QUEUE.WM_STAT.SQ_LEVEL, QUEUE.WM_STAT.AQ_LEVEL, QUEUE.HWM.SQ_HWM] ++
  [QUEUE.HWM.AQ_HWM, QUEUE.HWM.HWM_CLR, QUEUE.LOST.ATTN_LOST, QUEUE.LOST.LOST_COUNT]

/-- The block-specific fields of page DMA. -/
def fieldsOfDma : List Field :=
  [DMA.STAGE_CFG.SLICE_MAX, DMA.STAGE.RESERVED, DMA.STAGE.WAITING, DMA.DESC.IN_USE, DMA.DESC.PARKED, DMA.CARD_LEVELS.SQ_LEVEL] ++
  [DMA.CARD_LEVELS.EXEC, DMA.CARD_LEVELS.AQ_LEVEL, DMA.CARD_LEVELS.AQ_COMPL, DMA.CARD_WM_CFG.CARD_SQ_WM, DMA.CARD_WM_CFG.CARD_AQ_WM, DMA.CARD_WM_STAT.SQ_COUNT] ++
  [DMA.CARD_WM_STAT.AQ_COUNT, DMA.CARD_WM_STAT.SQ_LEVEL, DMA.CARD_WM_STAT.AQ_LEVEL, DMA.CARD_WM_STAT.ATTN_LOST, DMA.CARD_LOST.LOST_COUNT, DMA.MAP_FAULTS.COUNT] ++
  [DMA.WRAP_ERRORS.COUNT, DMA.STAGE_WAITS.COUNT, DMA.DESC_SEL.INDEX, DMA.DESC_VIEW_0.STATE, DMA.DESC_VIEW_0.OPCODE, DMA.DESC_VIEW_0.RING] ++
  [DMA.DESC_VIEW_0.ORIG, DMA.DESC_VIEW_1.TAG, DMA.DESC_VIEW_1.OFFSET, DMA.DESC_VIEW_2.NEXT, DMA.DESC_VIEW_2.COUNT]

/-- The block-specific fields of page ARB. -/
def fieldsOfArb : List Field :=
  [ARB.MODE.PREEMPT_EN, ARB.MODE.QUANTUM_LOG2, ARB.URGENT.URGENT_CAP, ARB.BULK.BULK_MIN_SHARE, ARB.ENGINE_W.REST_W, ARB.ENGINE_W.VERIFY_W] ++
  [ARB.ENGINE_W.MAP_W, ARB.ENGINE_W.REFRESH_W, ARB.CNT_SEL.GROUP, ARB.CNT_SEL.CHAN, ARB.DIE_SEL.CHAN, ARB.DIE_SEL.TARGET] ++
  [ARB.DIE_VIEW.HOLDER, ARB.DIE_VIEW.HOLDER_CLASS, ARB.DIE_VIEW.SUSPENDED, ARB.DIE_VIEW.SUSP_REQ, ARB.DIE_VIEW.U, ARB.DIE_VIEW.CAP_EFF] ++
  [ARB.DIE_VIEW.U_WAITING]

/-- The block-specific fields of page ARBCNT. -/
def fieldsOfArbcnt : List Field :=
  (rangeFrom 0 8).map (fun k => ARBCNT.GRANTS.COUNT.plus (3 * k)) ++
  (rangeFrom 0 8).map (fun k => ARBCNT.WAITS.COUNT.plus (3 * k)) ++
  (rangeFrom 0 8).map (fun k => ARBCNT.LONGEST_WAIT.CCLK.plus (3 * k))

/-- The block-specific fields of page WATCHDOG. -/
def fieldsOfWatchdog : List Field :=
  [WATCHDOG.GRANT_WD.CCLK, WATCHDOG.WD_BITES.BITES, WATCHDOG.WD_BITES.STUCK, WATCHDOG.WD_LAST_REQ.REQ, WATCHDOG.WD_LAST_REQ.VALID, WATCHDOG.WD_LAST_REQ.CHAN] ++
  [WATCHDOG.WD_LAST_REQ.TARGET, WATCHDOG.WD_LAST_REQ.ACTIVITY, WATCHDOG.WD_FLOOR.CCLK]

/-- The block-specific fields of page FTL. -/
def fieldsOfFtl : List Field :=
  [FTL.MAP_PAGES.RESIDENT, FTL.MAP_PAGES.PINNED, FTL.MAP_DIRTY.DIRTY, FTL.MAP_DIRTY.DIRTY_MAX, FTL.MAP_HITS.COUNT, FTL.MAP_MISSES.COUNT] ++
  [FTL.MAP_WRITEBACKS.COUNT, FTL.MAP_LOST.COUNT, FTL.HOST_SECT_LO.COUNT, FTL.HOST_SECT_HI.COUNT, FTL.NAND_SECT_LO.COUNT, FTL.NAND_SECT_HI.COUNT] ++
  [FTL.CKPT.DUE, FTL.CKPT.URGENT_CARRIED]

/-- The block-specific fields of page UPKEEP. -/
def fieldsOfUpkeep : List Field :=
  [UPKEEP.DEBT_LO.DEBT, UPKEEP.DEBT_HI.DEBT, UPKEEP.DEBT_GC.STEPS, UPKEEP.DEBT_VERIFY.STEPS, UPKEEP.DEBT_REFRESH.STEPS, UPKEEP.DEBT_SOFT.STEPS] ++
  [UPKEEP.DEBT_HARD.STEPS, UPKEEP.FREE.FREE_BLOCKS, UPKEEP.FREE_TARGET.BLOCKS, UPKEEP.RESERVE.BLOCKS, UPKEEP.STATE.FORCING, UPKEEP.STATE.STARVED] ++
  [UPKEEP.STATE.PATROL_ACTIVE, UPKEEP.STATE.PATROL_START, UPKEEP.FORCED_COUNT.COUNT, UPKEEP.FORCED_STEPS.COUNT, UPKEEP.ERASES.COUNT, UPKEEP.RELOCATIONS.COUNT] ++
  [UPKEEP.VERIFY_READS.COUNT, UPKEEP.STARVE.ENTRIES]

/-- The block-specific fields of page PROOF. -/
def fieldsOfProof : List Field :=
  [PROOF.SUPERBLOCKS.OPEN, PROOF.SUPERBLOCKS.PENDING, PROOF.STRIPES.OPEN_STRIPES, PROOF.STRIPES.CACHED, PROOF.PARITY_CAP.PAGES, PROOF.PARITY_LIVE.PAGES] ++
  [PROOF.PARITY_FREE.PAGES, PROOF.LAYOUT.MEMBERS, PROOF.PARITY_PROGRAMS.COUNT, PROOF.COPY_FORWARDS.COUNT, PROOF.REBUILDS.COUNT, PROOF.VERIFY_FAILS.COUNT] ++
  [PROOF.FORCED_RELEASES.COUNT, PROOF.RELEASES.COUNT]

/-- The block-specific fields of page WEAR. -/
def fieldsOfWear : List Field :=
  [WEAR.LIFE.LIFE, WEAR.LIFE.LIMIT_CHAN, WEAR.LIFE.LIMIT_KIND, WEAR.RO_REASON.SPARES, WEAR.RO_REASON.PE, WEAR.RO_REASON.NO_PARITY_DIE] ++
  [WEAR.RO_REASON.WEAR_LOST, WEAR.RO_REASON.STARVED] ++
  (rangeFrom 0 8).map (fun k => WEAR.SPARES.CH_EVEN.plus (k)) ++
  (rangeFrom 0 8).map (fun k => WEAR.SPARES.CH_ODD.plus (k)) ++
  [WEAR.RETIRED_TOTAL.BLOCKS, WEAR.REFRESH.THRESHOLD, WEAR.REFRESH.HALVINGS, WEAR.REFRESHES.COUNT, WEAR.WL_CFG.WL_SPREAD, WEAR.CHAN_SEL.CHAN] ++
  [WEAR.CH_SPARE.INITIAL, WEAR.CH_SPARE.RETIRED, WEAR.CH_DATA.MEAN, WEAR.CH_DATA.MAX, WEAR.CH_SLC.MEAN, WEAR.CH_SLC.MAX] ++
  [WEAR.CH_LIFE.LIFE]

/-- The block-specific fields of page CH. -/
def fieldsOfCh : List Field :=
  [CH.CONFIG.POPULATED, CH.CONFIG.PROFILE, CH.CONFIG.VOLUME, CH.CONFIG.IFACE, CH.CONFIG.DIES, CH.CONFIG.LUNS] ++
  [CH.RATE.RATE_MT, CH.RATE.K, CH.RATE.SDR, CH.RATE.RECONF_PENDING, CH.RATE.MODE, CH.TIMING_A.ADL] ++
  [CH.TIMING_A.CCS, CH.TIMING_B.WHR, CH.TIMING_B.RHW, CH.TIMING_C.CS, CH.DIES.PRESENT, CH.DIES.FAILED] ++
  [CH.MC.MC_IF, CH.MC.ROM_SEQ, CH.SUSP_HOLD.MS, CH.ARRAY_READS.COUNT, CH.PROGRAMS.COUNT, CH.ERASES.COUNT] ++
  [CH.PROG_FAILS.COUNT, CH.ERASE_FAILS.COUNT, CH.SUSPENDS.COUNT, CH.COUNTS.RECONFIGS, CH.COUNTS.TRAIN_FAILS]

/-- The block-specific fields of page ECC. -/
def fieldsOfEcc : List Field :=
  [ECC.CAPS.HARD, ECC.CAPS.SOFT, ECC.CAPS.CW_BYTES, ECC.CFG.URGENT_SOFT, ECC.HARD_OK.COUNT, ECC.SOFT_OK.COUNT] ++
  [ECC.FAILED.COUNT, ECC.TAG_FAIL.COUNT, ECC.ERASED.COUNT, ECC.MAX_BITS.BITS, ECC.SOFT_STATE.BUSY, ECC.SOFT_STATE.QUEUED]

/-- The block-specific fields of page REMOVAL. -/
def fieldsOfRemoval : List Field :=
  [REMOVAL.LAST_PHASE.SOURCE, REMOVAL.LAST_PHASE.RB_TIMEOUT, REMOVAL.LAST_PHASE.WRITES, REMOVAL.LAST_PHASE.PROGRAMS, REMOVAL.LAST_PHASE.CH_RESET, REMOVAL.CRUST.LAST_VALID] ++
  [REMOVAL.CRUST.LAST_COMPLETE, REMOVAL.CRUST.CRUST_LOST, REMOVAL.REMOVALS_0.COUNT_LO, REMOVAL.REMOVALS_1.COUNT_HI, REMOVAL.SOURCES.DET_N, REMOVAL.SOURCES.BROWNOUT] ++
  [REMOVAL.SOURCES.INCOMPLETE, REMOVAL.SOURCES.RB_TIMEOUTS, REMOVAL.HOLD.VHOLD_OK, REMOVAL.HOLD.PUMP_ACTIVE, REMOVAL.TORN_MARKED.COUNT, REMOVAL.SCAN.SET]

/-- The block-specific fields of page RESET. -/
def fieldsOfReset : List Field :=
  [RESET.CAUSE.LEVEL, RESET.CAUSE.SOURCE, RESET.PREV_CAUSE.LEVEL, RESET.PREV_CAUSE.SOURCE, RESET.MODE.OPEN, RESET.RESETS_0.COUNT_LO] ++
  [RESET.RESETS_1.COUNT_HI, RESET.SRC_A.POWER_ON, RESET.SRC_A.REMOVAL_RESTART, RESET.SRC_B.RST_N, RESET.SRC_B.LINK_SYSTEM, RESET.SRC_C.LINK_CORE] ++
  [RESET.SRC_C.FW_CORE, RESET.DRAIN.CCLK]

/-- The block-specific fields of page OPTION. -/
def fieldsOfOption : List Field :=
  [OPTION.IN_FORCE.COPY, OPTION.IN_FORCE.DEFAULTS, OPTION.IN_FORCE.ADMIN_ORIG, OPTION.IN_FORCE.MODE, OPTION.SEQ_IN_FORCE.SEQ, OPTION.OTHER.VALID] ++
  [OPTION.STAGE_SEL.BLOCK, OPTION.COMMIT.GO, OPTION.COMMIT.BUSY, OPTION.COMMIT.RESULT, OPTION.STAGE.LOAD] ++
  (rangeFrom 0 16).map (fun k => OPTION.STAGE_WORD.DATA.plus (k))

/-- The block-specific fields of page ESCALATE. -/
def fieldsOfEscalate : List Field :=
  [ESCALATE.FAULT_GRACE.CCLK, ESCALATE.STATE.PENDING, ESCALATE.STATE.SAFE, ESCALATE.GRACE_LEFT.CCLK, ESCALATE.SAFE_CAUSE.KIND, ESCALATE.SAFE_CAUSE.PAGE] ++
  [ESCALATE.SAFE_CAUSE.BANK, ESCALATE.SAFE_CAUSE.BIT, ESCALATE.ALERT_STATE.LATCH, ESCALATE.ALERT_STATE.PAD_P, ESCALATE.ALERT_STATE.PAD_N, ESCALATE.ALERT_STATE.FAULTS_ONLY] ++
  [ESCALATE.ALERT_CAUSE.PRESENT, ESCALATE.ALERT_CAUSE.ASSERTING, ESCALATE.ALERT_MASK.FAULT_CAUSES, ESCALATE.ALERT_MASK.MASK, ESCALATE.ALERT_CTRL.FORCE, ESCALATE.PEND_MAP_0.PAGES] ++
  [ESCALATE.PEND_MAP_1.PAGES, ESCALATE.PEND_BANKS_0.BANKS, ESCALATE.PEND_BANKS_1.BANKS]

/-- The block-specific fields of page FIRMWARE. -/
def fieldsOfFirmware : List Field :=
  [FIRMWARE.STATE.FW_STATE, FIRMWARE.STATE.SAFE_IF, FIRMWARE.STATE.SHADOW_READY, FIRMWARE.STATE.RUN_MAIN, FIRMWARE.STATE.RUN_MC, FIRMWARE.STATE.FALLBACK] ++
  [FIRMWARE.SLOTS.MAIN_A, FIRMWARE.SLOTS.MAIN_B, FIRMWARE.SLOTS.MC_A, FIRMWARE.SLOTS.MC_B, FIRMWARE.REJECT.REASON, FIRMWARE.REJECT.SLOT] ++
  [FIRMWARE.REJECT.COUNT, FIRMWARE.MAIN_VERSION.VERSION, FIRMWARE.MC_VERSION.VERSION, FIRMWARE.IFACE.MC_IF_EXPECT, FIRMWARE.IFACE.MC_IF, FIRMWARE.SETTINGS.FMT_IN_FORCE] ++
  [FIRMWARE.SETTINGS.SHADOW_FMT, FIRMWARE.SETTINGS_SEQ.SEQ, FIRMWARE.KEYS.PROGRAMMED, FIRMWARE.KEYS.REVOKED, FIRMWARE.KEYS.RUN_KEY]

/-- The block-specific fields of page POWER. -/
def fieldsOfPower : List Field :=
  [POWER.TEMP.TEMP, POWER.TEMP.VALID, POWER.TEMP.ALARM, POWER.TEMP_CFG.INTERVAL_LOG2, POWER.TEMP_CFG.HYST, POWER.TEMP_CFG.ALARM_HI] ++
  [POWER.DIE_BUDGET.NORMAL, POWER.DIE_BUDGET.ALARM, POWER.BUDGET_STAT.IN_USE, POWER.BUDGET_STAT.LIMIT, POWER.TEMP_RANGE.MIN, POWER.TEMP_RANGE.MAX] ++
  [POWER.TEMP_RANGE.CLR, POWER.WAKE.CAUSES, POWER.WAKE.FIRST_CAUSE, POWER.WAKE.PENDING, POWER.SLEEP_COUNTS.ENTRIES, POWER.SLEEP_COUNTS.HOST_WAKES] ++
  [POWER.SLEEP_CTRL.WAKE_FORCE]

/-- The block-specific fields of page DEBUG. -/
def fieldsOfDebug : List Field :=
  [DEBUG.PREV_SAFE.CAUSE, DEBUG.COUNTS.SAFE_ENTRIES, DEBUG.COUNTS.AVERTED] ++
  (rangeFrom 0 8).map (fun k => DEBUG.SCRATCH.DATA.plus (k))

/-- The block-specific fields of page TEST. -/
def fieldsOfTest : List Field :=
  [TEST.INJECT.PAGE, TEST.INJECT.BANK, TEST.INJECT.BIT, TEST.INJECT.GO, TEST.TEST_STATE.FTM, TEST.TEST_STATE.SEALED] ++
  [TEST.TEST_STATE.TEST_EN, TEST.TEST_STATE.WD_STOPPED, TEST.WD_CTRL.STOP, TEST.FUSE_PROG.ENTRY, TEST.FUSE_PROG.CODE, TEST.FUSE_PROG.SEAL] ++
  [TEST.FUSE_PROG.GO, TEST.FUSE_PROG.BUSY, TEST.FUSE_PROG.RESULT, TEST.FUSE_PROG.CONFIRM, TEST.KEY_PROG.SLOT, TEST.KEY_PROG.REVOKE] ++
  [TEST.KEY_PROG.GO, TEST.KEY_PROG.BUSY, TEST.KEY_PROG.RESULT, TEST.KEY_PROG.CONFIRM] ++
  (rangeFrom 0 8).map (fun k => TEST.KEY_DIGEST.DATA.plus (k))

/-- The block-specific fields of a page (R64); channel pages share one layout. -/
def blockFields (page : Nat) : List Field :=
  if page = 0x00 then fieldsOfIdent
  else if page = 0x01 then fieldsOfLink
  else if page = 0x02 then fieldsOfLinkerr
  else if page = 0x03 then fieldsOfShelf
  else if page = 0x04 then fieldsOfClock
  else if page = 0x05 then fieldsOfSlicetab
  else if page = 0x06 then fieldsOfSlice
  else if page = 0x07 then fieldsOfQueue
  else if page = 0x08 then fieldsOfDma
  else if page = 0x09 then fieldsOfArb
  else if page = 0x0a then fieldsOfArbcnt
  else if page = 0x0b then fieldsOfWatchdog
  else if page = 0x0c then fieldsOfFtl
  else if page = 0x0d then fieldsOfUpkeep
  else if page = 0x0e then fieldsOfProof
  else if page = 0x0f then fieldsOfWear
  else if 0x10 ≤ page ∧ page ≤ 0x1f then fieldsOfCh.map (fun f => f.ofChannel (page - 0x10))
  else if page = 0x20 then fieldsOfEcc
  else if page = 0x21 then fieldsOfRemoval
  else if page = 0x22 then fieldsOfReset
  else if page = 0x23 then fieldsOfOption
  else if page = 0x24 then fieldsOfEscalate
  else if page = 0x25 then fieldsOfFirmware
  else if page = 0x26 then fieldsOfPower
  else if page = 0x27 then fieldsOfDebug
  else if page = 0x28 then fieldsOfTest
  else []

/-- Assigned fault source bits of a page (Table 15-1). -/
def faultMask (page : Nat) : Nat :=
  if page = 0x01 then 3
  else if page = 0x02 then 1
  else if page = 0x03 then 1
  else if page = 0x04 then 1
  else if page = 0x05 then 1
  else if page = 0x06 then 1
  else if page = 0x07 then 1
  else if page = 0x08 then 3
  else if page = 0x09 then 1
  else if page = 0x0a then 1
  else if page = 0x0b then 3
  else if page = 0x0c then 3
  else if page = 0x0d then 1
  else if page = 0x0e then 3
  else if page = 0x0f then 3
  else if 0x10 ≤ page ∧ page ≤ 0x1f then 0xf
  else if page = 0x20 then 3
  else if page = 0x21 then 7
  else if page = 0x22 then 1
  else if page = 0x23 then 7
  else if page = 0x24 then 3
  else if page = 0x25 then 1
  else if page = 0x26 then 3
  else if page = 0x27 then 1
  else 0

/-- Reset value of FAULT_ENABLE (R44, per page). -/
def faultEnableReset (page : Nat) : Nat :=
  if page = 0x01 then 3
  else if page = 0x02 then 1
  else if page = 0x03 then 1
  else if page = 0x04 then 1
  else if page = 0x05 then 1
  else if page = 0x06 then 1
  else if page = 0x07 then 1
  else if page = 0x08 then 3
  else if page = 0x09 then 1
  else if page = 0x0a then 1
  else if page = 0x0b then 3
  else if page = 0x0c then 3
  else if page = 0x0d then 1
  else if page = 0x0e then 3
  else if page = 0x0f then 3
  else if 0x10 ≤ page ∧ page ≤ 0x1f then 0xf
  else if page = 0x20 then 3
  else if page = 0x21 then 7
  else if page = 0x22 then 1
  else if page = 0x23 then 7
  else if page = 0x24 then 3
  else if page = 0x25 then 1
  else if page = 0x26 then 3
  else if page = 0x27 then 1
  else 0

/-- Reset value of FAULT_ACTION (Table 15-1, default action). -/
def faultActionReset (page : Nat) : Nat :=
  if page = 0x01 then 0xd
  else if page = 0x02 then 3
  else if page = 0x03 then 2
  else if page = 0x04 then 3
  else if page = 0x05 then 3
  else if page = 0x06 then 2
  else if page = 0x07 then 2
  else if page = 0x08 then 7
  else if page = 0x09 then 3
  else if page = 0x0a then 1
  else if page = 0x0b then 5
  else if page = 0x0c then 5
  else if page = 0x0d then 2
  else if page = 0x0e then 5
  else if page = 0x0f then 5
  else if 0x10 ≤ page ∧ page ≤ 0x1f then 0x65
  else if page = 0x20 then 6
  else if page = 0x21 then 0x15
  else if page = 0x22 then 1
  else if page = 0x23 then 0x15
  else if page = 0x24 then 7
  else if page = 0x25 then 1
  else if page = 0x26 then 5
  else if page = 0x27 then 1
  else 0

/-- Assigned attention event bits of a page. -/
def attnMask (page : Nat) : Nat :=
  if page = 0x01 then 7
  else if page = 0x02 then 1
  else if page = 0x03 then 0xf
  else if page = 0x04 then 1
  else if page = 0x05 then 7
  else if page = 0x06 then 0xff
  else if page = 0x07 then 3
  else if page = 0x08 then 3
  else if page = 0x0a then 1
  else if page = 0x0c then 1
  else if page = 0x0d then 0xf
  else if page = 0x0e then 7
  else if page = 0x0f then 7
  else if 0x10 ≤ page ∧ page ≤ 0x1f then 3
  else if page = 0x20 then 1
  else if page = 0x21 then 7
  else if page = 0x22 then 3
  else if page = 0x23 then 1
  else if page = 0x24 then 3
  else if page = 0x25 then 0xf
  else if page = 0x26 then 3
  else 0

/-- Reset value of ATTN_ENABLE (per page). -/
def attnEnableReset (page : Nat) : Nat :=
  if page = 0x06 then 3
  else if page = 0x0f then 7
  else if page = 0x24 then 3
  else if page = 0x25 then 0xf
  else 0

end Sys2Proof.Reg

namespace Sys2Proof.Src

/-! Fault sources by page and bit (Table 15-1). -/
/-- LINK SWITCH_TIMEOUT: page and bit. -/
def LINK.SWITCH_TIMEOUT : Nat × Nat := (0x01, 0)
/-- LINK PAD_MODE: page and bit. -/
def LINK.PAD_MODE : Nat × Nat := (0x01, 1)
/-- LINKERR REPLAY_BUF: page and bit. -/
def LINKERR.REPLAY_BUF : Nat × Nat := (0x02, 0)
/-- SHELF ORIG_TABLE: page and bit. -/
def SHELF.ORIG_TABLE : Nat × Nat := (0x03, 0)
/-- CLOCK DIV_STATE: page and bit. -/
def CLOCK.DIV_STATE : Nat × Nat := (0x04, 0)
/-- SLICETAB TABLE_ECC: page and bit. -/
def SLICETAB.TABLE_ECC : Nat × Nat := (0x05, 0)
/-- SLICE CONTEXT_ECC: page and bit. -/
def SLICE.CONTEXT_ECC : Nat × Nat := (0x06, 0)
/-- QUEUE RING_ECC: page and bit. -/
def QUEUE.RING_ECC : Nat × Nat := (0x07, 0)
/-- DMA STAGE_ECC: page and bit. -/
def DMA.STAGE_ECC : Nat × Nat := (0x08, 0)
/-- DMA UPBUF_ECC: page and bit. -/
def DMA.UPBUF_ECC : Nat × Nat := (0x08, 1)
/-- ARB ARB_STATE: page and bit. -/
def ARB.ARB_STATE : Nat × Nat := (0x09, 0)
/-- ARBCNT CNT_ECC: page and bit. -/
def ARBCNT.CNT_ECC : Nat × Nat := (0x0a, 0)
/-- WATCHDOG BITE: page and bit. -/
def WATCHDOG.BITE : Nat × Nat := (0x0b, 0)
/-- WATCHDOG DIE_STUCK: page and bit. -/
def WATCHDOG.DIE_STUCK : Nat × Nat := (0x0b, 1)
/-- FTL MAP_ECC: page and bit. -/
def FTL.MAP_ECC : Nat × Nat := (0x0c, 0)
/-- FTL MAP_PAGE_LOST: page and bit. -/
def FTL.MAP_PAGE_LOST : Nat × Nat := (0x0c, 1)
/-- UPKEEP ENGINE_STATE: page and bit. -/
def UPKEEP.ENGINE_STATE : Nat × Nat := (0x0d, 0)
/-- PROOF PARITY_BUF_ECC: page and bit. -/
def PROOF.PARITY_BUF_ECC : Nat × Nat := (0x0e, 0)
/-- PROOF REBUILD_FAIL: page and bit. -/
def PROOF.REBUILD_FAIL : Nat × Nat := (0x0e, 1)
/-- WEAR RECORD_COPY: page and bit. -/
def WEAR.RECORD_COPY : Nat × Nat := (0x0f, 0)
/-- WEAR RECORD_LOST: page and bit. -/
def WEAR.RECORD_LOST : Nat × Nat := (0x0f, 1)
/-- CH ID_FAIL: page and bit. -/
def CH.ID_FAIL : Nat × Nat := (0x10, 0)
/-- CH CAL_FAIL: page and bit. -/
def CH.CAL_FAIL : Nat × Nat := (0x10, 1)
/-- CH SEQ_ECC: page and bit. -/
def CH.SEQ_ECC : Nat × Nat := (0x10, 2)
/-- CH DIE_FAILED: page and bit. -/
def CH.DIE_FAILED : Nat × Nat := (0x10, 3)
/-- ECC DEC_MEM: page and bit. -/
def ECC.DEC_MEM : Nat × Nat := (0x20, 0)
/-- ECC TAG_MISMATCH: page and bit. -/
def ECC.TAG_MISMATCH : Nat × Nat := (0x20, 1)
/-- REMOVAL INCOMPLETE: page and bit. -/
def REMOVAL.INCOMPLETE : Nat × Nat := (0x21, 0)
/-- REMOVAL RB_TIMEOUT: page and bit. -/
def REMOVAL.RB_TIMEOUT : Nat × Nat := (0x21, 1)
/-- REMOVAL HOLD_DROOP: page and bit. -/
def REMOVAL.HOLD_DROOP : Nat × Nat := (0x21, 2)
/-- RESET CRUST_CHECK: page and bit. -/
def RESET.CRUST_CHECK : Nat × Nat := (0x22, 0)
/-- OPTION COPY_BAD: page and bit. -/
def OPTION.COPY_BAD : Nat × Nat := (0x23, 0)
/-- OPTION STORE_LOST: page and bit. -/
def OPTION.STORE_LOST : Nat × Nat := (0x23, 1)
/-- OPTION FUSE_CODE: page and bit. -/
def OPTION.FUSE_CODE : Nat × Nat := (0x23, 2)
/-- ESCALATE ESC_STATE: page and bit. -/
def ESCALATE.ESC_STATE : Nat × Nat := (0x24, 0)
/-- ESCALATE ALERT_READBACK: page and bit. -/
def ESCALATE.ALERT_READBACK : Nat × Nat := (0x24, 1)
/-- FIRMWARE SYS_COPY: page and bit. -/
def FIRMWARE.SYS_COPY : Nat × Nat := (0x25, 0)
/-- POWER SENSOR: page and bit. -/
def POWER.SENSOR : Nat × Nat := (0x26, 0)
/-- POWER SLEEP_RECORD: page and bit. -/
def POWER.SLEEP_RECORD : Nat × Nat := (0x26, 1)
/-- DEBUG SCRATCH_PARITY: page and bit. -/
def DEBUG.SCRATCH_PARITY : Nat × Nat := (0x27, 0)

end Sys2Proof.Src

namespace Sys2Proof.Evt

/-! Attention events by page and bit. -/
/-- LINK LINK_UP: page and bit. -/
def LINK.LINK_UP : Nat × Nat := (0x01, 0)
/-- LINK LINK_LOST: page and bit. -/
def LINK.LINK_LOST : Nat × Nat := (0x01, 1)
/-- LINK RETURNED_ID: page and bit. -/
def LINK.RETURNED_ID : Nat × Nat := (0x01, 2)
/-- LINKERR SATURATED: page and bit. -/
def LINKERR.SATURATED : Nat × Nat := (0x02, 0)
/-- SHELF ASSIGNED: page and bit. -/
def SHELF.ASSIGNED : Nat × Nat := (0x03, 0)
/-- SHELF VETO_SENT: page and bit. -/
def SHELF.VETO_SENT : Nat × Nat := (0x03, 1)
/-- SHELF EPOCH_ADVANCED: page and bit. -/
def SHELF.EPOCH_ADVANCED : Nat × Nat := (0x03, 2)
/-- SHELF STALE_EPOCH: page and bit. -/
def SHELF.STALE_EPOCH : Nat × Nat := (0x03, 3)
/-- CLOCK DECL_CHANGED: page and bit. -/
def CLOCK.DECL_CHANGED : Nat × Nat := (0x04, 0)
/-- SLICETAB SLICE_CREATED: page and bit. -/
def SLICETAB.SLICE_CREATED : Nat × Nat := (0x05, 0)
/-- SLICETAB SLICE_DESTROYED: page and bit. -/
def SLICETAB.SLICE_DESTROYED : Nat × Nat := (0x05, 1)
/-- SLICETAB AUTH_BLOCKED: page and bit. -/
def SLICETAB.AUTH_BLOCKED : Nat × Nat := (0x05, 2)
/-- SLICE LOCK_BROKEN: page and bit. -/
def SLICE.LOCK_BROKEN : Nat × Nat := (0x06, 0)
/-- SLICE LEASE_EXPIRED: page and bit. -/
def SLICE.LEASE_EXPIRED : Nat × Nat := (0x06, 1)
/-- SLICE RESET_DONE: page and bit. -/
def SLICE.RESET_DONE : Nat × Nat := (0x06, 2)
/-- SLICE BOUND: page and bit. -/
def SLICE.BOUND : Nat × Nat := (0x06, 3)
/-- SLICE UNBOUND: page and bit. -/
def SLICE.UNBOUND : Nat × Nat := (0x06, 4)
/-- SLICE CONFIG_CHANGED: page and bit. -/
def SLICE.CONFIG_CHANGED : Nat × Nat := (0x06, 5)
/-- SLICE AUTH_FAILED: page and bit. -/
def SLICE.AUTH_FAILED : Nat × Nat := (0x06, 6)
/-- SLICE PIN_READY: page and bit. -/
def SLICE.PIN_READY : Nat × Nat := (0x06, 7)
/-- QUEUE WM_CROSS_SQ: page and bit. -/
def QUEUE.WM_CROSS_SQ : Nat × Nat := (0x07, 0)
/-- QUEUE WM_CROSS_AQ: page and bit. -/
def QUEUE.WM_CROSS_AQ : Nat × Nat := (0x07, 1)
/-- DMA WM_CROSS_CSQ: page and bit. -/
def DMA.WM_CROSS_CSQ : Nat × Nat := (0x08, 0)
/-- DMA WM_CROSS_CAQ: page and bit. -/
def DMA.WM_CROSS_CAQ : Nat × Nat := (0x08, 1)
/-- ARBCNT SATURATED: page and bit. -/
def ARBCNT.SATURATED : Nat × Nat := (0x0a, 0)
/-- FTL SATURATED: page and bit. -/
def FTL.SATURATED : Nat × Nat := (0x0c, 0)
/-- UPKEEP SOFT_CROSSED: page and bit. -/
def UPKEEP.SOFT_CROSSED : Nat × Nat := (0x0d, 0)
/-- UPKEEP HARD_CROSSED: page and bit. -/
def UPKEEP.HARD_CROSSED : Nat × Nat := (0x0d, 1)
/-- UPKEEP STARVED: page and bit. -/
def UPKEEP.STARVED : Nat × Nat := (0x0d, 2)
/-- UPKEEP PATROL_DONE: page and bit. -/
def UPKEEP.PATROL_DONE : Nat × Nat := (0x0d, 3)
/-- PROOF VERIFY_FAIL: page and bit. -/
def PROOF.VERIFY_FAIL : Nat × Nat := (0x0e, 0)
/-- PROOF FORCED_RELEASE: page and bit. -/
def PROOF.FORCED_RELEASE : Nat × Nat := (0x0e, 1)
/-- PROOF REBUILT: page and bit. -/
def PROOF.REBUILT : Nat × Nat := (0x0e, 2)
/-- WEAR LIFE_DROPPED: page and bit. -/
def WEAR.LIFE_DROPPED : Nat × Nat := (0x0f, 0)
/-- WEAR RETIRED: page and bit. -/
def WEAR.RETIRED : Nat × Nat := (0x0f, 1)
/-- WEAR READ_ONLY: page and bit. -/
def WEAR.READ_ONLY : Nat × Nat := (0x0f, 2)
/-- CH RECONFIGURED: page and bit. -/
def CH.RECONFIGURED : Nat × Nat := (0x10, 0)
/-- CH RATE_LOWERED: page and bit. -/
def CH.RATE_LOWERED : Nat × Nat := (0x10, 1)
/-- ECC SATURATED: page and bit. -/
def ECC.SATURATED : Nat × Nat := (0x20, 0)
/-- REMOVAL REMOVAL_RECORDED: page and bit. -/
def REMOVAL.REMOVAL_RECORDED : Nat × Nat := (0x21, 0)
/-- REMOVAL TORN_SET: page and bit. -/
def REMOVAL.TORN_SET : Nat × Nat := (0x21, 1)
/-- REMOVAL CRUST_LOST: page and bit. -/
def REMOVAL.CRUST_LOST : Nat × Nat := (0x21, 2)
/-- RESET CARRY_COMPLETED: page and bit. -/
def RESET.CARRY_COMPLETED : Nat × Nat := (0x22, 0)
/-- RESET CORE_RESTARTED: page and bit. -/
def RESET.CORE_RESTARTED : Nat × Nat := (0x22, 1)
/-- OPTION COMMIT_DONE: page and bit. -/
def OPTION.COMMIT_DONE : Nat × Nat := (0x23, 0)
/-- ESCALATE PENDING_OPENED: page and bit. -/
def ESCALATE.PENDING_OPENED : Nat × Nat := (0x24, 0)
/-- ESCALATE PENDING_CLOSED: page and bit. -/
def ESCALATE.PENDING_CLOSED : Nat × Nat := (0x24, 1)
/-- FIRMWARE PROBATION_STARTED: page and bit. -/
def FIRMWARE.PROBATION_STARTED : Nat × Nat := (0x25, 0)
/-- FIRMWARE REJECTED: page and bit. -/
def FIRMWARE.REJECTED : Nat × Nat := (0x25, 1)
/-- FIRMWARE CONFIRMED: page and bit. -/
def FIRMWARE.CONFIRMED : Nat × Nat := (0x25, 2)
/-- FIRMWARE SAFE_INTERFACE: page and bit. -/
def FIRMWARE.SAFE_INTERFACE : Nat × Nat := (0x25, 3)
/-- POWER TEMP_ALARM: page and bit. -/
def POWER.TEMP_ALARM : Nat × Nat := (0x26, 0)
/-- POWER WOKE: page and bit. -/
def POWER.WOKE : Nat × Nat := (0x26, 1)

end Sys2Proof.Evt
end

