-- ==== Sys2Proof/Machine/Header.lean ====
section
/-!
DEFINITION. The common page header (R44, Table 3-1), the header classes (R48) and the bank of a page (R54).
-/
namespace Sys2Proof.Machine

/-- Is the page banked (R54)? -/
def banked (page : Nat) : Bool := page == 6 || page == 7

/-- The bank of a page's fields: the Slice on a banked page, 0 elsewhere. -/
def bankOf (page bank : Nat) : Nat := if banked page then bank else 0

/-- A header field; on the DEBUG page every S reads P (R44, R386). -/
def hdrField (page bank index lo width : Nat) (acc : Access) (reset mask : Nat) : Field :=
  { page := page, index := index, lo := lo, width := width, acc := acc,
    level := if page = 0x27 then .p else .s, reset := reset, mask := mask, live := false, bank := bankOf page bank }

/-- Two action bits for each assigned source. The bits of a source that the owning chapter does not assign are RSV, as the spec says
of its sticky and enable bits. DEDUCED: log entry 57. -/
def actionMask (page : Nat) : Nat := sumBy (fun i => if bitAt (Reg.faultMask page) i then 3 * 4 ^ i else 0) (rangeFrom 0 16)

def softRst (page bank : Nat) : Field := hdrField page bank 1 0 1 .w1s 0 1
def enableBit (page bank : Nat) : Field := hdrField page bank 1 1 1 .rw 1 1
def isolateBit (page bank : Nat) : Field := hdrField page bank 1 2 1 .rw 0 1
def busyBit (page bank : Nat) : Field := { hdrField page bank 2 0 1 .ro 0 1 with live := true }
def isolatedBit (page bank : Nat) : Field := hdrField page bank 2 1 1 .ro 0 1
def resetActive (page bank : Nat) : Field := hdrField page bank 2 2 1 .ro 0 1
def faultSticky (page bank : Nat) : Field :=
  hdrField page bank 3 0 32 .w1c 0 (Reg.faultMask page ||| 2 ^ 31)
def faultEnable (page bank : Nat) : Field :=
  hdrField page bank 4 0 32 .rw (Reg.faultEnableReset page) (Reg.faultMask page)
def faultAction (page bank : Nat) : Field :=
  hdrField page bank 5 0 32 .rw (Reg.faultActionReset page) (actionMask page)
def attnSticky (page bank : Nat) : Field := hdrField page bank 6 0 32 .w1c 0 (Reg.attnMask page)
def attnEnable (page bank : Nat) : Field :=
  hdrField page bank 7 0 32 .rw (Reg.attnEnableReset page) (Reg.attnMask page)

/-- BLOCK_TYPE (Table 3-6). -/
def blockType (page : Nat) : Nat :=
  if page < 0x10 then page + 1 else if page < 0x20 then 0x11 else page - 14

/-- The fields of the header at indices 1 to 7 (PAGE_ID is a constant of the page). -/
def headerFields (page bank : Nat) : List Field :=
  [softRst page bank, enableBit page bank, isolateBit page bank, busyBit page bank, isolatedBit page bank,
   resetActive page bank, faultSticky page bank, faultEnable page bank, faultAction page bank,
   attnSticky page bank, attnEnable page bank]

/-- Header classes (R48). -/
inductive PageClass where
  | engine | counters | tied
deriving DecidableEq, Repr

/-- The class of a page (Table 3-6). -/
def pageClass (page : Nat) : PageClass :=
  if page = 0x08 ∨ (0x0C ≤ page ∧ page ≤ 0x20) then .engine
  else if page = 0x02 ∨ page = 0x06 ∨ page = 0x0A ∨ page = 0x27 then .counters
  else .tied

/-- Every field of a page's bank at indices 1 to 31. -/
def pageFields (page bank : Nat) : List Field :=
  headerFields page bank ++ (Reg.blockFields page).map (fun f => f.inBank (bankOf page bank))

/-- The register index of a key. -/
def keyIndex (k : Nat) : Nat := k / 32 % 32

end Sys2Proof.Machine
end

