-- ==== Sys2Proof/Machine/TypesLink.lean ====
section
/-!
DEFINITION. The state of the link, of the commands In flight, of the rings and of the Slices: what chapters 2 and
4 to 8 of the spec give the card beside the registers. Plain data only.
-/
namespace Sys2Proof.Machine

/-- LINK.STATE.STATE (Table 4-13). -/
inductive LinkPhase where
  | idNotReady | idReady | switching | fastWait | training | up | lost | returning
deriving DecidableEq, Repr

/-- The progress of the voltage switch handshake of Table 4-4. -/
inductive SwitchStep where
  /-- no handshake -/
  | none
  /-- steps 1 and 2: the pad supply is on and regulation is awaited -/
  | regulate
  /-- steps 3 and 4: UP0_P is low and confirm edges are counted -/
  | confirm
deriving DecidableEq, Repr

/-- Frame types that the card sends (Table 5-2). -/
inductive UpType where
  | dataReq | dataUp | completion | progress
deriving DecidableEq, Repr

/-- What the card has put on its up lanes: the bytes of a fast-mode frame (R102–R104), of an ID-mode response (Table 4-3), of a
training block on a lane (Table 4-7). -/
inductive Sent where
  | frame (bytes : List Nat)
  | response (bytes : List Nat)
  | block (lane : Nat) (bytes : List Nat)
deriving DecidableEq, Repr

/-- What a CMD frame carries for the command layer (Table 5-1): BCAST, ADDR, ORIG, TAG, OPCODE and its unit of command fields. -/
structure CmdIn where
  bcast : Bool
  addr : Nat
  orig : Nat
  tag : Nat
  opcode : Nat
  fields : Nat
deriving DecidableEq, Repr

/-- An up frame: its type and the header fields of Table 5-1 that name its command, with the payload read as a
little-endian number. `arg` is Table 5-2's ARG. `retries` is its retry count (R110); `hadUp` that its command had an
up data phase (R130), `ring` the submission ring its command entered (R131). -/
structure UpFrame where
  ftype : UpType
  q : Nat
  addr : Nat
  orig : Nat
  tag : Nat
  opcode : Nat
  status : Nat
  arg : Nat
  units : Nat
  payload : Nat
  retx : Bool
  lseq : Nat
  retries : Nat
  hadUp : Bool
  ring : Option Nat
deriving DecidableEq, Repr

/-- A response of ID mode (Table 4-3); `key` is the command it answers (R77). -/
structure IdResponse where
  opcode : Nat
  status : Nat
  unassigned : Bool
  addr : Nat
  orig : Nat
  tag : Nat
  len : Nat
  body : Nat
deriving DecidableEq, Repr

/-- The link controller (chapters 4 and 5). `lockRun` counts each down lane's consecutive error-free TSD blocks
(R91), `trainedFrom` is the state in which training was entered (R111), `firstCtl` says that the LINKCTL that ends
the training has not yet been received, `nakAt` the expected LSEQ for which a NAK stands, with the number of NAKs
sent for it (R107, R110), `nakDue` that the next header carries NAK = 1, `idleHc` the HC since the last ACKSEQ advance (R109),
`hunting` that the receiver ignores lane data until an idle code or a training block (R105), `owed` the commands whose COMPLETION
the card sends after a restart before it stamps a new one and `held` the CMD frames accepted meanwhile (R130), `wantW` the widths
that the SWITCH under way asked for, `idPartial` that the ID receiver has begun a frame (R75). -/
structure Link where
  phase : LinkPhase
  fast : Bool
  switchStep : SwitchStep
  switchHc : Nat
  lockRun : List Nat
  aligned : Bool
  trainedFrom : LinkPhase
  firstCtl : Bool
  txLseq : Nat
  rxExpected : Nat
  txQueue : List UpFrame
  unacked : List UpFrame
  nakAt : Option Nat
  nakSent : Nat
  nakDue : Bool
  hunting : Bool
  ackDue : Bool
  linkctlDue : Bool
  cmdLimit : Nat
  cmdCount : Nat
  idleHc : Nat
  owed : List Nat
  held : List CmdIn
  wantW : Nat
  idResponse : Option IdResponse
  idPartial : Bool
deriving DecidableEq, Repr

/-- Where a command In flight stands. -/
inductive CmdPhase where
  /-- stamped and not yet popped for decode (in its ring, or in none under R193) -/
  | queued
  /-- decoded, its checks passed; its row may run -/
  | decoded
  /-- its DATA_REQ is queued and has not been sent -/
  | asking
  /-- its DATA_REQ has been sent; the down data phase is under way -/
  | data
  /-- its down data phase has ended; its row may run -/
  | ready
  /-- its first step has run; it waits for the condition of its completing row -/
  | waiting
  /-- a REGREAD that samples one register on each CCLK edge (R60) -/
  | sampling
  /-- its data frame has been sent and its acknowledgement is awaited (ATTN_FETCH) -/
  | upData
  /-- a TRIM that has ended and whose trim record is being programmed (R253) -/
  | recording
  /-- its status is fixed and its COMPLETION is queued or owed -/
  | settled
  /-- settled by a return to ID mode and waiting for room on an attention ring (R131) -/
  | deferred
deriving DecidableEq, Repr

/-- A command In flight. `q` is its ORDER_SEQ; the list of commands stands in stamp order. `fields` is the 64-byte
command unit (Table 5-5), `payload` the data frames received, in index order, `progress` the CCLK since its stamp
(R36), `done` the sectors or steps its row has finished, `abortedBy` the ABORT commands waiting for its next
boundary (R128), `status` and `result` its fixed status and completion fields. `ring` is the Slice ring 0–63, 64
for the card ring, `none` for R193's commands. `upSent` says that it put a DATA_UP frame on the link;
`seqNo` is the commit sequence of a WRITE or TRIM, drawn at its decode (R250). `popped` says that the decoder has popped it (R196). `snap` holds the words of a SNAP group that a
REGREAD has latched, by index (R61), `rings` the attention rings that an ATTN_FETCH reads. `steps` counts the upkeep steps of a REST, or those that a WRITE
has carried; `erases` and `moves` are the block erases and the page relocations that a WRITE may still carry (R263), `awaits` the dies with the steps
that a REST had started when its budget passed (R260). -/
structure Cmd where
  q : Nat
  orig : Nat
  tag : Nat
  opcode : Nat
  fields : Nat
  bcast : Bool
  idMode : Bool
  ring : Option Nat
  phase : CmdPhase
  wanted : Nat
  payload : List Nat
  progress : Nat
  done : Nat
  steps : Nat
  abortedBy : List Nat
  status : Nat
  result : Nat
  resultUnits : Nat
  upSent : Bool
  slice : Option Nat
  seqNo : Nat
  popped : Bool
  snap : List (Nat × Nat)
  rings : List Nat
  erases : Nat
  moves : Nat
  awaits : List Nat
deriving DecidableEq, Repr

/-- Descriptor states (Table 8-3); FREE descriptors are not listed. -/
inductive DescState where
  | waitStage | data | active | parked | commit | held | ending
deriving DecidableEq, Repr

/-- What an up buffer holds of a sector that is past its decode and waits for its turn (R123): its content, or the status with which
the command ends there. -/
inductive Found where
  | data (x : Nat)
  | ends (status : Nat)
deriving DecidableEq, Repr

/-- A DMA descriptor in use: its index, its command's ORDER_SEQ, its state, OFFSET and NEXT (Table 8-3), the map
page it is parked on, the state a HELD descriptor resumes, the staging sectors reserved, and for a READ or VERIFY the up buffers of the
sectors that are not sent yet. `fetched` says that the map page of the sector NEXT has been fetched for it (R215). -/
structure Desc where
  index : Nat
  q : Nat
  st : DescState
  offset : Nat
  next : Nat
  parkedOn : Option Nat
  before : DescState
  reserved : Nat
  waited : Bool
  found : List (Nat × Found)
  fetched : Bool
deriving DecidableEq, Repr

/-- The kind of an attention entry (Table 8-2). -/
inductive AttnKind where
  | completion | event | fault
deriving DecidableEq, Repr

/-- An attention entry on a ring (Table 8-2). For a COMPLETION, `b1 b2 b3` are STATUS, ORIG and OPCODE; for an EVENT
or FAULT, PAGE, BANK and BIT. `sending` marks an entry that an ATTN_FETCH is sending (R204), `fresh` one that was posted on the
present edge (R201). -/
structure AttnEntry where
  ring : Nat
  kind : AttnKind
  b1 : Nat
  b2 : Nat
  b3 : Nat
  tag : Nat
  seq : Nat
  order : Nat
  extra : Nat
  sending : Bool
  fresh : Bool
deriving DecidableEq, Repr

/-- An Originator's entry (R145): its Epoch, whether a HELLO has been seen, and its outstanding nonce with the
Slice it was drawn for (R162). -/
structure Orig where
  id : Nat
  epoch : Nat
  helloSeen : Bool
  nonce : Option (Nat × Nat)
deriving DecidableEq, Repr

/-- SLICE.STATE.STATE (R169). -/
inductive SliceState where
  | free | active | resetting | destroying
deriving DecidableEq, Repr

/-- A lock: its holder, the holder's Epoch at the claim, and the HC left of its lease, if any (R181, R183). -/
structure Lock where
  orig : Nat
  epoch : Nat
  lease : Option Nat
deriving DecidableEq, Repr

/-- SLICE.MAP.PIN_STATE. -/
inductive PinState where
  | off | loading | pinned
deriving DecidableEq, Repr

/-- The persisted part of a Slice, as the settings store holds it: capacity, class (0 urgent, 1 steady, 2 bulk),
weight, die cap, encryption, XTS key, binding key (0 = open, R164) and PIN. -/
structure SliceCfg where
  exist : Bool
  cap : Nat
  cls : Nat
  weight : Nat
  dieCap : Nat
  enc : Bool
  xtsKey : Nat
  bindKey : Nat
  pin : Bool
deriving DecidableEq, Repr

/-- A Slice: its state, its configuration, its owner, its lock, its pin state, the SLICE_RESET or SLICE_DESTROY
command that moves it, and a capacity lowering that waits (R171: the REGWRITE's ORDER_SEQ and the new capacity). -/
structure Slice where
  st : SliceState
  cfg : SliceCfg
  owner : Option Nat
  lock : Option Lock
  pinState : PinState
  mover : Option Nat
  lowering : Option (Nat × Nat)
deriving DecidableEq, Repr

/-- Shelf sleep (R151, R154): the running proposal, the CCLK of its window that have passed, the Originator whose
proposal armed the card. SHELF.SLEEP_STAT holds STATE and ROUND. -/
structure Shelf where
  proposal : Option Nat
  window : Nat
  armedBy : Option Nat
  committing : Option Nat
  committed : Bool
deriving DecidableEq, Repr

end Sys2Proof.Machine
end

