-- ==== Sys2Proof/Machine/TypesCtl.lean ====
section
/-!
DEFINITION. The state of supplies, resets, removal, the Crust, the option store, the firmware, sleep, temperature,
faults, the fuses and the test access port: what chapters 3, 12 and 14 to 18 and 21 of the spec give the card beside
the registers. Plain data only.
-/
namespace Sys2Proof.Machine

/-- The power state (Table 17-1); STILL is ACTIVE with no clock edge supplied. `removing` and `removed` are the
removal sequence and the state of R309. -/
inductive PowerState where
  | off | active | sleep | removing | removed
deriving DecidableEq, Repr

/-- Where start-up stands: a reset of level P or S is asserted or not yet released; the domains have released and the
option loader has run; the card has presented ready; the firmware core is held by a core reset (R353, R354, R320). -/
inductive Startup where
  | held | loaded | ready | halted
deriving DecidableEq, Repr

/-- A requested reset: whether it is a system reset, and its source code of Table 14-2 (R354, R355). `sender` is the
Originator's RESET that asked for a system reset, whose COMPLETION must be acknowledged first (R351). -/
structure ResetReq where
  system : Bool
  source : Nat
  sender : Option Nat
deriving DecidableEq, Repr

/-- A removal under way (R304–R308): the sources, the channels reset at step 2, and the phase-code bits. -/
structure Removal where
  detN : Bool
  brownOut : Bool
  channels : Nat
  writes : Bool
  programs : Bool
deriving DecidableEq, Repr

/-- Supplies, pins and start-up. `testEn` is the level sampled at TEST_EN. `armed` is the DET_N
trigger, `brownArmed` the brown-out trigger (R301). `fromWake` and `crustRestart` say that the start is a wake, and one
after loss of the Crust (R420, R422); `recovered` that recovery has run in full since the start (R322); `testMode` that
the card is in factory test mode (R477); `drain` counts the CCLK for which a core reset drains (R354). -/
structure Power where
  st : PowerState
  vbak : Bool
  vholdOk : Bool
  testEn : Bool
  armed : Bool
  brownArmed : Bool
  startup : Startup
  fromWake : Bool
  crustRestart : Bool
  recovered : Bool
  testMode : Bool
  resetReq : Option ResetReq
  drain : Nat
  removal : Option Removal
deriving DecidableEq, Repr

/-- A sleep record (R414): the Originators with their Epochs and bindings, the locks by Slice, the declaration. -/
structure SleepRecord where
  seq : Nat
  consumed : Bool
  origs : List Orig
  owners : List (Nat × Nat)
  locks : List (Nat × Lock)
  declKhz : Nat
deriving DecidableEq, Repr

/-- The option store (R363–R366): copies A and B, the copy in force as loaded and the staging buffer, each as bytes by
offset, and the commit under way: whether it writes copy B, and what it writes. -/
structure OptionStore where
  copyA : Store
  copyB : Store
  inForce : Store
  staging : Store
  commit : Option (Bool × Store)
deriving DecidableEq, Repr

/-- Slot states (Table 16-1). -/
inductive SlotState where
  | empty | staged | probation | confirmed | previous | rejected
deriving DecidableEq, Repr

/-- A firmware slot: its state, its staged 64-byte units, unit index to 1 + content (R398), and whether a FW_STAGE has discarded the
image that a boot record named it for. -/
structure FwSlot where
  st : SlotState
  units : Store
  renewed : Bool
deriving DecidableEq, Repr

/-- The boot record in force (R389); slots are 0 main A, 1 main B, 2 microcode A, 3 microcode B. -/
structure BootRecord where
  seq : Nat
  main : Nat
  mc : Nat
  prev : Option Nat
  copyB : Bool
deriving DecidableEq, Repr

/-- A settings image (R389): its format, its sequence and the Slices' persisted configurations, by Slice. -/
structure Settings where
  fmt : Nat
  seq : Nat
  cfgs : List (Nat × SliceCfg)
deriving DecidableEq, Repr

/-- The running images (R396, R397): main slot, microcode slot when one is loaded, probation, safe-interface mode,
whether the main image was not the first candidate, and the key slot that verified it. -/
structure RunImage where
  main : Nat
  mc : Option Nat
  probation : Bool
  safeIf : Bool
  fallback : Bool
  key : Nat
deriving DecidableEq, Repr

/-- The firmware: the four slots, the boot record, the settings copies A and B, the shadow and the main slot that
built it, and the running images (none: minimal mode once started). -/
structure Firmware where
  slots : List FwSlot
  boot : Option BootRecord
  copyA : Option Settings
  copyB : Option Settings
  shadow : Option (Nat × Settings)
  run : Option RunImage
deriving DecidableEq, Repr

/-- The escalation count and the wake and ALERT outputs beside the registers: COUNT (R372), the header-parity
mismatches by (page, bank, index) (R47), the levels at the ALERT balls when they differ from the driven ones, and the
readback count (R381). `ignoreMask`: the WAKE mask bit is ignored (R379). `written`: the causes that the clocked logic last wrote to the
latch since the release of its domain (R380, R446). -/
structure Escalation where
  count : Nat
  hdrBad : List (Nat × Nat × Nat)
  pads : Option (Bool × Bool)
  readback : Nat
  ignoreMask : Bool
  written : Nat
deriving DecidableEq, Repr

/-- The temperature sensor (R423): the last conversion as its 10-bit two's complement, VALID, ALARM, whether the next
conversion sets MIN and MAX. -/
structure Temperature where
  value : Nat
  valid : Bool
  alarm : Bool
  fresh : Bool
deriving DecidableEq, Repr

/-- A key slot (R393): programmed marker, digest, revoke fuse. -/
structure KeySlot where
  programmed : Bool
  digest : Nat
  revoked : Bool
deriving DecidableEq, Repr

/-- What a fuse programming operation blows (Table 21-1). -/
inductive FuseTarget where
  | entry (entry code : Nat)
  | seal
  | key (slot digest : Nat)
  | revoke (slot : Nat)
deriving DecidableEq, Repr

/-- The fuses: Fuse map entries, key slots and the test seal as programmed and as sensed at the last power-on (R361,
R480), the factory fuses, and the programming operation under way with the HC left of its pulses (R479). -/
structure Fuses where
  map : Store
  mapSensed : Store
  keys : List KeySlot
  keysSensed : List KeySlot
  sealBlown : Bool
  sealSensed : Bool
  part : Nat
  step : Nat
  serial : Nat
  busy : Option FuseTarget
  pulse : Nat
deriving DecidableEq, Repr

/-- Instructions of the test access port (Table 18-11). -/
inductive TapInstr where
  | extest | sample | idcode | highz | clamp | bypass
deriving DecidableEq, Repr

/-- The test access port (R449–R451): the instruction in force, the boundary register as last captured or loaded, and
its data registers IDCODE and BYPASS as captured. -/
structure Tap where
  instr : TapInstr
  boundary : Nat
  captured : Nat
deriving DecidableEq, Repr

end Sys2Proof.Machine
end

