-- ==== Sys2Proof/Machine/TypesFlash.lean ====
section
/-!
DEFINITION. The state of the flash side: dies and their arbiters, channels, blocks, pages, superblocks and parity
versions, the map, wear and upkeep (chapters 9, 10, 11 and 13 of the spec). Plain data only. A die is named by
16 × channel + target (R328).
-/
namespace Sys2Proof.Machine

/-- The class of a request (Table 9-1). -/
inductive ReqClass where
  | urgent | steady | bulk
deriving DecidableEq, Repr

/-- The one array operation of a step (R327). -/
inductive OpKind where
  | read | program | erase
deriving DecidableEq, Repr

/-- What the holder of a die is doing (Table 9-2, and WD_LAST_REQ.ACTIVITY). -/
inductive Activity where
  /-- holds the grant, no operation issued -/
  | idle
  /-- data input to the page register, not confirmed -/
  | dataIn
  /-- array read running -/
  | reading
  /-- program running in the array -/
  | programming
  /-- erase running in the array -/
  | erasing
  /-- data output -/
  | dataOut
deriving DecidableEq, Repr

/-- What a step serves. -/
inductive Work where
  /-- the array read of sector `i` of a READ or VERIFY -/
  | sector (i : Nat)
  /-- a further array read for the soft decode of sector `i` (R224, R225, R343) -/
  | soft (i : Nat)
  /-- the program of a data page of a WRITE -/
  | page
  /-- the read of a map page's copy (R245, R248) -/
  | mapRead (slice idx : Nat)
  /-- the program of a job: map data or a parity version -/
  | job (id : Nat)
  /-- a step of Forced upkeep (R264) -/
  | forced
  /-- a step of an upkeep engine (Table 10-1) -/
  | other
deriving DecidableEq, Repr

/-- A request for one step on a die: the requester (0–67, Table 9-1), the ORDER_SEQ of the command served, the
class it was presented with (R187), its weight when steady, its operation and place, the CCLK since its presentation
(R238), its progress count in codeword slots transferred (R231), the CCLK that it has held the die (R227), and whether its operation
has begun in the array. -/
structure Req where
  who : Nat
  q : Nat
  cls : ReqClass
  weight : Nat
  op : OpKind
  block : Nat
  page : Nat
  work : Work
  waited : Nat
  progress : Nat
  held : Nat
  inArray : Bool
deriving DecidableEq, Repr

/-- Who holds a die: a requester's step, or a housekeeping step (R237: number 0x44). -/
inductive Holder where
  | step (r : Req)
  /-- Reset LUN issued by a bite; the step that comes back when RB_N rises, a housekeeping step where `orphan` -/
  | resetLun (back : Option Req) (orphan : Bool)
  /-- a reconfiguration of the channel (R338) -/
  | reconfig
  /-- an orphaned operation being finished (R233) -/
  | orphan (r : Req)
deriving DecidableEq, Repr

/-- A die and its arbiter state (R225–R237). `present`: it answered at the last identification (R335). `fifo` holds the admitted urgent requests, `waiting` the urgent requests
not yet admitted, `lower` the steady and bulk requests, `queued` what waits in the requesters' own queues (R223, R186), in
ORDER_SEQ order. `preempted` is the lower-class holder that an urgent request
took the die from and `suspended` says that its operation is suspended in the die; `preempting` that the die has been
told to make way and has not yet reported ready. `admitted` counts admissions since the last reset of U; `guarded`
marks a lower-class step that is not pre-empted; `bitten` that the watchdog has bitten and no step has completed since.
`moved` counts the 64-byte bursts of the codeword slot on the bus (R229). `resetLun` says that the die's target supports Reset LUN (R327);
`bad` lists the blocks with the factory bad-block mark (R296). `nSystem`, `nMap`, `nParity`, `nData` are the blocks that the die's
regions span in block order (R279, R292, R388); a marked block in them is retired from the first start-up on. -/
structure Die where
  id : Nat
  present : Bool
  failed : Bool
  u : Nat
  fifo : List Req
  waiting : List Req
  lower : List Req
  holder : Option Holder
  activity : Activity
  preempting : Bool
  preempted : Option Req
  suspended : Bool
  orphans : List Req
  deficits : List (Nat × Int)
  bulkCredit : Int
  rrPointer : Nat
  bulkPointer : Nat
  admitted : Nat
  guarded : Bool
  watchdog : Nat
  bitten : Bool
  queued : List Req
  moved : Nat
  resetLun : Bool
  bad : List Nat
  nSystem : Nat
  nMap : Nat
  nParity : Nat
  nData : Nat
deriving DecidableEq, Repr

/-- A channel: reconfiguration due, the divisor K in force (0 in SDR timing mode 0), whether SDR timing mode 0 is in
force, the frequency and the mode it was configured for, the frequency its counts were loaded for (R29, R337), whether its quartet was calibrated since the last change of frequency
(R336–R339), and whether it is configured at all. `bus` is the die that has the channel's bus, `busWait` the dies whose steps need it,
in that order, `beat` the CCLK of the burst under way (R229). -/
structure Chan where
  id : Nat
  reconf : Bool
  k : Nat
  sdr : Bool
  khz : Nat
  countKhz : Nat
  fast : Bool
  zqDone : Bool
  configured : Bool
  bus : Option Nat
  busWait : List Nat
  beat : Nat
deriving DecidableEq, Repr

/-- The regions of a die (R245, R274, R279, R388). -/
inductive Region where
  | data | map | parity | system
deriving DecidableEq, Repr

/-- The state of a block. An unlisted block has never been used. -/
inductive BlockState where
  | erased | open | closed | retired
deriving DecidableEq, Repr

/-- A block: erase count, read count (R267), durable checkpoint D and the checkpoint that is due (R270), its refresh
flag (R269) and wear-levelling mark (R298), its superblock while Proofing (for a final block of the parity region, the
superblock whose finals it holds), and the pages programmed since its erase. -/
structure Block where
  die : Nat
  num : Nat
  st : BlockState
  erases : Nat
  reads : Nat
  ckpt : Nat
  due : Option Nat
  flagged : Bool
  wlFlag : Bool
  sb : Option Nat
  used : Nat
deriving DecidableEq, Repr

/-- A programmed codeword slot of a data page: the Slice and LBA of the page record, the commit sequence of the
write (R250), the host data, and the XTS key it is stored under (0: plaintext; R173). -/
structure Slot where
  slice : Nat
  lba : Nat
  seq : Nat
  data : Sector
  key : Nat
deriving DecidableEq, Repr

/-- A data page: its place, its slots in order (`none` is padding, R486), whether its program holds its stripe group (from its
grant to the status read that ends it, R277), whether the program was confirmed, so that it has begun in the array (R314), whether its
status has been read as pass, and whether a parity version that covers it has passed (R17). -/
structure Page where
  die : Nat
  block : Nat
  page : Nat
  slots : List (Option Slot)
  running : Bool
  confirmed : Bool
  passed : Bool
  covered : Bool
  stamp : Nat
deriving DecidableEq, Repr

/-- Where a superblock stands. A released superblock's blocks are no longer Proofing (R285) and the superblock is
no longer listed; `uncovered` follows a forced release (R282). -/
inductive SbState where
  | open | closed | uncovered
deriving DecidableEq, Repr

/-- A superblock (R274): its kind (host or relocation), its Die profile, its members as (die, block), the next page
of each member (the pages of a block when full), the pages that await verification as (member, page), `unread` the pages
that failed verification and have not been relocated (R285), the highest parity version sequence (R278) and the order of
its last program. -/
structure Superblock where
  id : Nat
  host : Bool
  profile : Nat
  members : List (Nat × Nat)
  nextPage : List Nat
  st : SbState
  awaiting : List (Nat × Nat)
  unread : List (Nat × Nat)
  versionSeq : Nat
  lastProgram : Nat
deriving DecidableEq, Repr

/-- The latest parity version of a stripe (R278): the members it covers, the die and block it lies on. `final` marks
the version that completes the stripe, `cached` that its parity buffer is in SRAM (R280). -/
structure Version where
  sb : Nat
  stripe : Nat
  seq : Nat
  mask : List Nat
  die : Nat
  block : Nat
  final : Bool
  cached : Bool
deriving DecidableEq, Repr

/-- What the map holds of a sector that is not simply unmapped (R244, R248, R315). -/
inductive Mapped where
  | at (die block page slot : Nat)
  | torn
  | lost
deriving DecidableEq, Repr

/-- One sector's map entry, with the commit sequence that made it (R250). -/
structure MapEntry where
  slice : Nat
  lba : Nat
  seq : Nat
  loc : Mapped
deriving DecidableEq, Repr

/-- A map page in the cache; the list runs from the least to the most recently used (R246). `dirtyAt` orders the
dirty pages by age. -/
structure CachedPage where
  slice : Nat
  idx : Nat
  dirty : Bool
  dirtyAt : Nat
deriving DecidableEq, Repr

/-- What a sector held before a commit that command `q`, stamped earlier and still In flight, must not see (R14), or,
for a WRITE or TRIM `q`, a sector that a later-stamped command has already committed (R251). `cut` is the earliest-stamped
of the later commands that have committed the sector. -/
structure Snap where
  q : Nat
  slice : Nat
  lba : Nat
  old : Option MapEntry
  cut : Nat
deriving DecidableEq, Repr

/-- An entry of the map directory (R245): a map page with flash copies, and the blocks that they lie in, as (die, block). -/
structure MapCopy where
  slice : Nat
  idx : Nat
  places : List (Nat × Nat)
deriving DecidableEq, Repr

/-- A map page that the map engine is fetching: for the command `q`, at its class, or for none (R215, R222). `tried` counts the copies
that have failed (R248); `arrived` says that the copy under way has been transferred and awaits its decode. -/
structure Fetch where
  slice : Nat
  idx : Nat
  q : Option Nat
  tried : Nat
  arrived : Bool
deriving DecidableEq, Repr

/-- The map beside its entries: the cached pages, the map directory (R245), the pages being fetched, the dirty pages that failed their check (R249), the entries that a TRIM In flight removed and no trim
record or write-back covers yet (R253), the sectors that earlier-stamped commands still see as they were, and the old
entries of lost map pages, whose locations stay counted as valid until a relocation reads them, with the lost pages not yet
written back (R248). -/
structure MapState where
  entries : List MapEntry
  cache : List CachedPage
  onFlash : List MapCopy
  fetching : List Fetch
  failed : List (Nat × Nat)
  trims : List MapEntry
  snaps : List Snap
  ghosts : List MapEntry
  lostPages : List (Nat × Nat)
  commitSeq : Nat
  stamp : Nat
deriving DecidableEq, Repr

/-- The format record's state (R296). -/
inductive FormatState where
  | none | formatting | formatted
deriving DecidableEq, Repr

/-- The wear record (R295) beside the blocks' erase counts: per channel the initial and the current spare pool and
the blocks retired, the read-only causes of R293, whether each copy checks good, the format record, and the LIFE
last computed (R297). -/
structure Wear where
  spareInit : List (Nat × Nat)
  spare : List (Nat × Nat)
  retired : List (Nat × Nat)
  roSpares : Bool
  roPe : Bool
  roNoParity : Bool
  roWearLost : Bool
  copyA : Bool
  copyB : Bool
  format : FormatState
  life : Nat
deriving DecidableEq, Repr

/-- A sector that a relocation has read and placed in the upkeep open block (Table 10-1), with its source page; `placed` once its
destination page has passed, where its commit still awaits a map page. -/
structure Moving where
  slot : Slot
  die : Nat
  block : Nat
  page : Nat
  placed : Bool
deriving DecidableEq, Repr

/-- The upkeep engines: starvation (R266), the reserve (R265), the patrol samples owed as (die, block) (R269),
whether a patrol round is active, the halvings of the refresh threshold in force (R268), the Upkeep debt last
computed (R257), and the relocated sectors whose destination page is not full. -/
structure Upkeep where
  starved : Bool
  reserve : Nat
  patrol : List (Nat × Nat)
  patrolActive : Bool
  halvings : Nat
  debt : Nat
  moving : List Moving
deriving DecidableEq, Repr

/-- One counter cell of ARBCNT: requester, channel, GRANTS, WAITS, LONGEST_WAIT (R238). -/
structure ArbCount where
  who : Nat
  chan : Nat
  grants : Nat
  waits : Nat
  longest : Nat
deriving DecidableEq, Repr

/-- A codeword in the ECC engine (R342, R343): its place, the command and sector it serves, its class, whether hard
decode has failed and the soft decode of its four reads is under way, the further reads that have ended, and its soft decoder. -/
structure Codeword where
  die : Nat
  block : Nat
  page : Nat
  slot : Nat
  q : Nat
  sector : Nat
  urgent : Bool
  soft : Bool
  reads : Nat
  decoder : Option Nat
deriving DecidableEq, Repr

/-- What a job programs outside the data region, and what it brings about. -/
inductive JobWork where
  /-- a dirty map page, in both copies (R245, R247) -/
  | writeBack (slice idx : Nat)
  /-- the trim record of TRIM `q`, which then completes with a status (R253) -/
  | trimRecord (q status : Nat)
  /-- the due read-count checkpoints, in one batch (R270) -/
  | checkpoints
  /-- the parity version of a stripe that covers a page of member `member` (R278) -/
  | version (sb stripe member die block page : Nat)
  /-- the version that takes the place of one on a failed die (R276) -/
  | replace (sb stripe : Nat)
deriving DecidableEq, Repr

/-- Who bears a piece of work: the requester, the command served, the class and the weight (R222, R281). -/
structure Bearer where
  who : Nat
  q : Option Nat
  cls : ReqClass
  weight : Nat
deriving DecidableEq, Repr

/-- Programs that a command or a step awaits, each on the dies still listed; `places` are the pages programmed so far, as
(die, block). -/
structure Job where
  id : Nat
  bearer : Bearer
  work : JobWork
  dies : List Nat
  places : List (Nat × Nat)
deriving DecidableEq, Repr

/-- The flash side as one record. `lastM` is the M of the host superblock opened last (R274);
`recoveries` the recoveries that have run: each raises the counts of a block that has never been used (R271, R295); `caught` the sectors of WRITEs
In flight at a loss of power or a system reset that lie in a page whose program had begun (Table 12-5); `cutErases` the blocks whose
erase it cut off, as (die, block) (R289, R358); `usable` the usable
capacity in sectors. -/
structure Flash where
  dies : List Die
  chans : List Chan
  blocks : List Block
  pages : List Page
  superblocks : List Superblock
  versions : List Version
  map : MapState
  wear : Wear
  upkeep : Upkeep
  arb : List ArbCount
  words : List Codeword
  jobs : List Job
  nextJob : Nat
  nextSb : Nat
  lastM : Nat
  recoveries : Nat
  caught : List MapEntry
  cutErases : List (Nat × Nat)
  usable : Nat
deriving DecidableEq, Repr

end Sys2Proof.Machine
end

