-- ==== Sys2Proof/Machine/State.lean ====
section
/-!
DEFINITION. The state of the card, its stops and its state at reset. Every register field lives in `regs` (by its
difference from its reset value) or is a view of the structured state beside it; INVENTORY.md lists them one by one.
-/
namespace Sys2Proof.Machine

/-- Faults. The block has none: every command and event of the table has its effect in every state, so no
constructor is declared and no step can raise one. -/
inductive Fault
deriving DecidableEq, Repr

/-- Refusals. -/
inductive Refusal where
  /-- a row that has no meaning in Dispatch yet; raised by no arm once every row has one. Safe: the model stops. -/
  | notModelled (mnemonic : String)
deriving DecidableEq, Repr

/-- The card.
`pending` is the queue of commands that wait to be taken, first in, first out. `wire` is the record of what the card has put on
its up lanes, oldest first: the model's own (log entry 52). `draws` numbers the values drawn from
the random bit generator, `keys` the XTS keys generated; both are the model's own (log entries 4 and 5). -/
structure State where
  pending : List Instr
  regs : Store
  link : Link
  wire : List Sent
  cmds : List Cmd
  descs : List Desc
  attn : List AttnEntry
  seqs : Store
  origs : List Orig
  slices : List Slice
  shelf : Shelf
  flash : Flash
  power : Power
  crust : Store
  sleepA : Option SleepRecord
  sleepB : Option SleepRecord
  opt : OptionStore
  fw : Firmware
  esc : Escalation
  temp : Temperature
  fuses : Fuses
  tap : Tap
  draws : Nat
  keys : Nat
deriving DecidableEq, Repr

/-- A FREE Slice (R169). -/
def Slice.free : Slice :=
  { st := .free
    cfg := { exist := false, cap := 0, cls := 1, weight := 0, dieCap := 0, enc := false, xtsKey := 0, bindKey := 0,
             pin := false }
    owner := none, lock := none, pinState := .off, mover := none, lowering := none }

/-- The link in ID mode, not ready (R69, R79). -/
def Link.reset : Link :=
  { phase := .idNotReady, fast := false, switchStep := .none, switchHc := 0, lockRun := [0, 0, 0, 0],
    aligned := false, trainedFrom := .idNotReady, firstCtl := false, txLseq := 0, rxExpected := 0, txQueue := [],
    unacked := [], nakAt := none, nakSent := 0, nakDue := false, hunting := false, ackDue := false, linkctlDue := false,
    cmdLimit := 0, cmdCount := 0, idleHc := 0, owed := [], held := [], wantW := 0, idResponse := none, idPartial := false }

/-- No round of shelf sleep under way. -/
def Shelf.reset : Shelf :=
  { proposal := none, window := 0, armedBy := none, committing := none, committed := false }

/-- The map before recovery has rebuilt anything. -/
def MapState.reset : MapState :=
  { entries := [], cache := [], onFlash := [], fetching := [], failed := [], trims := [], snaps := [],
    ghosts := [], lostPages := [], commitSeq := 0, stamp := 0 }

/-- The wear record of a card that has never been formatted (R296). -/
def Wear.reset : Wear :=
  { spareInit := [], spare := [], retired := [], roSpares := false, roPe := false, roNoParity := false,
    roWearLost := false, copyA := false, copyB := false, format := .none, life := 100 }

/-- The upkeep engines at rest. -/
def Upkeep.reset : Upkeep :=
  { starved := false, reserve := 0, patrol := [], patrolActive := false, halvings := 0, debt := 0,
    moving := [] }

/-- The flash side of a card whose flash holds nothing. -/
def Flash.reset : Flash :=
  { dies := [], chans := [], blocks := [], pages := [], superblocks := [], versions := [], map := MapState.reset,
    wear := Wear.reset, upkeep := Upkeep.reset, arb := [], words := [], jobs := [], nextJob := 0, nextSb := 0, lastM := 0, recoveries := 0, caught := [], cutErases := [], usable := 0 }

/-- Supplies and pins with power present and the power-on reset asserted (R353). -/
def Power.reset : Power :=
  { st := .active, vbak := true, vholdOk := false, testEn := false, armed := false,
    brownArmed := true, startup := .held, fromWake := false, crustRestart := false, recovered := false, testMode := false, resetReq := none, drain := 0,
    removal := none }

/-- No image staged, none confirmed (R396). -/
def Firmware.reset : Firmware :=
  { slots := [⟨.empty, [], false⟩, ⟨.empty, [], false⟩, ⟨.empty, [], false⟩, ⟨.empty, [], false⟩], boot := none, copyA := none,
    copyB := none, shadow := none, run := none }

/-- No escalation, header parity good everywhere. -/
def Escalation.reset : Escalation :=
  { count := 0, hdrBad := [], pads := none, readback := 0, ignoreMask := false, written := 0 }

/-- No conversion has ended since start-up (R423). -/
def Temperature.reset : Temperature :=
  { value := 0, valid := false, alarm := false, fresh := true }

/-- Fuses of an SQ-9130 of stepping 1 with nothing else blown (Table 3-7, R360, R393). -/
def Fuses.reset : Fuses :=
  { map := [], mapSensed := [], keys := List.replicate 4 ⟨false, 0, false⟩,
    keysSensed := List.replicate 4 ⟨false, 0, false⟩, sealBlown := false, sealSensed := false, part := 0x9130,
    step := 1, serial := 0, busy := none, pulse := 0 }

/-- Test-Logic-Reset selects IDCODE (R449). -/
def Tap.reset : Tap := { instr := .idcode, boundary := 0, captured := 0 }

/-- The machine right after reset: power is present and the power-on reset is asserted; every register holds its
reset value, no command waits, the option memory and the system area are blank and the Crust has lost its cells
(cell 16 CRUST_LOST). DESIGN CHOICE: log entries 2 and 3. -/
def State.reset : State :=
  { pending := [], regs := [], link := Link.reset, wire := [], cmds := [], descs := [], attn := [], seqs := [], origs := [],
    slices := List.replicate 64 Slice.free, shelf := Shelf.reset, flash := Flash.reset, power := Power.reset,
    crust := [(16, 0x8000)], sleepA := none, sleepB := none,
    opt := { copyA := [], copyB := [], inForce := [], staging := [], commit := none }, fw := Firmware.reset,
    esc := Escalation.reset, temp := Temperature.reset, fuses := Fuses.reset, tap := Tap.reset, draws := 0,
    keys := 0 }

end Sys2Proof.Machine
end

