-- ==== Sys2Proof/Machine/Ops.lean ====
section
/-!
DEFINITION. The named operations over the card's state: register fields, Slices, commands In flight, the Crust,
the answers to the questions every meaning asks.
-/
namespace Sys2Proof.Machine

/-- What every meaning answers. -/
abbrev Answer := Host.Outcome State Fault Refusal

/-! Register fields. -/

/-- The stored value of a field. -/
def State.rd (s : State) (f : Field) : Nat := regRead s.regs f

/-- Store a field. -/
def State.wr (s : State) (f : Field) (v : Nat) : State := { s with regs := regWrite s.regs f v }

/-- Raise a counter, saturating at its width (R10 and the tables: saturates). -/
def State.bump (s : State) (f : Field) (n : Nat := 1) : State :=
  s.wr f (satAdd (s.rd f) n (ones f.width))

/-- A field's bit 0 as a Bool. -/
def State.bit (s : State) (f : Field) : Bool := s.rd f == 1

/-! Crust cells (R317). -/

/-- A Crust cell. -/
def State.cell (s : State) (n : Nat) : Nat := storeRead s.crust n

/-- A Crust cell write; none is performed while VBAK stands below the detector's level (R444). -/
def State.setCell (s : State) (n v : Nat) : State :=
  if s.power.vbak then { s with crust := storeWrite s.crust n (v % 65536) } else s

/-! Slices. -/

/-- Slice `i`. -/
def State.slice (s : State) (i : Nat) : Slice := s.slices.getD i Slice.free

/-- Change Slice `i`. -/
def State.setSlice (s : State) (i : Nat) (f : Slice → Slice) : State := { s with slices := s.slices.modify i f }

/-- The Slice to which an Originator is bound (R160). -/
def State.boundSlice (s : State) (o : Nat) : Option Nat :=
  (rangeFrom 0 64).find? (fun i => (s.slice i).owner == some o)

/-- Capacity allocated to Slices. -/
def State.allocated (s : State) : Nat := sumBy (fun sl => sl.cfg.cap) s.slices

/-! Who and what state the card is in. -/

/-- The Administrator in force (R158); 0xFF is none. -/
def State.admin (s : State) : Nat := s.rd Reg.OPTION.IN_FORCE.ADMIN_ORIG


/-- Is the Safe state in force (R375)? -/
def State.safe (s : State) : Bool := s.bit Reg.ESCALATE.STATE.SAFE

/-- Is an escalation pending (R372)? -/
def State.escPending (s : State) : Bool := s.bit Reg.ESCALATE.STATE.PENDING

/-- Minimal mode (R409). -/
def State.minimal (s : State) : Bool := s.fw.run.isNone

/-- Safe-interface mode (R408). -/
def State.safeIf (s : State) : Bool :=
  match s.fw.run with
  | some r => r.safeIf
  | none => false

/-- Is the card in probation (R401)? -/
def State.probation (s : State) : Bool :=
  match s.fw.run with
  | some r => r.probation
  | none => false

/-- Is the card read-only (R293, R275, R295, R266)? -/
def State.readOnly (s : State) : Bool :=
  s.flash.wear.roSpares || s.flash.wear.roPe || s.flash.wear.roNoParity || s.flash.wear.roWearLost ||
    s.flash.upkeep.starved

/-- Factory test mode (R477) is the flag that the release of the HCLK domain set. -/
def State.ftm (s : State) : Bool := s.power.testMode

/-- Is `o` the Administrator? In factory test mode every Originator is treated as the Administrator (R158, R159). -/
def State.isAdmin (s : State) (o : Nat) : Bool := s.ftm || (o == s.admin && o != 0xFF)

/-- Does the card run without an Administrator (R159)? -/
def State.noAdmin (s : State) : Bool := s.admin == 0xFF && !s.ftm

/-- Open mode (R350). -/
def State.openMode (s : State) : Bool := bitAt (s.rd Reg.OPTION.IN_FORCE.MODE) 0

/-- MODE.ALERT_ALL reads 0 (R379). -/
def State.faultsOnly (s : State) : Bool := !bitAt (s.rd Reg.OPTION.IN_FORCE.MODE) 2

/-- Do clocked circuits move: power present, not frozen by the removal sequencer, domains released (R353, R305)?
DEDUCED: log entry 14. -/
def State.clocked (s : State) : Bool := s.power.st == .active && s.power.startup != .held

/-- Has start-up presented ready and is the firmware core running (R79)? -/
def State.up (s : State) : Bool := s.power.st == .active && s.power.startup == .ready

/-- Is the clock declared (R31)? -/
def State.declared (s : State) : Bool := s.rd Reg.CLOCK.DECL_FAST.DECL_KHZ != 0

/-- Lanes of a width code (R80). -/
def widthLanes (w : Nat) : Nat := if w = 0 then 1 else if w = 1 then 2 else 4

/-! Commands In flight. -/

/-- The command In flight with ORDER_SEQ `q`. -/
def State.cmd? (s : State) (q : Nat) : Option Cmd := s.cmds.find? (fun c => c.q == q)

/-- Change a command. -/
def State.setCmd (s : State) (q : Nat) (f : Cmd → Cmd) : State :=
  { s with cmds := mapIf (fun c => c.q == q) f s.cmds }

/-- The commands stamped before `q`, oldest first: the list stands in stamp order. -/
def State.earlier (s : State) (q : Nat) : List Cmd := s.cmds.takeWhile (fun c => c.q != q)

/-- The commands stamped after `q`. -/
def State.later (s : State) (q : Nat) : List Cmd := (s.cmds.dropWhile (fun c => c.q != q)).drop 1

/-- A field of the command unit: `w` bits from byte `byte` (Table 5-5). -/
def Cmd.field (c : Cmd) (byte w : Nat) : Nat := byteField c.fields byte w

/-- Has the command's status been fixed? -/
def Cmd.done? (c : Cmd) : Bool := c.phase == .settled || c.phase == .deferred

/-- Has the command been decoded and is it still at work? -/
def Cmd.working (c : Cmd) : Bool := c.phase != .queued && !c.done?

/-- Run `f` on a command In flight of an opcode and phase; otherwise nothing happens. DESIGN CHOICE: log entry 11. -/
def State.onCmd (s : State) (q opcode : Nat) (ph : CmdPhase) (f : Cmd → State) : State :=
  match s.cmd? q with
  | some c => if s.clocked && c.opcode == opcode && c.phase == ph then f c else s
  | none => s

/-! Levels of the rings (R191): a submission ring is the queued commands of its number, Slice 0–63 or 64 for the
card's; an attention ring is its entries. -/

/-- SQ_LEVEL. -/
def State.sqLevel (s : State) (ring : Nat) : Nat :=
  count (fun c => c.ring == some ring && c.phase == .queued) s.cmds

/-- EXEC: popped and not yet completed (R196). -/
def State.execLevel (s : State) (ring : Nat) : Nat :=
  count (fun c => c.ring == some ring && c.popped) s.cmds

/-- AQ_LEVEL. -/
def State.aqLevel (s : State) (ring : Nat) : Nat := count (fun e => e.ring == ring) s.attn

/-- AQ_COMPL: its COMPLETION entries. -/
def State.aqCompl (s : State) (ring : Nat) : Nat :=
  count (fun e => e.ring == ring && e.kind == .completion) s.attn

/-- The depth in force of a submission ring (R197, R199). -/
def State.sqDepth (s : State) (ring : Nat) : Nat :=
  if ring < 64 then s.rd (Reg.QUEUE.DEPTH.SQ_DEPTH.inBank ring) else 32

/-- Free-running descriptors: the descriptor of a command. -/
def State.desc? (s : State) (q : Nat) : Option Desc := s.descs.find? (fun d => d.q == q)

/-- Change a command's descriptor. -/
def State.setDesc (s : State) (q : Nat) (f : Desc → Desc) : State :=
  { s with descs := mapIf (fun d => d.q == q) f s.descs }

/-- The lowest descriptor index not in use (R210: 1,024 descriptors). -/
def State.freeDesc (s : State) : Nat :=
  ((rangeFrom 0 1024).find? (fun i => !s.descs.any (fun d => d.index == i))).getD 1024

/-! What leaves the card. -/

/-- Put something on the up lanes. -/
def State.emit (s : State) (x : Sent) : State := { s with wire := s.wire ++ [x] }

/-! Flash. -/

/-- Change the flash side. -/
def State.onFlash (s : State) (f : Flash → Flash) : State := { s with flash := f s.flash }

/-- Die `d`. -/
def State.die? (s : State) (d : Nat) : Option Die := s.flash.dies.find? (fun x => x.id == d)

/-- Change die `d`. -/
def State.setDie (s : State) (d : Nat) (f : Die → Die) : State :=
  s.onFlash (fun fl => { fl with dies := mapIf (fun x => x.id == d) f fl.dies })

end Sys2Proof.Machine
end

