-- ==== Sys2Proof/Machine/Attention.lean ====
section
/-!
DEFINITION. Attention entries and events (R46, R200–R204), watermarks (R208, R209) and counters that report their
saturation.
-/
namespace Sys2Proof.Machine

/-- The registers of one ring's watermark (R208): its setting, its crossing count, its WM_CROSS event. -/
structure Watermark where
  setting : Field
  crossings : Field
  sticky : Field
  bit : Nat
deriving DecidableEq, Repr

/-- The submission watermark of a ring. -/
def sqMark (ring : Nat) : Watermark :=
  if ring < 64 then
    ⟨Reg.QUEUE.WM_CFG.SQ_WM.inBank ring, Reg.QUEUE.WM_STAT.SQ_COUNT.inBank ring, attnSticky 7 ring, 0⟩
  else ⟨Reg.DMA.CARD_WM_CFG.CARD_SQ_WM, Reg.DMA.CARD_WM_STAT.SQ_COUNT, attnSticky 8 0, 0⟩

/-- The attention watermark of a ring. -/
def aqMark (ring : Nat) : Watermark :=
  if ring < 64 then
    ⟨Reg.QUEUE.WM_CFG.AQ_WM.inBank ring, Reg.QUEUE.WM_STAT.AQ_COUNT.inBank ring, attnSticky 7 ring, 1⟩
  else ⟨Reg.DMA.CARD_WM_CFG.CARD_AQ_WM, Reg.DMA.CARD_WM_STAT.AQ_COUNT, attnSticky 8 0, 1⟩

/-- ATTN_LOST of a ring. -/
def lostBit (ring : Nat) : Field :=
  if ring < 64 then Reg.QUEUE.LOST.ATTN_LOST.inBank ring else Reg.DMA.CARD_WM_STAT.ATTN_LOST

/-- LOST_COUNT of a ring. -/
def lostCount (ring : Nat) : Field :=
  if ring < 64 then Reg.QUEUE.LOST.LOST_COUNT.inBank ring else Reg.DMA.CARD_LOST.LOST_COUNT

/-- An entry is lost (R203). -/
def State.loseEntry (s : State) (ring : Nat) : State := (s.wr (lostBit ring) 1).bump (lostCount ring)

/-- Remove the oldest EVENT or FAULT entry of a ring that no ATTN_FETCH is sending (R203, R204). -/
def dropOldest (ring : Nat) : List AttnEntry → List AttnEntry
  | [] => []
  | e :: l => if e.ring == ring && e.kind != .completion && !e.sending then l else e :: dropOldest ring l

/-- Put an entry on its ring with the ring's next SEQ (R201), or lose one where the ring is full (R203). Raises the
high-water mark of a Slice's ring. The ring of a FREE Slice takes no event or fault of its bank (R191). -/
def State.placeEntry (s : State) (e : AttnEntry) : State :=
  if e.kind != .completion && decide (e.ring < 64) && (s.slice e.ring).st == .free then s else
  let seq := storeRead s.seqs e.ring
  let s := { s with seqs := storeWrite s.seqs e.ring ((seq + 1) % 65536) }
  let e := { e with seq := seq, fresh := true }
  if s.aqLevel e.ring < 64 then
    let s := { s with attn := s.attn ++ [e] }
    if e.ring < 64 then
      s.wr (Reg.QUEUE.HWM.AQ_HWM.inBank e.ring)
        (max (s.rd (Reg.QUEUE.HWM.AQ_HWM.inBank e.ring)) (s.aqLevel e.ring))
    else s
  else if e.kind == .completion then
    ({ s with attn := dropOldest e.ring s.attn ++ [e] }).loseEntry e.ring
  else s.loseEntry e.ring

/-- The EVENT or FAULT entry of a sticky bit (Table 8-2). -/
def State.stickyEntry (s : State) (kind : AttnKind) (page bank bit : Nat) : AttnEntry :=
  { ring := if banked page then bank else 64, kind := kind, b1 := page,
    b2 := if banked page then bank else 0xFF, b3 := bit, tag := 0, seq := 0,
    order := s.rd Reg.LINK.ORDER_SEQ.LAST, extra := 0, sending := false, fresh := true }

/-- A level of a ring rose from `before` to `after`: an upward crossing of its watermark counts, and sets WM_CROSS; with the
entry that its 0→1 change posts, where it does (R208, R209, R46). -/
def State.cross (s : State) (w : Watermark) (before after ring : Nat) : State × Option AttnEntry :=
  let wm := s.rd w.setting
  if wm != 0 && decide (before < wm) && decide (wm ≤ after) then
    let s := s.bump w.crossings
    let v := s.rd w.sticky
    if bitAt v w.bit then (s, none) else
      let s := s.wr w.sticky (v + 2 ^ w.bit)
      let en := if ring < 64 then attnEnable 7 ring else attnEnable 8 0
      (s, if bitAt (s.rd en) w.bit then some (s.stickyEntry .event (if ring < 64 then 7 else 8) ring w.bit) else none)
  else (s, none)

/-- The level of an attention ring has risen from `before` on this edge: its own watermark is watched, and the entry of a crossing
goes to the ring that already stands above it. -/
def State.attnRose (s : State) (ring before : Nat) : State :=
  let r := s.cross (aqMark ring) before (s.aqLevel ring) ring
  match r.2 with
  | some e => r.1.placeEntry e
  | none => r.1

/-- Post an entry, watching the ring's attention watermark. -/
def State.post (s : State) (e : AttnEntry) : State := (s.placeEntry e).attnRose e.ring (s.aqLevel e.ring)

/-- The level of a submission ring has risen: the entry of a crossing is posted like any other. -/
def State.submitRose (s : State) (ring before : Nat) : State :=
  let r := s.cross (sqMark ring) before (s.sqLevel ring) ring
  match r.2 with
  | some e => r.1.post e
  | none => r.1

/-! The order of one edge. -/

/-- The place of an entry among those posted on one edge: the card ring first (R205), then a ring's COMPLETION entries, its FAULT
entries by page and bit, its EVENT entries by page and bit (R201). -/
def AttnEntry.place (e : AttnEntry) : Nat :=
  (if e.ring = 64 then 0 else 1 + e.ring) * 2 ^ 16 +
    (match e.kind with
      | .completion => 0
      | .fault => 2 ^ 14 + 32 * e.b1 + e.b3
      | .event => 2 ^ 15 + 32 * e.b1 + e.b3)

/-- Put an entry behind those that do not follow it. -/
def insertAttn (e : AttnEntry) : List AttnEntry → List AttnEntry
  | [] => [e]
  | x :: l => if e.place < x.place then e :: x :: l else x :: insertAttn e l

/-- Entries in the order of one edge; those of equal place keep theirs. -/
def orderEntries (l : List AttnEntry) : List AttnEntry := l.foldl (fun acc e => insertAttn e acc) []

/-- Give entries the SEQ values that `from_` holds, ring by ring in its order. -/
def takeSeqs : List AttnEntry → List AttnEntry → List AttnEntry
  | _, [] => []
  | from_, e :: l =>
    match from_.find? (fun x => x.ring == e.ring) with
    | some x => { e with seq := x.seq, fresh := false } :: takeSeqs (from_.erase x) l
    | none => { e with fresh := false } :: takeSeqs from_ l

/-- An edge has ended: the entries posted on it stand in the order of R201 and R205, with consecutive SEQ values. -/
def State.endEdge (s : State) : State :=
  let new := s.attn.filter (fun e => e.fresh)
  { s with attn := s.attn.filter (fun e => !e.fresh) ++ takeSeqs new (orderEntries new) }

/-- An attention event: its sticky bit rises and, where enabled, an EVENT entry is posted (R46). -/
def State.raise (s : State) (ev : Nat × Nat) (bank : Nat := 0) : State :=
  let f := attnSticky ev.1 bank
  let v := s.rd f
  if bitAt v ev.2 then s else
    let s := s.wr f (v + 2 ^ ev.2)
    if bitAt (s.rd (attnEnable ev.1 bank)) ev.2 then s.post (s.stickyEntry .event ev.1 bank ev.2) else s

/-- Does a counter's page report its saturation (LINKERR, FTL and ECC header sources)? -/
def reportsSaturation (f : Field) : Bool :=
  (f.page == 0x02 && decide (8 ≤ f.index ∧ f.index ≤ 15)) ||
  (f.page == 0x0C && decide (10 ≤ f.index ∧ f.index ≤ 13)) ||
  (f.page == 0x20 && decide (10 ≤ f.index ∧ f.index ≤ 14))

/-- Raise a counter; one that reaches its maximum on a page that reports it sets SATURATED. -/
def State.tally (s : State) (f : Field) (n : Nat := 1) : State :=
  let s' := s.bump f n
  if reportsSaturation f && s.rd f != ones f.width && s'.rd f == ones f.width then s'.raise (f.page, 0) else s'

/-- Raise a 64-bit counter held in two registers, saturating (FTL indices 14 to 17). -/
def State.tally64 (s : State) (lo hi : Field) (n : Nat) : State :=
  let v := s.rd lo + 2 ^ 32 * s.rd hi
  let v' := satAdd v n (ones 64)
  let s' := (s.wr lo (v' % 2 ^ 32)).wr hi (v' / 2 ^ 32)
  if v != ones 64 && v' == ones 64 then s'.raise Evt.FTL.SATURATED else s'

end Sys2Proof.Machine
end

