-- ==== Sys2Proof/Machine/Codes.lean ====
section
/-!
DEFINITION. Opcodes (Table 5-5) and completion statuses (Table 5-7).
-/
namespace Sys2Proof.Machine

/-! Opcodes. -/
def opNop : Nat := 0x00
def opIdentify : Nat := 0x01
def opAssign : Nat := 0x02
def opSwitch : Nat := 0x03
def opDeclare : Nat := 0x04
def opHello : Nat := 0x05
def opPropose : Nat := 0x06
def opCommit : Nat := 0x07
def opReset : Nat := 0x08
def opAbort : Nat := 0x09
def opRead : Nat := 0x10
def opWrite : Nat := 0x11
def opTrim : Nat := 0x12
def opBarrier : Nat := 0x13
def opVerify : Nat := 0x14
def opRest : Nat := 0x18
def opRegread : Nat := 0x20
def opRegwrite : Nat := 0x21
def opCreate : Nat := 0x28
def opBind : Nat := 0x29
def opUnbind : Nat := 0x2A
def opLock : Nat := 0x2B
def opUnlock : Nat := 0x2C
def opSliceReset : Nat := 0x2D
def opDestroy : Nat := 0x2E
def opStage : Nat := 0x30
def opActivate : Nat := 0x31
def opConfirm : Nat := 0x32
def opFetch : Nat := 0x38
def opSelftest : Nat := 0x3A

/-- The opcodes of Table 5-5. -/
def opcodes : List Nat :=
  [0x00, 0x01, 0x02, 0x03, 0x04, 0x05, 0x06, 0x07, 0x08, 0x09, 0x10, 0x11, 0x12, 0x13, 0x14, 0x18, 0x20, 0x21,
   0x28, 0x29, 0x2A, 0x2B, 0x2C, 0x2D, 0x2E, 0x30, 0x31, 0x32, 0x38, 0x3A]

/-! Statuses. -/
def stOk : Nat := 0x00
def stTorn : Nat := 0x01
def stUncorrectable : Nat := 0x02
def stReadOnly : Nat := 0x03
def stSafeState : Nat := 0x04
def stSliceReset : Nat := 0x05
def stNotOwner : Nat := 0x06
def stLocked : Nat := 0x07
def stQueueFull : Nat := 0x08
def stBadLength : Nat := 0x09
def stAborted : Nat := 0x0A
def stAbortedLink : Nat := 0x0B
def stNoFirmware : Nat := 0x0C
def stFwLimited : Nat := 0x0D
def stFaultPending : Nat := 0x0E
def stBadOpcode : Nat := 0x0F
def stOutOfRange : Nat := 0x10
def stNotSealed : Nat := 0x11
def stUndeclared : Nat := 0x12
def stNeedsFast : Nat := 0x13
def stVetoed : Nat := 0x14
def stAuthFailed : Nat := 0x15
def stImageRejected : Nat := 0x16
def stNoSpace : Nat := 0x17
def stStaleEpoch : Nat := 0x18
def stConflict : Nat := 0x19
def stNoSuch : Nat := 0x1A

/-- The data commands (R192). -/
def isDataOp (o : Nat) : Bool := o == opRead || o == opWrite || o == opTrim || o == opBarrier || o == opVerify

/-- The commands that enter no ring (R193). -/
def noRing (o : Nat) : Bool := o == opAbort || o == opSliceReset || o == opFetch

/-- A register command. -/
def isRegOp (o : Nat) : Bool := o == opRegread || o == opRegwrite

/-- COUNT of a data command: 16 bits at byte 8, 40 bits for TRIM (Table 5-5). -/
def Cmd.count (c : Cmd) : Nat := if c.opcode = opTrim then c.field 8 40 else c.field 8 16

/-- LBA of a data command. -/
def Cmd.lba (c : Cmd) : Nat := c.field 0 40

/-- A BARRIER, or a data command with COUNT 0 (Table 5-6). -/
def Cmd.isBarrier (c : Cmd) : Bool := c.opcode == opBarrier || (isDataOp c.opcode && c.count == 0)

/-- Does a command use a DMA descriptor (R210)? -/
def Cmd.needsDesc (c : Cmd) : Bool :=
  ((c.opcode == opRead || c.opcode == opWrite || c.opcode == opVerify) && c.count != 0) || c.opcode == opStage

end Sys2Proof.Machine
end

