-- ==== Sys2Proof/Machine/Crypto.lean ====
section
/-!
DEFINITION. The checks and digests that the spec names: CRC-32C (R104), CRC-16/CCITT of ID-mode frames (R72), SHA-256
(FIPS 180-4; R391–R393) and HMAC-SHA-256 (FIPS 198-1; R163), over lists of bytes.
-/
namespace Sys2Proof.Machine

/-- One bit of a reflected CRC. -/
def crcBits (poly : Nat) : Nat → Nat → Nat
  | 0, c => c
  | n + 1, c => crcBits poly n (if c % 2 = 1 then (c / 2) ^^^ poly else c / 2)

/-- CRC-32C: polynomial 0x1EDC6F41, reflected, initial value and final XOR all ones (R104). -/
def crc32c (bytes : List Nat) : Nat :=
  (bytes.foldl (fun c b => crcBits 0x82F63B78 8 (c ^^^ (b % 256))) 0xFFFFFFFF) ^^^ 0xFFFFFFFF

/-- One byte of a CRC shifted from its most significant bit. -/
def crc16Bits : Nat → Nat → Nat
  | 0, c => c
  | n + 1, c => crc16Bits n (if bitAt c 15 then ((c * 2) % 65536) ^^^ 0x1021 else (c * 2) % 65536)

/-- CRC-16/CCITT: polynomial 0x1021, initial value 0xFFFF. -/
def crc16 (bytes : List Nat) : Nat := bytes.foldl (fun c b => crc16Bits 8 (c ^^^ ((b % 256) * 256))) 0xFFFF

/-- Rotate a 32-bit word right. -/
def rotr (n x : Nat) : Nat := (x >>> n ||| x <<< (32 - n)) % 2 ^ 32

/-- Is `n` prime, by trial division by 2 to `n - 1`? -/
def isPrime (n : Nat) : Bool := decide (2 ≤ n) && (rangeFrom 2 (n - 2)).all (fun d => n % d != 0)

/-- The first `n` primes: 311 is the 64th. -/
def firstPrimes (n : Nat) : List Nat := ((rangeFrom 2 310).filter isPrime).take n

/-- The greatest `r` below 2 to the `bits` that `fits` admits, for a `fits` that falls once: bit by bit from the top. -/
def greatest (fits : Nat → Bool) : Nat → Nat → Nat
  | 0, r => r
  | k + 1, r => greatest fits k (if fits (r + 2 ^ k) then r + 2 ^ k else r)

/-- The first 32 bits of the fractional part of the `e`-th root of a prime. -/
def rootBits (e p : Nat) : Nat := greatest (fun r => decide (r ^ e ≤ p * 2 ^ (32 * e))) 37 0 % 2 ^ 32

/-- SHA-256 round constants: FIPS 180-4 takes them from the cube roots of the first 64 primes. -/
def shaK : List Nat := (firstPrimes 64).map (rootBits 3)

/-- SHA-256 initial hash value: FIPS 180-4 takes it from the square roots of the first 8 primes. -/
def shaInit : List Nat := (firstPrimes 8).map (rootBits 2)

/-- The message schedule, newest word first, from the sixteen words of a block. -/
def shaSchedule : Nat → List Nat → List Nat
  | 0, w => w
  | n + 1, w =>
    let w2 := w.getD 1 0
    let w15 := w.getD 14 0
    let s0 := rotr 7 w15 ^^^ rotr 18 w15 ^^^ (w15 >>> 3)
    let s1 := rotr 17 w2 ^^^ rotr 19 w2 ^^^ (w2 >>> 10)
    shaSchedule n ((w.getD 15 0 + s0 + w.getD 6 0 + s1) % 2 ^ 32 :: w)

/-- One round, on the eight working variables. -/
def shaRound (v : List Nat) (kw : Nat) : List Nat :=
  match v with
  | [a, b, c, d, e, f, g, h] =>
    let ch := (e &&& f) ^^^ ((e ^^^ 0xFFFFFFFF) &&& g)
    let maj := (a &&& b) ^^^ (a &&& c) ^^^ (b &&& c)
    let t1 := (h + (rotr 6 e ^^^ rotr 11 e ^^^ rotr 25 e) + ch + kw) % 2 ^ 32
    let t2 := ((rotr 2 a ^^^ rotr 13 a ^^^ rotr 22 a) + maj) % 2 ^ 32
    [(t1 + t2) % 2 ^ 32, a, b, c, (d + t1) % 2 ^ 32, e, f, g]
  | v => v

/-- The compression of one 64-byte block. -/
def shaBlock (h : List Nat) (block : List Nat) : List Nat :=
  let words := (rangeFrom 0 16).map (fun i => ofBytesBE ((block.drop (4 * i)).take 4))
  let sched := (shaSchedule 48 words.reverse).reverse
  let v := (List.zipWith (fun k w => (k + w) % 2 ^ 32) shaK sched).foldl shaRound h
  List.zipWith (fun a b => (a + b) % 2 ^ 32) h v

/-- Blocks one after another. -/
def shaBlocks : Nat → List Nat → List Nat → List Nat
  | 0, h, _ => h
  | n + 1, h, m => shaBlocks n (shaBlock h (m.take 64)) (m.drop 64)

/-- SHA-256 as 32 bytes. -/
def sha256 (m : List Nat) : List Nat :=
  let pad := (119 - m.length % 64) % 64
  let padded := m ++ [0x80] ++ List.replicate pad 0 ++ (bytesLE 8 (8 * m.length)).reverse
  (shaBlocks (padded.length / 64) shaInit padded).flatMap (fun w => (bytesLE 4 w).reverse)

/-- HMAC-SHA-256 with a 32-byte key. -/
def hmacSha256 (key m : List Nat) : List Nat :=
  let k := key ++ List.replicate (64 - key.length) 0
  sha256 (k.map (fun b => b ^^^ 0x5C) ++ sha256 (k.map (fun b => b ^^^ 0x36) ++ m))

end Sys2Proof.Machine
end

