-- ==== Sys2Proof/Machine/Frames.lean ====
section
/-!
DEFINITION. What travels on the lanes, byte by byte: fast-mode frames (R102–R105), training blocks (R90), ID-mode frames (R71–R73).
Bytes stand in the order of travel.
-/
namespace Sys2Proof.Machine

/-! Fast-mode frames. -/

/-- Frame types (Table 5-2). -/
inductive FrameType where
  | cmd | dataDn | dataReq | dataUp | completion | progress | linkctl
deriving DecidableEq, Repr

/-- FTYPE (Table 5-2). -/
def FrameType.code : FrameType → Nat
  | .cmd => 0x11 | .dataDn => 0x12 | .dataReq => 0x21 | .dataUp => 0x22 | .completion => 0x23 | .progress => 0x24
  | .linkctl => 0x31

/-- The types that travel down. -/
def downTypes : List FrameType := [.cmd, .dataDn, .linkctl]

/-- The range of UNITS of a type (Table 5-2). -/
def FrameType.unitsOk (t : FrameType) (u : Nat) : Bool :=
  match t with
  | .cmd => u == 1
  | .dataDn => decide (1 ≤ u ∧ u ≤ 64)
  | .dataReq => u == 0
  | .dataUp => decide (1 ≤ u ∧ u ≤ 64)
  | .completion => decide (u ≤ 1)
  | .progress => u == 0
  | .linkctl => u == 0

/-- A frame header (Table 5-1). -/
structure FrameHdr where
  ftype : FrameType
  bcast : Bool
  retx : Bool
  ackv : Bool
  nak : Bool
  addr : Nat
  orig : Nat
  lseq : Nat
  ackSeq : Nat
  units : Nat
  tag : Nat
  opcode : Nat
  status : Nat
  arg : Nat
deriving DecidableEq, Repr

/-- The 16 bytes of a header (Table 5-1). -/
def FrameHdr.bytes (h : FrameHdr) : List Nat :=
  [h.ftype.code, bit01 h.bcast + 2 * bit01 h.retx + 4 * bit01 h.ackv + 8 * bit01 h.nak] ++ bytesLE 2 (h.addr % 4096) ++
    [h.orig % 256, h.lseq % 256, h.ackSeq % 256, h.units % 256] ++ bytesLE 2 h.tag ++ [h.opcode % 256, h.status % 256] ++
    bytesLE 4 h.arg

/-- Bytes with their CRC-32C behind them, least significant byte first (R104). -/
def sealed32 (b : List Nat) : List Nat := b ++ bytesLE 4 (crc32c b)

/-- A whole frame: header, payload units read from a little-endian number, CRC (R104). -/
def FrameHdr.frame (h : FrameHdr) (payload : Nat) : List Nat := sealed32 (h.bytes ++ bytesLE (64 * h.units) payload)

/-- A field of received bytes: `n` bytes from byte `i`, little-endian. -/
def fieldAt (b : List Nat) (i n : Nat) : Nat := ofBytesLE ((b.drop i).take n)

/-- The type of a received frame, where FTYPE names one that travels down. -/
def downType (b : List Nat) : Option FrameType := downTypes.find? (fun t => t.code == fieldAt b 0 1)

/-- Has a received frame a header error (R105): no type of its direction, UNITS out of range, or a reserved bit that reads 1? -/
def headerError (b : List Nat) : Bool :=
  match downType b with
  | none => true
  | some t => !t.unitsOk (fieldAt b 7 1) || fieldAt b 1 1 / 16 != 0 || fieldAt b 2 2 / 4096 != 0

/-- Does the CRC of a received frame check good over header and payload (R104)? -/
def crcGood (b : List Nat) : Bool :=
  let n := 16 + 64 * fieldAt b 7 1
  b.length == n + 4 && fieldAt b n 4 == crc32c (b.take n)

/-- The link fields of a received header (Table 5-1). -/
def linkHdr (b : List Nat) : LinkHdr :=
  { lseq := fieldAt b 5 1, ackSeq := fieldAt b 6 1, ackv := bitAt (fieldAt b 1 1) 2, retx := bitAt (fieldAt b 1 1) 1,
    nak := bitAt (fieldAt b 1 1) 3 }

/-- The type of a received frame that R105 does not discard. -/
def goodFrame (b : List Nat) : Option FrameType := if headerError b || !crcGood b then none else downType b

/-- What a CMD frame carries. -/
def cmdOf (b : List Nat) : CmdIn :=
  { bcast := bitAt (fieldAt b 1 1) 0, addr := fieldAt b 2 2 % 4096, orig := fieldAt b 4 1, tag := fieldAt b 8 2,
    opcode := fieldAt b 10 1, fields := fieldAt b 16 64 }

/-- The header of a frame that the card sends (R102, R108): ACKV = 1 with the LSEQ expected next, and the NAK that is due. -/
def upHeader (l : Link) (t : FrameType) (f : UpFrame) : FrameHdr :=
  { ftype := t, bcast := false, retx := f.retx, ackv := true, nak := l.nakDue, addr := f.addr, orig := f.orig, lseq := f.lseq,
    ackSeq := l.rxExpected, units := f.units, tag := f.tag, opcode := f.opcode, status := f.status, arg := f.arg }

/-- The frame type of an up frame. -/
def UpType.ftype : UpType → FrameType
  | .dataReq => .dataReq | .dataUp => .dataUp | .completion => .completion | .progress => .progress

/-- The bytes of an up frame as it leaves the card. -/
def UpFrame.bytes (f : UpFrame) (l : Link) : List Nat := (upHeader l f.ftype.ftype f).frame f.payload

/-- The card's LINKCTL: CMD_LIMIT in ARG, ORIG 0xFF, and LSEQ, TAG and OPCODE 0 (Tables 5-1 and 5-2, R112). -/
def linkctlBytes (l : Link) (addr : Nat) : List Nat :=
  FrameHdr.frame { ftype := .linkctl, bcast := false, retx := false, ackv := true, nak := l.nakDue, addr := addr, orig := 0xFF,
                   lseq := 0, ackSeq := l.rxExpected, units := 0, tag := 0, opcode := 0, status := 0, arg := l.cmdLimit } 0

/-! Training blocks. -/

/-- A training block: four bytes 0x7E, the kind, three bytes of its own, and bytes 8–15, which "0x96, 0x69 ×4" gives as four
pairs (Table 4-7). -/
def trainingBlock (kind a b c : Nat) : List Nat :=
  List.replicate 4 0x7E ++ [kind, a, b, c] ++ (List.replicate 4 [0x96, 0x69]).flatten

/-- The TSD block of a down lane. -/
def tsdBlock (lane : Nat) : List Nat := trainingBlock 0xC3 lane 0x3C (255 - lane)

/-- The TSU block of an up lane, with the LOCK byte. -/
def tsuBlock (lane lock : Nat) : List Nat := trainingBlock 0xC3 lane lock (255 - lock)

/-- The TSE block of a lane. -/
def tseBlock (lane : Nat) : List Nat := trainingBlock 0xE7 lane 0x18 (255 - lane)

/-! ID-mode frames. -/

/-- Bytes with their CRC-16/CCITT behind them, low byte first (R71–R73). -/
def sealed16 (b : List Nat) : List Nat := b ++ bytesLE 2 (crc16 b)

/-- LEN of a received ID-mode command frame (Table 4-2). -/
def idLen (b : List Nat) : Nat := fieldAt b 6 1

/-- Does the CRC of an ID-mode command frame check good (R73, R74)? -/
def idCrcGood (b : List Nat) : Bool :=
  let n := 8 + idLen b
  b.length == n + 2 && fieldAt b n 2 == crc16 (b.take n)

/-- What an ID-mode command frame carries: body bytes 0–63 are the command fields; those that it omits read 0 (R71). -/
def idCmdOf (b : List Nat) : CmdIn :=
  { bcast := bitAt (fieldAt b 1 1) 0, addr := fieldAt b 2 2 % 4096, orig := fieldAt b 4 1, tag := fieldAt b 5 1,
    opcode := fieldAt b 0 1, fields := ofBytesLE (((b.drop 8).take (idLen b)).take 64) }

/-- Body bytes 64–191: the data (R71). -/
def idDataOf (b : List Nat) : Nat := ofBytesLE (((b.drop 8).take (idLen b)).drop 64)

/-- The bytes of a response frame (Table 4-3). -/
def IdResponse.bytes (r : IdResponse) : List Nat :=
  sealed16 ([r.opcode % 256, r.status % 256, bit01 r.unassigned] ++ bytesLE 2 (r.addr % 4096) ++
    [r.orig % 256, r.tag % 256, r.len % 256] ++ bytesLE r.len r.body)

end Sys2Proof.Machine
end

