-- ==== Sys2Proof/Machine/Complete.lean ====
section
/-!
DEFINITION. Completing a command, exactly once (R116): its status is fixed, its COMPLETION goes out on the link, as
an ID-mode response, or as an entry on an attention ring (R131), and it stops being In flight (R24, R27, R112).
-/
namespace Sys2Proof.Machine

/-- COMPLETION of a command (Table 5-2). -/
def completionFrame (s : State) (c : Cmd) : UpFrame :=
  { ftype := .completion, q := c.q, addr := s.rd Reg.SHELF.ADDR.CARD_ADDR, orig := c.orig, tag := c.tag,
    opcode := c.opcode, status := c.status, arg := c.q, units := c.resultUnits, payload := c.result, retx := false,
    lseq := 0, retries := 0, hadUp := c.upSent, ring := c.ring }

/-- Another up frame of a command. -/
def upFrame (s : State) (c : Cmd) (t : UpType) (arg units payload : Nat) : UpFrame :=
  { ftype := t, q := c.q, addr := s.rd Reg.SHELF.ADDR.CARD_ADDR, orig := c.orig, tag := c.tag, opcode := c.opcode,
    status := 0, arg := arg, units := units, payload := payload, retx := false, lseq := 0, retries := 0,
    hadUp := false, ring := c.ring }

/-- Must a control frame wait for a data frame: a COMPLETION follows the data of its own command (R123)? -/
def waitsFor (f g : UpFrame) : Bool := f.ftype == .completion && g.ftype == .dataUp && g.q == f.q

/-- Queue a progress, request or completion frame ahead of data frames (R37), behind the control frames queued before it, and a
COMPLETION behind its own command's data. -/
def insertControl (f : UpFrame) : List UpFrame → List UpFrame
  | [] => [f]
  | g :: l => if g.ftype == .dataUp && !(g :: l).any (waitsFor f) then f :: g :: l else g :: insertControl f l

/-- Queue an up frame. -/
def State.enqueue (s : State) (f : UpFrame) : State :=
  { s with link := { s.link with
      txQueue := if f.ftype == .dataUp then s.link.txQueue ++ [f] else insertControl f s.link.txQueue } }

/-- Queue a settled command's COMPLETION; a return to ID mode posts it on a ring instead (R131). -/
def State.owe (s : State) (c : Cmd) : State :=
  if s.link.phase == .returning then s else s.enqueue (completionFrame s c)

/-- The ring on which a command's completion is posted (R131). -/
def State.homeRing (s : State) (c : Cmd) : Nat :=
  match c.ring with
  | some r => r
  | none =>
    match s.boundSlice c.orig with
    | some i => if s.isAdmin c.orig then 64 else i
    | none => 64

/-- The response of ID mode to a command (R71, R72, Table 4-3). -/
def idAnswer (s : State) (c : Cmd) : IdResponse :=
  { opcode := c.opcode, status := c.status, unassigned := s.rd Reg.SHELF.ADDR.ASSIGNED == 0,
    addr := s.rd Reg.SHELF.ADDR.CARD_ADDR, orig := c.orig, tag := c.tag, len := c.resultUnits, body := c.result }

/-- The ABORTs that waited for `c` complete OK, RESULT 0 where it ended ABORTED (R128). One whose status is fixed keeps it. A
PROGRESS frame queued for the ABORT is discarded (R129). -/
def State.answerAborts (s : State) (c : Cmd) : State :=
  c.abortedBy.foldl (fun s a =>
    match s.cmd? a with
    | some ab =>
      if ab.done? then s else
      let s := { s with link := { s.link with txQueue := s.link.txQueue.filter (fun f => f.q != a) } }
      let ab := { ab with phase := .settled, status := stOk, result := if c.status = stAborted then 0 else 1,
                          resultUnits := 1 }
      (s.setCmd a (fun _ => ab)).owe ab
    | none => s) s

/-- A command stops being In flight: CMD_LIMIT rises by one, a Quiet point is counted, its ABORTs are answered (R24,
R27, R112, R128). -/
def State.leave (s : State) (q : Nat) : State :=
  match s.cmd? q with
  | none => s
  | some c =>
    let s := { s with cmds := s.cmds.filter (fun x => x.q != q)
                      link := { s.link with cmdLimit := (s.link.cmdLimit + 1) % 65536, linkctlDue := s.link.fast } }
    let s := if s.cmds.isEmpty then s.bump Reg.CLOCK.STILL_ENTRIES.COUNT else s
    s.answerAborts c

/-- The completion bytes that Table 5-5 names for a command under a status (R119, R72); 0 where it names none. -/
def Cmd.namedBytes (c : Cmd) (status : Nat) : Nat :=
  let o := c.opcode
  if o = opIdentify then 18
  else if o = opHello ∨ o = opFetch then 2
  else if o = opAbort then 1
  else if (o = opRead ∨ o = opVerify) ∧ (status = stTorn ∨ status = stUncorrectable) then 2
  else if o = opRest then 12
  else if o = opBind ∧ c.field 1 8 = 0 then 16
  else if o = opLock ∧ status = stLocked then 8
  else if o = opSelftest then 4
  else 0

/-- Does a queued frame of a command that ends with a status still go out? Its data does where the command has reached its end
or failed at a sector (R123); data that is unsent when the command is ended from outside is cleared (R216). -/
def keptFrame (q status : Nat) (f : UpFrame) : Bool :=
  f.q != q || (f.ftype == .dataUp && (status == stOk || status == stTorn || status == stUncorrectable))

/-- The outstanding nonce of an Originator is discarded on a SLICE_BIND with STEP 1, whichever way that ends (R163). -/
def State.spendNonce (s : State) (c : Cmd) : State :=
  if c.opcode = opBind ∧ c.field 1 8 = 1 then
    { s with origs := mapIf (fun (o : Orig) => o.id == c.orig) (fun o => { o with nonce := none }) s.origs }
  else s

/-- Fix a command's status (R116): at most once, with its completion fields as a little-endian number. Its
staging is released (R211) and its descriptor ends (R213), its queued PROGRESS frame is discarded (R129), its nonce is spent (R163). An ID-mode command answers at once, with
`dataLen` bytes of data behind its completion bytes (R72), and is no longer In flight. -/
def State.complete (s : State) (q status : Nat) (result : Nat := 0) (data : Nat := 0) (dataLen : Nat := 0) : State :=
  match s.cmd? q with
  | none => s
  | some c =>
    if c.done? then s else
    let s := s.spendNonce c
    let n := c.namedBytes status
    let result := result % 2 ^ (8 * n)
    let c := if c.idMode then
        { c with phase := CmdPhase.settled, status := status, result := result + 2 ^ (8 * n) * data,
                 resultUnits := n + dataLen }
      else { c with phase := CmdPhase.settled, status := status, result := result, resultUnits := if n = 0 then 0 else 1 }
    let s := { s.setCmd q (fun _ => c) with
      descs := mapIf (fun (d : Desc) => d.q == q) (fun d => { d with st := .ending, reserved := 0, parkedOn := none, found := [] }) s.descs }
    if c.idMode then
      let r := idAnswer s c
      (({ s with link := { s.link with idResponse := some r } }).emit (.response r.bytes)).leave q
    else
      let s := { s with link := { s.link with txQueue := s.link.txQueue.filter (keptFrame q status) } }
      s.owe c

/-- Put an up frame on the lanes with the acknowledgement and the NAK that are due (R107, R108). -/
def State.transmit (s : State) (f : UpFrame) : State :=
  { s.emit (.frame (f.bytes s.link)) with link := { s.link with nakDue := false, ackDue := false } }

/-- Send the frame at the head of the up queue, keeping a copy until it is acknowledged (R106). The down data phase of a command
opens as its DATA_REQ is sent (R117). -/
def State.sendHead (s : State) : State :=
  match s.link.txQueue with
  | [] => s
  | f :: l =>
    let f := { f with lseq := s.link.txLseq }
    let s := s.transmit f
    let s := { s with link := { s.link with
      txQueue := l
      unacked := s.link.unacked ++ [f]
      txLseq := (s.link.txLseq + 1) % 256
      idleHc := if s.link.unacked.isEmpty then 0 else s.link.idleHc
      owed := if f.ftype == .completion then s.link.owed.filter (fun q => q != f.q) else s.link.owed } }
    if f.ftype == .completion then s.leave f.q
    else if f.ftype == .dataReq then s.setCmd f.q (fun c => if c.phase == .asking then { c with phase := .data } else c)
    else s

/-- Post the completion of a settled command on its attention ring, or hold it where the ring holds 64 COMPLETION
entries (R131). -/
def State.placeCompletion (s : State) (c : Cmd) : State :=
  let ring := s.homeRing c
  if s.aqCompl ring ≥ 64 then s.setCmd c.q (fun c => { c with phase := .deferred })
  else
    let e : AttnEntry := { ring := ring, kind := .completion, b1 := c.status, b2 := c.orig, b3 := c.opcode,
                           tag := c.tag, seq := 0, order := c.q, extra := c.result % 2 ^ 32, sending := false, fresh := true }
    ((s.placeEntry e).tally Reg.LINKERR.DEFERRED.COUNT).leave c.q

/-- The same on an edge of its own: the ring's watermark is watched (R208). -/
def State.postCompletion (s : State) (c : Cmd) : State :=
  (s.placeCompletion c).attnRose (s.homeRing c) (s.aqLevel (s.homeRing c))

/-- Send what the link can carry (R106; nothing before the host's first LINKCTL has settled R111's restart), or post what a return to ID mode settles, until nothing more can move. -/
def State.flush : Nat → State → State
  | 0, s => s
  | n + 1, s =>
    if s.link.phase == .up && !s.link.firstCtl then
      if decide (s.link.unacked.length < 32) && !s.link.txQueue.isEmpty then State.flush n s.sendHead else s
    else if s.link.phase == .returning then
      match s.cmds.find? (fun c => c.phase == .settled) with
      | some c => State.flush n (s.postCompletion c)
      | none => s
    else s

/-- A LINKCTL goes out with the value of CMD_LIMIT current when it starts (R112), and the NAK that is due. -/
def State.sendLinkctl (s : State) : State :=
  { s.emit (.frame (linkctlBytes s.link (s.rd Reg.SHELF.ADDR.CARD_ADDR))) with
    link := { s.link with linkctlDue := false, ackDue := false, nakDue := false } }

/-- Move everything that can move; a LINKCTL that is due goes out at the next frame boundary (R112). A NAK that no frame of the
card's has carried goes in a LINKCTL at once. DESIGN CHOICE: log entry 35. -/
def State.pump (s : State) : State :=
  let s : State := State.flush (s.link.txQueue.length + 2 * s.cmds.length + 1) s
  if s.link.phase == .up && (s.link.linkctlDue || s.link.nakDue) then s.sendLinkctl else s

end Sys2Proof.Machine
end

