-- ==== Sys2Proof/Machine/Crust.lean ====
section
/-!
DEFINITION. The Crust: counts over several cells (R318, R319, R367), wake causes (R418) and the latches of cell 0.
Cell 0 holds SLEEPING at bit 0, WAKE_PENDING at bit 1 and the ALERT latch at bit 2 (log entry 12).
-/
namespace Sys2Proof.Machine

/-- The cells of a 48-bit count. -/
structure Count48 where
  low : Nat
  mid : Nat
  high : Nat
  cp : Nat
deriving DecidableEq, Repr

/-- The reset count (cells 1–4). -/
def resetCells : Count48 := ⟨1, 2, 3, 4⟩

/-- The removal count (cells 11–14). -/
def removalCells : Count48 := ⟨11, 12, 13, 14⟩

/-- COMPLETE_CARRY for a count whose carry-pending cell has bit 15 set (R318). -/
def State.completeCarry (s : State) (c : Count48) : State :=
  let cp := s.cell c.cp
  if bitAt cp 15 then
    let s := if s.cell c.low = 0xFFFF then s.setCell c.low 0 else s
    let s := if s.cell c.mid % 2 ≠ cp % 2 then s.setCell c.mid (s.cell c.mid + 1) else s
    let s := if bitAt cp 14 && (s.cell c.high % 2 != bit01 (bitAt cp 1)) then s.setCell c.high (s.cell c.high + 1)
             else s
    s.setCell c.cp 0
  else s

/-- The cell writes of INCREMENT48, in order (R318). -/
def increment48Writes (low mid high : Nat) (c : Count48) : List (Nat × Nat) :=
  if low ≠ 0xFFFF then [(c.low, low + 1)]
  else
    let toHigh := mid = 0xFFFF
    let cp := 0x8000 + (if toHigh then 0x4000 + 2 * ((high + 1) % 2) else 0) + (mid + 1) % 2
    [(c.cp, cp), (c.low, 0), (c.mid, (mid + 1) % 65536)] ++
      (if toHigh then [(c.high, (high + 1) % 65536)] else []) ++ [(c.cp, 0)]

/-- Cell writes one after another. -/
def State.setCells (s : State) (l : List (Nat × Nat)) : State := l.foldl (fun s e => s.setCell e.1 e.2) s

/-- INCREMENT48, any pending carry of the count completed first. -/
def State.increment48 (s : State) (c : Count48) : State :=
  let s := s.completeCarry c
  s.setCells (increment48Writes (s.cell c.low) (s.cell c.mid) (s.cell c.high) c)

/-- The value of a count. -/
def State.count48 (s : State) (c : Count48) : Nat :=
  s.cell c.low + 2 ^ 16 * s.cell c.mid + 2 ^ 32 * s.cell c.high

/-- Raise a cell that saturates at 0xFFFF. -/
def State.raiseCell (s : State) (n : Nat) : State := s.setCell n (satAdd (s.cell n) 1 0xFFFF)

/-- Set or clear a bit of a cell. -/
def State.cellBit (s : State) (n b : Nat) (v : Bool) : State :=
  s.setCell n (if v then s.cell n ||| 2 ^ b else clearBits (s.cell n) (2 ^ b))

/-- Write bits `lo … lo + w - 1` of a cell. -/
def State.cellBits (s : State) (n lo w v : Nat) : State :=
  s.setCell n (clearBits (s.cell n) (ones w <<< lo) ||| ((v &&& ones w) <<< lo))

/-- Does the reset count or the removal count have a carry pending? -/
def State.carryPending (s : State) : Bool := bitAt (s.cell 4) 15 || bitAt (s.cell 14) 15

/-- Count a reset of level C or above from its source, 0 to 5 (R367, Table 14-2). -/
def State.countReset (s : State) (source : Nat) : State := (s.increment48 resetCells).raiseCell (5 + source)

/-- Latch a wake cause, 0 to 4 (R418, Table 17-4). -/
def State.latchWake (s : State) (cause : Nat) : State :=
  let v := s.cell 24
  let first := if v % 32 = 0 then clearBits v 0x700 ||| (cause <<< 8) else v
  (s.setCell 24 (first ||| 2 ^ cause)).cellBit 0 1 true

/-- Clear latched wake causes; WAKE_PENDING falls when none is left (R418). -/
def State.clearWake (s : State) (mask : Nat) : State :=
  let s := s.setCell 24 (clearBits (s.cell 24) (mask % 32))
  if s.cell 24 % 32 = 0 then s.cellBit 0 1 false else s

/-- WAKE_PENDING. -/
def State.wakePending (s : State) : Bool := bitAt (s.cell 0) 1

/-- The ALERT latch. -/
def State.alertLatch (s : State) : Bool := bitAt (s.cell 0) 2

end Sys2Proof.Machine
end

