-- ==== Sys2Proof/Machine/Faults.lean ====
section
/-!
DEFINITION. Fault sources and their actions (R370, R371), escalation and the Safe state (R372–R375), header parity
(R47), and the ALERT causes, mask and latch (R378–R380).
-/
namespace Sys2Proof.Machine

/-- The fault bits that are set, as (page, bank, sticky value): every listed cell of an index 3. -/
def State.stickies (s : State) : List (Nat × Nat × Nat) :=
  s.regs.filterMap (fun e => if keyIndex e.1 = 3 ∧ e.1 % 32 = 0 then some (keyPage e.1, keyBank e.1, e.2) else none)

/-- A source as (page, bank, bit). -/
abbrev Source := Nat × Nat × Nat

/-- The rank of R375: lowest page, then lowest bank, then lowest bit. -/
def Source.rank (x : Source) : Nat := x.1 * 4096 + x.2.1 * 32 + x.2.2

/-- The first source in the order of R375. -/
def firstSource : List Source → Option Source
  | [] => none
  | x :: l =>
    match firstSource l with
    | none => some x
    | some y => if x.rank ≤ y.rank then some x else some y

/-- The enabled sources with sticky bit 1 and a given action (R371). -/
def State.sources (s : State) (action : Nat) : List Source :=
  s.stickies.flatMap (fun e =>
    (rangeFrom 0 16).filterMap (fun i =>
      if bitAt e.2.2 i && bitAt (s.rd (faultEnable e.1 e.2.1)) i &&
          bitsOf (s.rd (faultAction e.1 e.2.1)) (2 * i) 2 == action
      then some (e.1, e.2.1, i) else none))

/-- Is a source forced (R374)? MAP_ECC is forced for a dirty page only, which its report says (R249). -/
def forcedSource (page bit : Nat) : Bool := (page == 0x08 && bit == 0) || (page == 0x24 && bit == 0) || bit == 31

/-- Is the data phase of a WRITE or FW_STAGE still to end? -/
def Cmd.dataOpen (c : Cmd) : Bool :=
  ((c.opcode == opWrite && c.count != 0) || c.opcode == opStage) &&
    (c.phase == .decoded || c.phase == .asking || c.phase == .data)

/-- End such a command of fast mode with SAFE_STATE; ID mode serves none (R78). -/
def State.endDataPhase (s : State) (q : Nat) : State :=
  match s.cmd? q with
  | some c => if c.idMode || !c.dataOpen then s else s.complete q stSafeState
  | none => s

/-- Entering the Safe state ends a WRITE or FW_STAGE whose data phase has not ended (Table 8-4). -/
def State.endDataPhases (s : State) : State :=
  (s.cmds.filter Cmd.dataOpen).foldl (fun s c => s.endDataPhase c.q) s

/-- ENTER_SAFE (R372, R375): SAFE_CAUSE is recorded once. Kinds: 1 grace expiry, 2 at once, 3 HDR_PARITY, 4 forced. -/
def State.enterSafe (s : State) (kind : Nat) (x : Source) : State :=
  if s.safe then s else
    let s := s.wr Reg.ESCALATE.STATE.SAFE 1
    let s := s.wr Reg.ESCALATE.STATE.PENDING 0
    let s := { s with esc := { s.esc with count := 0 } }
    let s := s.wr Reg.ESCALATE.SAFE_CAUSE.KIND kind
    let s := s.wr Reg.ESCALATE.SAFE_CAUSE.PAGE x.1
    let s := s.wr Reg.ESCALATE.SAFE_CAUSE.BANK (if banked x.1 then x.2.1 else 0xFF)
    let s := s.wr Reg.ESCALATE.SAFE_CAUSE.BIT x.2.2
    (s.bump Reg.DEBUG.COUNTS.SAFE_ENTRIES).endDataPhases

/-- A fault source errs (R45, R371): its sticky bit is set where enabled, attention is posted on its rise where its
action says so, and a forced source takes the card to the Safe state whatever its enable and action hold. -/
def State.report (s : State) (src : Nat × Nat) (bank : Nat := 0) (force : Bool := false) : State :=
  let b := bankOf src.1 bank
  let f := faultSticky src.1 b
  let v := s.rd f
  let s' :=
    if bitAt (s.rd (faultEnable src.1 b)) src.2 && !bitAt v src.2 then
      let s := s.wr f (v + 2 ^ src.2)
      if bitsOf (s.rd (faultAction src.1 b)) (2 * src.2) 2 = 1 then s.post (s.stickyEntry .fault src.1 b src.2) else s
    else s
  if force || forcedSource src.1 src.2 then s'.enterSafe 4 (src.1, b, src.2) else s'

/-- A header parity mismatch: the sticky bit and the Safe state, without grace (R47). -/
def State.headerParity (s : State) (page bank : Nat) : State :=
  let b := bankOf page bank
  let f := faultSticky page b
  (s.wr f (s.rd f ||| 2 ^ 31)).enterSafe 3 (page, b, 31)

/-- The levels of R371 and the steps of ESCALATION_EDGE that do not count (R372, R373): at-once sources, the opening
and closing of a pending escalation, and a COUNT at or beyond FAULT_GRACE. -/
def State.escEval (s : State) : State :=
  if s.safe then s else
  match firstSource (s.sources 3) with
  | some x => s.enterSafe 2 x
  | none =>
    match firstSource (s.sources 2) with
    | some x =>
      let s := if s.escPending then s else
        ({ (s.wr Reg.ESCALATE.STATE.PENDING 1) with esc := { s.esc with count := 0 } }).raise
          Evt.ESCALATE.PENDING_OPENED
      if s.rd Reg.ESCALATE.FAULT_GRACE.CCLK ≤ s.esc.count then s.enterSafe 1 x else s
    | none =>
      if s.escPending then
        (({ (s.wr Reg.ESCALATE.STATE.PENDING 0) with esc := { s.esc with count := 0 } }).raise
          Evt.ESCALATE.PENDING_CLOSED).bump Reg.DEBUG.COUNTS.AVERTED
      else s

/-- One CCLK edge of ESCALATION_EDGE (R372). -/
def State.escTick (s : State) : State :=
  let s := if !s.safe && s.escPending && !(s.sources 2).isEmpty then
    { s with esc := { s.esc with count := s.esc.count + 1 } } else s
  s.escEval

/-- The ALERT causes present, as Table 15-3 numbers them. -/
def State.alertPresent (s : State) : Nat :=
  bit01 s.safe + 2 * bit01 s.escPending + 4 * bit01 s.wakePending + 8 * bit01 (decide (0 < s.aqLevel 64)) +
    16 * s.rd Reg.ESCALATE.ALERT_CTRL.FORCE

/-- The mask in force of causes 2 to 4 (R379). -/
def State.alertMask (s : State) : Nat :=
  let m := if s.faultsOnly then 7 else s.rd Reg.ESCALATE.ALERT_MASK.MASK
  if s.esc.ignoreMask then clearBits m 1 else m

/-- The causes present and not masked. -/
def State.alertAsserting (s : State) : Nat := clearBits s.alertPresent (4 * s.alertMask)

/-- Write the Crust's ALERT latch; a write of the latch restarts the readback comparison (R380, R381). -/
def State.writeAlert (s : State) (causes : Nat) : State :=
  let s := (s.setCell 25 causes).cellBit 0 2 (causes != 0)
  { s with esc := { s.esc with readback := 0, written := causes } }

/-- On a CCLK edge on which the set of asserting causes has changed, the latch is written (R380). -/
def State.alertUpdate (s : State) : State :=
  if s.clocked && s.alertAsserting != s.esc.written then s.writeAlert s.alertAsserting else s

/-- Every header register is checked on every CCLK edge (R47). -/
def State.headerCheck (s : State) : State := s.esc.hdrBad.foldl (fun s e => s.headerParity e.1 e.2.1) s

/-- TEMP_ALARM is latched on every CCLK edge on which the alarm holds (R418). -/
def State.relatchAlarm (s : State) : State :=
  if s.temp.alarm && !bitAt (s.cell 24) 2 then s.latchWake 2 else s

/-- The end of a clocked step: header parity, escalation levels, the order of the edge's entries, what the link can send (a return
to ID mode posts completions on the edges after the loss edge, R204), the ALERT latch. A card whose
clocked logic stands still stays as it is. DEDUCED: log entry 13. -/
def State.settle (s : State) : State := if s.clocked then s.headerCheck.relatchAlarm.escEval.endEdge.pump.endEdge.alertUpdate else s

/-- Answer a clocked step. -/
def State.done (s : State) : Answer := .next s.settle

end Sys2Proof.Machine
end

