-- ==== Sys2Proof/Machine/Profile.lean ====
section
/-!
DEFINITION. The option store's layout (R363, Table 14-9), the population entries and Die profiles (Tables 13-3, 13-4)
and their validity (R328–R333), and what they give: the dies of a channel, the pages of a block, the channel rate.
-/
namespace Sys2Proof.Machine

/-- The bytes `a … a + n - 1` of a byte store. -/
def storeBytes (m : Store) (a n : Nat) : List Nat := (rangeFrom a n).map (storeRead m)

/-- A little-endian field of a byte store. -/
def storeLE (m : Store) (a n : Nat) : Nat := ofBytesLE (storeBytes m a n)

/-- A Die profile, field by field (Table 13-4). -/
structure Profile where
  id : Nat
  iface : Nat
  flags : Nat
  luns : Nat
  bpc : Nat
  pages : Nat
  blocks : Nat
  pageCw : Nat
  maxRate : Nat
  trMax : Nat
  trSlcMax : Nat
  tprogMax : Nat
  tprogSlcMax : Nat
  tbersMax : Nat
  tsuspMax : Nat
  trstMax : Nat
  suspendMax : Nat
  slcPrefix : Nat
  readThresh : Nat
  refreshErr : Nat
  eRated : Nat
  eRatedSlc : Nat
  patrolPage : Nat
  suspHoldMax : Nat
  tadl : Nat
  tccs : Nat
  twhr : Nat
  trhw : Nat
  tcs : Nat
  crcGood : Bool
deriving DecidableEq, Repr

/-- Read a Die profile at byte `a` of an option store copy. -/
def readProfile (m : Store) (a : Nat) : Profile :=
  { id := storeLE m a 2, iface := storeRead m (a + 2) % 4, flags := storeRead m (a + 3) % 16,
    luns := storeRead m (a + 10), bpc := storeRead m (a + 11), pages := storeLE m (a + 12) 2,
    blocks := storeLE m (a + 14) 2, pageCw := storeRead m (a + 16), maxRate := storeRead m (a + 17),
    trMax := storeLE m (a + 18) 2, trSlcMax := storeLE m (a + 20) 2, tprogMax := storeLE m (a + 22) 2,
    tprogSlcMax := storeLE m (a + 24) 2, tbersMax := storeLE m (a + 26) 2, tsuspMax := storeLE m (a + 28) 2,
    trstMax := storeLE m (a + 30) 2, suspendMax := storeRead m (a + 32), slcPrefix := storeRead m (a + 33),
    readThresh := storeLE m (a + 40) 3, refreshErr := storeRead m (a + 43), eRated := storeLE m (a + 44) 2,
    eRatedSlc := storeLE m (a + 46) 2, patrolPage := storeLE m (a + 48) 2, suspHoldMax := storeLE m (a + 50) 2,
    tadl := storeLE m (a + 52) 2, tccs := storeLE m (a + 54) 2, twhr := storeRead m (a + 56),
    trhw := storeRead m (a + 57), tcs := storeRead m (a + 58),
    crcGood := storeLE m (a + 60) 4 == crc32c (storeBytes m a 60) }

/-- PGM_SUSP, ERS_SUSP, ONE_SHOT and DQ_TRAIN. -/
def Profile.pgmSusp (p : Profile) : Bool := bitAt p.flags 0
def Profile.ersSusp (p : Profile) : Bool := bitAt p.flags 1
def Profile.oneShot (p : Profile) : Bool := bitAt p.flags 2
def Profile.dqTrain (p : Profile) : Bool := bitAt p.flags 3

/-- Is a Die profile valid (R333)? -/
def Profile.valid (p : Profile) : Bool :=
  p.crcGood && p.id != 0 && decide (p.iface ≤ 1) && (p.luns == 1 || p.luns == 2 || p.luns == 4) &&
  (p.bpc == 2 || p.bpc == 3 || p.bpc == 4) && (p.pageCw == 2 || p.pageCw == 4) &&
  decide (2 ≤ p.maxRate ∧ p.maxRate ≤ (if p.iface = 0 then 32 else 24)) &&
  decide (p.bpc ≤ p.pages ∧ p.pages ≤ 4096) && p.pages % p.bpc == 0 && p.blocks != 0 &&
  p.trMax != 0 && p.trSlcMax != 0 && p.tprogMax != 0 && p.tprogSlcMax != 0 && p.tbersMax != 0 &&
  p.tsuspMax != 0 && p.trstMax != 0 && decide (p.trstMax ≤ 300) && p.eRated != 0 && p.eRatedSlc != 0 &&
  p.slcPrefix != 0 &&
  (if p.pgmSusp then decide (1 ≤ p.suspendMax ∧ p.suspendMax ≤ 8) else p.suspendMax == 0) &&
  decide (8192 ≤ p.readThresh) && p.refreshErr != 0 && decide (p.patrolPage < p.pages) &&
  decide (p.blocks * p.pages * p.pageCw * 4096 ≤ 2 ^ 38)

/-- A population entry (Table 13-3). -/
structure Population where
  populated : Bool
  profile : Nat
  volume : Bool
  dies : Nat
deriving DecidableEq, Repr

/-- The population entry of channel `n` in an option store copy. -/
def readPopulation (m : Store) (n : Nat) : Population :=
  let v := storeLE m (16 + 2 * n) 2
  { populated := bitAt v 0, profile := bitsOf v 1 1, volume := bitAt v 2, dies := bitsOf v 4 5 }

/-- Die profile `i` of an option store copy. -/
def copyProfile (m : Store) (i : Nat) : Profile := readProfile m (48 + 64 * i)

/-- Is a population entry valid (R333, R328, R329)? -/
def Population.valid (e : Population) (p : Profile) : Bool :=
  p.valid && decide (1 ≤ e.dies ∧ e.dies ≤ 16) && e.dies % p.luns == 0 &&
  (if e.volume then p.iface == 0 else decide (e.dies ≤ 4 * p.luns))

/-- The number of channels of a part (R2). -/
def partChannels (part : Nat) : Nat := if part = 0x9118 then 8 else if part = 0x9104 then 4 else 16

/-- Is channel `n` present on this part? -/
def State.chanPresent (s : State) (n : Nat) : Bool := decide (n < partChannels s.fuses.part)

/-- Is the page's channel missing from this part (R2)? -/
def State.chanAbsent (s : State) (page : Nat) : Bool :=
  decide (0x10 ≤ page ∧ page ≤ 0x1F) && !s.chanPresent (page - 0x10)

/-- Does a write to a page's bank reach registers: not where the page's channel is absent (R2), nor in the bank of a FREE Slice
(R55)? -/
def State.reaches (s : State) (page bank : Nat) : Bool :=
  decide (page ≤ 0x28) && !s.chanAbsent page && !(banked page && (s.slice bank).st == .free)

/-- The population entry in force of channel `n`. -/
def State.population (s : State) (n : Nat) : Population := readPopulation s.opt.inForce n

/-- Is channel `n` present and marked populated (CH_POPULATED)? -/
def State.chanMarked (s : State) (n : Nat) : Bool := s.chanPresent n && (s.population n).populated

/-- The Die profile in use on channel `n`: its entry is populated and valid. -/
def State.chanProfile (s : State) (n : Nat) : Option Profile :=
  let e := s.population n
  let p := copyProfile s.opt.inForce e.profile
  if s.chanMarked n && e.valid p then some p else none

/-- The Die profile of die `d`. -/
def State.dieProfile (s : State) (d : Nat) : Option Profile := s.chanProfile (d / 16)

/-- Pages per block of die `d` in the data region, 0 without a profile. -/
def State.pagesOf (s : State) (d : Nat) : Nat := ((s.dieProfile d).map (fun p => p.pages)).getD 0

/-- Codeword slots per page of die `d`. -/
def State.slotsOf (s : State) (d : Nat) : Nat := ((s.dieProfile d).map (fun p => p.pageCw)).getD 0

/-! The option store copies (R363, R364). -/

/-- MAGIC "SQO1". -/
def optMagic : List Nat := [0x53, 0x51, 0x4F, 0x31]

/-- Do MAGIC, LAYOUT and CRC check (R364)? -/
def copyValid (m : Store) : Bool :=
  storeBytes m 0 4 == optMagic && storeLE m 8 2 == 1 && storeLE m 508 4 == crc32c (storeBytes m 0 508)

/-- SEQ of a copy. -/
def copySeq (m : Store) : Nat := storeLE m 4 4

/-- The defaults of R364: ADMIN_ORIG 0x01 and nothing else. -/
def optDefaults : Store := [(10, 1)]

/-- Are the bytes that Table 14-9 reserves, the reserved bits of MODE and of the population entries, and the reserved
bits and byte of the profiles, all 0 (R366)? -/
def reservedClear (m : Store) : Bool :=
  (storeBytes m 12 4).all (fun b => b == 0) && (storeBytes m 176 332).all (fun b => b == 0) &&
  storeRead m 11 / 8 == 0 &&
  (rangeFrom 0 16).all (fun n => let v := storeLE m (16 + 2 * n) 2; !bitAt v 3 && v / 512 == 0) &&
  (rangeFrom 0 2).all (fun i =>
    let a := 48 + 64 * i
    storeRead m (a + 2) / 4 == 0 && storeRead m (a + 3) / 16 == 0 && storeRead m (a + 59) == 0)

end Sys2Proof.Machine
end

