-- ==== Sys2Proof/Machine/Flash.lean ====
section
/-!
DEFINITION. Dies, blocks and pages; read counts and refresh flags (R267–R270), retirement, spares and LIFE (R290–R297),
free blocks, starvation and Upkeep debt (R257, R258, R265, R266).
-/
namespace Sys2Proof.Machine

/-! Dies and blocks. -/

/-- A block that has never been used: each recovery has found it erased and has raised its count by a checkpoint (R271,
R295). -/
def freshBlock (d n r : Nat) : Block :=
  { die := d, num := n, st := .erased, erases := r, reads := min (4096 * r) 0xFFFFFF, ckpt := min (4096 * r) (2 ^ 24), due := none,
    flagged := false, wlFlag := false, sb := none, used := 0 }

/-- Block `n` of die `d`. -/
def State.block (s : State) (d n : Nat) : Block :=
  (s.flash.blocks.find? (fun b => b.die == d && b.num == n)).getD (freshBlock d n s.flash.recoveries)

/-- Put a block in its place in the order of dies and numbers. -/
def insertBlock (b : Block) : List Block → List Block
  | [] => [b]
  | c :: l => if b.die < c.die ∨ (b.die = c.die ∧ b.num < c.num) then b :: c :: l else c :: insertBlock b l

/-- Change a block; one that is as never used is not listed. -/
def State.setBlock (s : State) (d n : Nat) (f : Block → Block) : State :=
  let b := f (s.block d n)
  let rest := s.flash.blocks.filter (fun c => !(c.die == d && c.num == n))
  s.onFlash (fun fl => { fl with blocks := if b == freshBlock d n fl.recoveries then rest else insertBlock b rest })

/-- The region of block `n` of a die. -/
def Die.region (x : Die) (n : Nat) : Region :=
  if n < x.nSystem then .system
  else if n < x.nSystem + x.nMap then .map
  else if n < x.nSystem + x.nMap + x.nParity then .parity
  else .data

/-- The region of a block. -/
def State.regionOf (s : State) (d n : Nat) : Region :=
  match s.die? d with
  | some x => x.region n
  | none => .data

/-- First data block of a die. -/
def Die.firstData (x : Die) : Nat := x.nSystem + x.nMap + x.nParity

/-- The dies in use. -/
def State.goodDies (s : State) : List Die := s.flash.dies.filter (fun x => x.present && !x.failed)

/-- Is die `d` in use? -/
def State.dieGood (s : State) (d : Nat) : Bool := s.goodDies.any (fun x => x.id == d)

/-- Channels that carry dies in use or not: populated, valid and present (R331, R333). -/
def State.populated (s : State) : List Nat := (rangeFrom 0 16).filter (fun n => (s.chanProfile n).isSome)

/-- A counter of die `d`'s channel page. -/
def State.chTally (s : State) (f : Field) (d : Nat) : State := s.tally (f.ofChannel (d / 16))

/-! Mapped sectors of a block. -/

/-- Does a map entry lie in this block? -/
def MapEntry.inBlock (e : MapEntry) (d b : Nat) : Bool :=
  match e.loc with
  | .at d' b' _ _ => d' == d && b' == b
  | _ => false

/-- Does a map entry lie in this page? -/
def MapEntry.inPage (e : MapEntry) (d b p : Nat) : Bool :=
  match e.loc with
  | .at d' b' p' _ => d' == d && b' == b && p' == p
  | _ => false

/-- Does the block hold a mapped sector? -/
def State.holdsMapped (s : State) (d b : Nat) : Bool :=
  s.flash.map.entries.any (fun e => e.inBlock d b) || s.flash.map.ghosts.any (fun e => e.inBlock d b)

/-- A valid page holds at least one mapped sector (R256). -/
def State.pageValid (s : State) (d b p : Nat) : Bool :=
  s.flash.map.entries.any (fun e => e.inPage d b p) || s.flash.map.ghosts.any (fun e => e.inPage d b p)

/-- The valid pages of a block, in order. -/
def State.validPages (s : State) (d b : Nat) : List Nat :=
  (rangeFrom 0 (s.block d b).used).filter (fun p => s.pageValid d b p)

/-! Read counts and refresh flags. -/

/-- The refresh threshold in force for a die (R268). -/
def State.threshold (s : State) (d : Nat) : Nat :=
  match s.dieProfile d with
  | some p => p.readThresh / 2 ^ s.flash.upkeep.halvings
  | none => 0

/-- Flag a block for refresh: only one of the data region that holds a mapped sector (R269). -/
def State.flagBlock (s : State) (d b : Nat) : State :=
  if s.regionOf d b == .data && s.holdsMapped d b then s.setBlock d b (fun x => { x with flagged := true }) else s

/-- The read count rises; the next checkpoint falls due at D + 3,072 (R267, R270). -/
def Block.addReads (b : Block) (n : Nat) : Block :=
  let r := satAdd b.reads n 0xFFFFFF
  { b with reads := r, due := if b.due.isNone && decide (b.ckpt + 3072 ≤ r) then some (b.ckpt + 4096) else b.due }

/-- Pages of a block of die `d` in SLC mode: one per word line (R274, R388). -/
def State.slcPages (s : State) (d : Nat) : Nat :=
  match s.dieProfile d with
  | some p => p.pages / max 1 p.bpc
  | none => 0

/-- The copies of map pages that a block of the map region holds (R245). -/
def State.copiesIn (s : State) (d b : Nat) : Nat :=
  count (fun (c : MapCopy) => c.places.contains (d, b)) s.flash.map.onFlash

/-- The block of a map region that is written next: one that was never written, otherwise the one that holds the fewest copies in force,
the first of them. -/
def State.nextMapBlock (s : State) (d cur : Nat) (blocks : List Nat) : Nat :=
  match blocks.find? (fun n => n != cur && (s.block d n).used == 0) with
  | some n => n
  | none =>
    ((blocks.filter (fun n => n != cur)).foldl (fun (m : Option Nat) n =>
      match m with
      | none => some n
      | some k => if s.copiesIn d n < s.copiesIn d k then some n else some k) none).getD cur

/-- A block of the map region is erased for new pages; the copies in force that it held are written again at its start. -/
def State.renewMapBlock (s : State) (d n : Nat) : State :=
  if (s.block d n).used = 0 then s
  else
    let k := s.copiesIn d n
    let s := (s.chTally Reg.CH.ERASES.COUNT d).tally (Reg.CH.PROGRAMS.COUNT.ofChannel (d / 16)) k
    s.setBlock d n (fun b => { b with erases := b.erases + 1, used := k, reads := 0, due := some 0 })

/-- One page programmed into the map region of die `d`: into its open block, or into the next, erased first where it holds old copies.
Answers the block, where the die has a map region. Which block comes next is the model's choice: log entry 30. -/
def State.mapProgram (s : State) (d : Nat) : State × Option Nat :=
  match s.die? d with
  | none => (s, none)
  | some x =>
    if x.nMap = 0 then (s, none) else
    let s := s.chTally Reg.CH.PROGRAMS.COUNT d
    let blocks := (rangeFrom x.nSystem x.nMap).filter (fun n => (s.block d n).st != .retired)
    let cur := (blocks.find? (fun n => (s.block d n).st == .open)).getD (blocks.headD x.nSystem)
    let bump (s : State) (n : Nat) : State := s.setBlock d n (fun b => { b with st := .open, used := b.used + 1 })
    if (s.block d cur).used < s.slcPages d then (bump s cur, some cur)
    else
      let next := s.nextMapBlock d cur blocks
      let s := s.setBlock d cur (fun b => { b with st := .closed })
      (bump (s.renewMapBlock d next) next, some next)

/-- The two dies that hold the copies of map data: the lowest good die of each of the two lowest channels, or the two lowest
dies of the one channel (R245). -/
def State.mapDies (s : State) : List Nat :=
  let ids := s.goodDies.map (fun x => x.id)
  match ids with
  | [] => []
  | d :: l =>
    match l.find? (fun e => e / 16 != d / 16) with
    | some e => [d, e]
    | none => d :: l.take 1

/-- One counter cell's grant: GRANTS, WAITS, LONGEST_WAIT (R238). -/
def countIn (who chan waited : Nat) : List ArbCount → List ArbCount
  | [] => [{ who := who, chan := chan, grants := 1, waits := if waited = 0 then 0 else 1, longest := waited }]
  | c :: l =>
    if c.who = who ∧ c.chan = chan then
      { c with grants := satAdd c.grants 1 (ones 32), waits := satAdd c.waits (if waited = 0 then 0 else 1) (ones 32),
               longest := min (max c.longest waited) (ones 32) } :: l
    else c :: countIn who chan waited l

/-- Count a grant of die `d` (R238); a counter that reaches its maximum is reported. Housekeeping has no counter. -/
def State.countGrant (s : State) (who d waited : Nat) : State :=
  if 67 < who then s else
  let full (l : List ArbCount) : Bool :=
    l.any (fun c => c.who == who && c.chan == d / 16 && (c.grants == ones 32 || c.waits == ones 32 || c.longest == ones 32))
  let before := full s.flash.arb
  let s := s.onFlash (fun fl => { fl with arb := countIn who (d / 16) waited fl.arb })
  if !before && full s.flash.arb then s.raise Evt.ARBCNT.SATURATED else s

/-- Program one page in both copies of the map region at once, each a step of the map engine (R222). Answers the places. -/
def State.mapWrite (s : State) : State × List (Nat × Nat) :=
  s.mapDies.foldl (fun (a : State × List (Nat × Nat)) d =>
    let r := (a.1.countGrant 66 d 0).mapProgram d
    match r.2 with
    | some b => (r.1, a.2 ++ [(d, b)])
    | none => (r.1, a.2)) (s, [])

/-- The same for a record whose place nothing reads. -/
def State.mapCopies (s : State) : State := s.mapWrite.1

/-- Every due checkpoint is durable (R270). -/
def State.checkpointsPassed (s : State) : State :=
  s.onFlash (fun fl => { fl with blocks := fl.blocks.map (fun (b : Block) =>
    match b.due with
    | some d => { b with ckpt := d, due := none }
    | none => b) })

/-- Is a checkpoint due? -/
def State.checkpointDue (s : State) : Bool := s.flash.blocks.any (fun b => b.due.isSome)

/-- Write the due checkpoints in one batch (R270). -/
def State.checkpointBatch (s : State) : State := if s.checkpointDue then s.mapCopies.checkpointsPassed else s

/-- Does one more read of the block need the batch first (R270)? -/
def State.readNeedsBatch (s : State) (d b : Nat) : Bool :=
  let x := s.block d b
  x.due.isSome && decide (x.ckpt + 4096 ≤ x.reads)

/-- One array read of a block: the batch first where it must come first, the counters, the flag at the threshold
(R267, R269, R270). `urgent` reads that carry a batch are counted. -/
def State.arrayRead (s : State) (d b : Nat) (urgent : Bool := false) : State :=
  let s := if s.readNeedsBatch d b then
    let s := s.checkpointBatch
    if urgent then s.bump Reg.FTL.CKPT.URGENT_CARRIED else s
    else s
  let s := s.chTally Reg.CH.ARRAY_READS.COUNT d
  let s := s.setBlock d b (fun x => x.addReads 1)
  if s.threshold d ≤ (s.block d b).reads then s.flagBlock d b else s

/-! Free blocks, starvation, debt. -/

/-- FREE_BLOCKS: erased good blocks of the data region (Table 10-10). -/
def State.freeBlocks (s : State) : Nat :=
  sumBy (fun (x : Die) =>
    x.nData - count (fun b => b.die == x.id && x.region b.num == .data && b.st != .erased) s.flash.blocks) s.goodDies

/-- Sectors of the smallest data-region block among the dies. -/
def State.smallestBlock (s : State) : Nat :=
  s.flash.dies.foldl (fun m x =>
    let n := s.pagesOf x.id * s.slotsOf x.id
    if m = 0 ∨ n < m then n else m) 0

/-- RESERVE as set at start-up (R265). -/
def State.computeReserve (s : State) : Nat :=
  let n := s.smallestBlock
  (if n = 0 then 0 else ceilDiv 262144 n) + 2 * s.flash.dies.length

/-- Is a block Proofing: does it belong to a superblock that has not been released (R285)? -/
def State.proofing (s : State) (b : Block) : Bool :=
  match b.sb with
  | some i => s.flash.superblocks.any (fun x => x.id == i)
  | none => false

/-- The closed data blocks that are not Proofing, with their valid pages, fewest first (R256). -/
def State.victims (s : State) : List (Nat × Block) :=
  let l := (s.flash.blocks.filter (fun b => b.st == .closed && !s.proofing b && s.dieGood b.die &&
    s.regionOf b.die b.num == .data)).map (fun b => ((s.validPages b.die b.num).length, b))
  l.foldl (fun acc x => (acc.filter (fun y => y.1 ≤ x.1)) ++ [x] ++ acc.filter (fun y => x.1 < y.1)) []

/-- The shortfall S (R257). -/
def State.shortfall (s : State) : Nat := s.rd Reg.UPKEEP.FREE_TARGET.BLOCKS - s.freeBlocks

/-- DEBT_GC = S + V. -/
def State.debtGc (s : State) : Nat := s.shortfall + sumBy (fun x => x.1) (s.victims.take s.shortfall)

/-- DEBT_VERIFY. -/
def State.debtVerify (s : State) : Nat :=
  sumBy (fun x => if x.st == SbState.open then 0 else x.awaiting.length) s.flash.superblocks +
    s.flash.upkeep.patrol.length

/-- DEBT_REFRESH. -/
def State.debtRefresh (s : State) : Nat :=
  sumBy (fun b => if b.flagged then (s.validPages b.die b.num).length else 0) s.flash.blocks

/-- Upkeep debt (R257). -/
def State.debt (s : State) : Nat := s.debtGc + s.debtVerify + s.debtRefresh

/-- FORCING (R258). -/
def State.forcing (s : State) : Bool :=
  s.rd Reg.UPKEEP.DEBT_HARD.STEPS != 0 && decide (s.rd Reg.UPKEEP.DEBT_HARD.STEPS ≤ s.debt)

/-- Did a value rise through a threshold that is not 0? -/
def crossed (th before after : Nat) : Bool := th != 0 && decide (before < th) && decide (th ≤ after)

/-- Recompute the debt; report upward crossings (R258). -/
def State.debtSettle (s : State) : State :=
  let before := s.flash.upkeep.debt
  let now := s.debt
  let s := s.onFlash (fun fl => { fl with upkeep := { fl.upkeep with debt := now } })
  let s := if crossed (s.rd Reg.UPKEEP.DEBT_SOFT.STEPS) before now then s.raise Evt.UPKEEP.SOFT_CROSSED else s
  if crossed (s.rd Reg.UPKEEP.DEBT_HARD.STEPS) before now then s.raise Evt.UPKEEP.HARD_CROSSED else s

/-- Starvation (R266). -/
def State.starveSettle (s : State) : State :=
  let free := s.freeBlocks
  let u := s.flash.upkeep
  if u.starved then
    if u.reserve + s.flash.dies.length ≤ free then
      s.onFlash (fun fl => { fl with upkeep := { fl.upkeep with starved := false } })
    else s
  else if s.power.recovered && decide (free ≤ u.reserve) then
    ((s.onFlash (fun fl => { fl with upkeep := { fl.upkeep with starved := true } })).raise Evt.UPKEEP.STARVED).bump
      Reg.UPKEEP.STARVE.ENTRIES
  else s

/-! LIFE (R297). -/

/-- A value kept per channel. -/
def chanValue (l : List (Nat × Nat)) (n : Nat) : Nat :=
  match l.find? (fun e => e.1 == n) with
  | some e => e.2
  | none => 0

/-- Set a value kept per channel. -/
def setChanValue (l : List (Nat × Nat)) (n v : Nat) : List (Nat × Nat) :=
  l.filter (fun e => decide (e.1 < n)) ++ (n, v) :: l.filter (fun e => decide (n < e.1))

/-- Blocks of a region on a die. -/
def Die.regionSize (x : Die) : Region → Nat
  | .data => x.nData
  | .map => x.nMap
  | .parity => x.nParity
  | .system => x.nSystem

/-- The dies of channel `n`. -/
def State.chanDies (s : State) (n : Nat) : List Die := s.flash.dies.filter (fun x => x.id / 16 == n)

/-- The listed blocks of a region on channel `n` that are not retired. -/
def State.regionBlocks (s : State) (n : Nat) (r : Region) : List Block :=
  s.flash.blocks.filter (fun b => b.die / 16 == n && s.dieGood b.die && s.regionOf b.die b.num == r &&
    b.st != .retired)

/-- The blocks of a region on channel `n` that are not retired. -/
def State.regionCount (s : State) (n : Nat) (r : Region) : Nat :=
  sumBy (fun (x : Die) => if x.failed then 0 else x.regionSize r -
    count (fun b => b.die == x.id && x.region b.num == r && b.st == .retired) s.flash.blocks) (s.chanDies n)

/-- The erase counts of a region on channel `n`: their sum over the blocks that are not retired. -/
def State.eraseSum (s : State) (n : Nat) (r : Region) : Nat :=
  let l := s.regionBlocks n r
  sumBy (fun b => b.erases) l + (s.regionCount n r - l.length) * s.flash.recoveries

/-- The highest erase count of a region on channel `n`. -/
def State.eraseMax (s : State) (n : Nat) (r : Region) : Nat :=
  let l := s.regionBlocks n r
  max (maxBy (fun b => b.erases) l) (if l.length < s.regionCount n r then s.flash.recoveries else 0)

/-- A fraction num / den as a pair. -/
abbrev Frac := Nat × Nat

/-- The smaller of two fractions. -/
def Frac.min (a b : Frac) : Frac := if b.1 * a.2 < a.1 * b.2 then b else a

/-- The P/E fraction of a region on channel `n`. DEDUCED: log entry 41. -/
def State.peFraction (s : State) (n : Nat) (r : Region) : Frac :=
  match s.chanProfile n with
  | none => (0, 1)
  | some p =>
    let rated := if r == .data then p.eRated else p.eRatedSlc
    let k := s.regionCount n r
    if k * rated = 0 then (0, 1) else (k * rated - s.eraseSum n r, k * rated)

/-- The spare fraction of channel `n`. -/
def State.spareFraction (s : State) (n : Nat) : Frac :=
  let i := chanValue s.flash.wear.spareInit n
  if i = 0 then (0, 1) else (chanValue s.flash.wear.spare n, i)

/-- The P/E fraction of channel `n`: the smallest of its three regions. -/
def State.chanPe (s : State) (n : Nat) : Frac :=
  Frac.min (Frac.min (s.peFraction n .data) (s.peFraction n .map)) (s.peFraction n .parity)

/-- The smallest fraction with the channel and the kind (0 spares, 1 P/E) that give it. -/
def State.lifeLimit (s : State) : Frac × Nat × Nat :=
  s.populated.foldl (fun m n =>
    let m := if (s.spareFraction n).1 * m.1.2 < m.1.1 * (s.spareFraction n).2 then (s.spareFraction n, n, 0) else m
    if (s.chanPe n).1 * m.1.2 < m.1.1 * (s.chanPe n).2 then (s.chanPe n, n, 1) else m) ((1, 1), s.populated.headD 0, 0)

/-- ceil(100 × f). -/
def lifeOf (f : Frac) : Nat := (100 * f.1 + f.2 - 1) / f.2

/-- Recompute LIFE; each fall is reported. -/
def State.lifeSettle (s : State) : State :=
  if s.flash.wear.format != .formatted then s else
  let now := lifeOf s.lifeLimit.1
  let before := s.flash.wear.life
  let s := s.onFlash (fun fl => { fl with wear := { fl.wear with life := now } })
  if now < before then s.raise Evt.WEAR.LIFE_DROPPED else s

/-! Withdrawal. -/

/-- Withdraw the requests that `p` selects on one die: waiting ones go, a granted, suspended or `begun` operation is orphaned
(R233). An admitted request's withdrawal leaves U as it is. -/
def Die.withdraw (x : Die) (p begun : Req → Bool) : Die :=
  let left := (x.fifo ++ x.waiting ++ x.lower ++ x.queued).filter (fun r => p r && begun r)
  let x := { x with fifo := x.fifo.filter (fun r => !p r), waiting := x.waiting.filter (fun r => !p r),
                    lower := x.lower.filter (fun r => !p r), queued := x.queued.filter (fun r => !p r),
                    orphans := x.orphans ++ left }
  let x := match x.preempted with
    | some r => if p r then { x with preempted := none, orphans := if x.suspended then r :: x.orphans
                                                       else if begun r then x.orphans ++ [r] else x.orphans }
        else x
    | none => x
  match x.holder with
  | some (.step r) => if p r then { x with holder := some (.orphan r) } else x
  | some (.resetLun (some r) o) =>
    if p r then { x with holder := some (.resetLun (if begun r || (r.inArray && r.op != .read) then some r else none) true) }
    else { x with holder := some (.resetLun (some r) o) }
  | some (.resetLun none _) => x
  | some .reconfig => x
  | some (.orphan _) => x
  | none => x

/-- Does a request serve one command and nothing beside it? -/
def Work.ofCommand : Work → Bool
  | .sector _ => true
  | .soft _ => true
  | .page => true
  | .mapRead _ _ => false
  | .job _ => false
  | .forced => false
  | .other => false

/-- The map page that a step reads. -/
def Work.mapPage? : Work → Option (Nat × Nat)
  | .mapRead i idx => some (i, idx)
  | .sector _ => none
  | .soft _ => none
  | .page => none
  | .job _ => none
  | .forced => none
  | .other => none

/-- Has the data page of a request been given its place already (R277)? -/
def State.pageHeld (s : State) (d : Nat) (r : Req) : Bool :=
  r.work == .page && s.flash.pages.any (fun p => p.die == d && p.block == r.block && p.page == r.page && p.running)

/-- Withdraw what a command has presented; a carried upkeep step that has not been granted goes with it (R264). -/
def State.withdraw (s : State) (q : Nat) : State :=
  s.onFlash (fun fl => { fl with
    dies := fl.dies.map (fun (x : Die) =>
      let x := x.withdraw (fun r => r.q == q && r.work.ofCommand) (s.pageHeld x.id)
      let keep (r : Req) : Bool := !(r.q == q && r.work == .forced)
      { x with lower := x.lower.filter keep, queued := x.queued.filter keep })
    words := fl.words.filter (fun w => w.q != q) })

/-- The requests of the engines that no Rest window backs any more are taken back (R259). -/
def State.sweepEngines (s : State) : State :=
  if s.cmds.any (fun c => c.opcode == opRest && c.phase == .waiting) then s
  else s.onFlash (fun fl => { fl with dies := fl.dies.map (fun (x : Die) =>
    { x with lower := x.lower.filter (fun r => r.work != .other), queued := x.queued.filter (fun r => r.work != .other) }) })

/-- Snapshots of commands that are over are dropped (R14). -/
def State.snapSweep (s : State) : State :=
  s.onFlash (fun fl => { fl with map := { fl.map with
    snaps := fl.map.snaps.filter (fun n => s.cmds.any (fun c => c.q == n.q && !c.done?)) } })

/-- Complete a command and withdraw what it has presented (R211, R216, R233). -/
def State.endCmd (s : State) (q status : Nat) (result : Nat := 0) : State :=
  ((s.withdraw q).complete q status result).sweepEngines.snapSweep

/-! Jobs: programs outside the data region that a command or a step awaits (R222, R281). -/

/-- A job is noted once. -/
def State.addJob (s : State) (b : Bearer) (w : JobWork) (dies : List Nat) : State :=
  if s.flash.jobs.any (fun j => j.work == w) then s
  else s.onFlash (fun fl => { fl with jobs := fl.jobs ++ [{ id := fl.nextJob, bearer := b, work := w, dies := dies, places := [] }],
                                      nextJob := fl.nextJob + 1 })

/-- Has a command jobs that have not ended? -/
def State.jobsOf (s : State) (q : Nat) : Bool := s.flash.jobs.any (fun j => j.bearer.q == some q)

/-- A WRITE or TRIM ends with a status before its end. A TRIM of which ranges have taken effect first programs their trim record
(R253). -/
def State.endTrim (s : State) (q status : Nat) : State :=
  match s.cmd? q with
  | some c =>
    if c.opcode = opTrim ∧ 0 < c.done then
      if c.phase = .recording ∨ c.done? = true then s
      else (s.setCmd q (fun c => { c with phase := .recording })).addJob
        { who := 66, q := some q, cls := .steady, weight := s.rd Reg.ARB.ENGINE_W.MAP_W } (.trimRecord q status) s.mapDies
    else s.endCmd q status
  | none => s

/-- The completion fields of a REST: DEBT and STEPS (R124, R260). -/
def State.restResult (s : State) (c : Cmd) : Nat := s.debt % 2 ^ 64 + 2 ^ 64 * (c.steps % 2 ^ 32)

/-- The command ends ABORTED at a boundary (R128, Table 5-8). -/
def State.abortNow (s : State) (c : Cmd) : State :=
  if c.opcode = opRest then s.endCmd c.q stAborted (s.restResult c) else s.endTrim c.q stAborted

/-! Read-only (R275, R293). -/

/-- Dies in use of profile `i`. -/
def State.profileDies (s : State) (i : Nat) : List Die :=
  s.goodDies.filter (fun x => (s.population (x.id / 16)).profile == i)

/-- Is the card read-only under chapter 11? -/
def Wear.readOnly (w : Wear) : Bool := w.roSpares || w.roPe || w.roNoParity || w.roWearLost

/-- The causes of R293 as they stand now, added to those held. -/
def State.wearCauses (s : State) : Wear :=
  let w := s.flash.wear
  let formatted := w.format == .formatted
  { w with
    roSpares := w.roSpares || (formatted && s.populated.any (fun n => chanValue w.spare n == 0))
    roPe := w.roPe || (formatted && s.populated.any (fun n => (s.chanPe n).1 == 0))
    roNoParity := w.roNoParity ||
      (s.power.recovered && (s.profileDies 0).length < 3 && (s.profileDies 1).length < 3) }

/-- The edge on which the card becomes read-only: every WRITE and TRIM whose status is not fixed completes READ_ONLY
(R293). -/
def State.readOnlySettle (s : State) : State :=
  let w := s.wearCauses
  let entered := w.readOnly && !s.flash.wear.readOnly
  let s := s.onFlash (fun fl => { fl with wear := w })
  if entered then
    let s := s.raise Evt.WEAR.READ_ONLY
    (s.cmds.filter (fun c => (c.opcode == opWrite || c.opcode == opTrim) && c.working && c.count != 0)).foldl
      (fun s c => s.endTrim c.q stReadOnly) s
  else s

/-- A patrol round that owes nothing more has ended (R269). -/
def State.patrolSettle (s : State) : State :=
  if s.flash.upkeep.patrolActive && s.flash.upkeep.patrol.isEmpty then
    (s.onFlash (fun fl => { fl with upkeep := { fl.upkeep with patrolActive := false } })).raise Evt.UPKEEP.PATROL_DONE
  else s

/-- What every change of the flash side brings about: LIFE, read-only, starvation, the end of a patrol round, debt. -/
def State.flashSettle (s : State) : State := s.lifeSettle.readOnlySettle.starveSettle.patrolSettle.debtSettle

/-! Retirement. -/

/-- Retire a block: a spare is drawn, the retirement is recorded (R291, R292). -/
def State.retire (s : State) (d b : Nat) : State :=
  if (s.block d b).st == .retired then s
  else
    let s := s.setBlock d b (fun x => { x with st := .retired })
    let n := d / 16
    let s := s.onFlash (fun fl => { fl with wear := { fl.wear with
      spare := setChanValue fl.wear.spare n (chanValue fl.wear.spare n - 1)
      retired := setChanValue fl.wear.retired n (chanValue fl.wear.retired n + 1) } })
    s.raise Evt.WEAR.RETIRED

/-- A block is erased: counts and marks as R254, R267, R270, R291 say. -/
def State.eraseBlock (s : State) (d b : Nat) : State :=
  let s := s.chTally Reg.CH.ERASES.COUNT d
  let s := s.onFlash (fun fl => { fl with
    pages := fl.pages.filter (fun p => !(p.die == d && p.block == b))
    map := { fl.map with ghosts := fl.map.ghosts.filter (fun e => !e.inBlock d b) }
    upkeep := { fl.upkeep with patrol := fl.upkeep.patrol.filter (fun e => e != (d, b)) } })
  s.setBlock d b (fun x =>
    { x with st := .erased, erases := x.erases + 1, reads := 0,
             due := some 0, flagged := false, wlFlag := false, sb := none, used := 0 })

/-- Wear levelling (R298): on each channel at most one flag, on the closed unflagged block with the lowest count, when
the highest count exceeds it by more than WL_SPREAD. -/
def State.wearLevel (s : State) (d : Nat) : State :=
  let n := d / 16
  let spread := s.rd Reg.WEAR.WL_CFG.WL_SPREAD
  let bs := s.regionBlocks n .data
  if spread = 0 ∨ s.rd (enableBit 0x0F 0) = 0 ∨ bs.any (fun b => b.wlFlag) then s
  else
    let top := s.eraseMax n .data
    let low := (bs.filter (fun b => b.st == .closed && !b.flagged)).foldl (fun (m : Option Block) b =>
      match m with
      | none => some b
      | some x => if b.erases < x.erases then some b else some x) none
    match low with
    | some b =>
      if b.erases + spread < top then
        let s := s.flagBlock b.die b.num
        s.setBlock b.die b.num (fun x => { x with wlFlag := x.flagged })
      else s
    | none => s

end Sys2Proof.Machine
end

