-- ==== Sys2Proof/Machine/Arbiter.lean ====
section
/-!
DEFINITION. The die arbiters (chapter 9: R222–R238) with the gates of R186, R262, R310, R408 and R425: the channel bus, presentation and
admission, pre-emption, the choice of a lower-class step, charging, withdrawal and the counters.
-/
namespace Sys2Proof.Machine

/-! Requests. -/

/-- The weight of an engine's steady requests (Table 9-1). -/
def State.engineWeight (s : State) (who : Nat) : Nat :=
  s.rd (if who = 64 then Reg.ARB.ENGINE_W.REST_W else if who = 65 then Reg.ARB.ENGINE_W.VERIFY_W
    else if who = 66 then Reg.ARB.ENGINE_W.MAP_W else Reg.ARB.ENGINE_W.REFRESH_W)

/-- Class and weight of a request of Slice `i` (Table 9-1, R185); an urgent read is presented as steady with weight 255 while
URGENT_CAP reads 0 (R224). -/
def State.sliceClass (s : State) (i : Nat) (op : OpKind) : ReqClass × Nat :=
  let c := (s.slice i).cfg
  if c.cls = 0 then
    if op == .read && s.rd Reg.ARB.URGENT.URGENT_CAP != 0 then (.urgent, 0) else (.steady, 255)
  else if c.cls = 1 then (.steady, c.weight)
  else (.bulk, 0)

/-- The map engine as the bearer of map work, for a command or for none (Table 9-1). -/
def State.mapBearer (s : State) (q : Option Nat) : Bearer := { who := 66, q := q, cls := .steady, weight := s.engineWeight 66 }

/-- A fresh request. -/
def newReq (who q : Nat) (cls : ReqClass) (weight : Nat) (op : OpKind) (block page : Nat) (work : Work) : Req :=
  { who := who, q := q, cls := cls, weight := weight, op := op, block := block, page := page, work := work, waited := 0,
    progress := 0, held := 0, inArray := false }

/-- A request of Slice `i` for command `q`. -/
def State.sliceReq (s : State) (i q : Nat) (op : OpKind) (block page : Nat) (work : Work) : Req :=
  newReq i q (s.sliceClass i op).1 (s.sliceClass i op).2 op block page work

/-- A map page read of the map engine (R222): at the class of the command it serves, and steady for none. -/
def State.mapReq (s : State) (q slice idx block : Nat) (serves : Bool) : Req :=
  let c := s.sliceClass slice .read
  let w := s.engineWeight 66
  newReq 66 q (if serves then c.1 else .steady)
    (if serves && c.1 == .steady && (s.slice slice).cfg.cls == 0 then c.2 else w) .read block 0 (.mapRead slice idx)

/-- The request of a step, whoever holds it. -/
def Holder.req? : Holder → Option Req
  | .step r => some r
  | .orphan r => some r
  | .resetLun _ _ => none
  | .reconfig => none

/-- The requests that a requester has on a die: presented, granted or suspended. -/
def Die.reqs (x : Die) : List Req :=
  x.fifo ++ x.waiting ++ x.lower ++ x.preempted.toList ++
    (match x.holder with
      | some (.step r) => [r]
      | some (.resetLun (some r) orphan) => if orphan then [] else [r]
      | some (.resetLun none _) => []
      | some .reconfig => []
      | some (.orphan _) => []
      | none => [])

/-- Has a requester something on the die? -/
def Die.hasReq (x : Die) (who : Nat) : Bool := x.reqs.any (fun r => r.who == who)

/-- The dies that a Slice holds (R186). -/
def State.diesHeld (s : State) (i : Nat) : Nat := count (fun (x : Die) => x.hasReq i) s.flash.dies

/-- Does a Slice's die cap keep a request for die `d` in the Slice's own queue (R186)? -/
def State.dieCapped (s : State) (i d : Nat) : Bool :=
  let cap := (s.slice i).cfg.dieCap
  cap != 0 && decide (cap ≤ s.diesHeld i) &&
    !(match s.die? d with
      | some x => x.hasReq i
      | none => false)

/-! The bus of a channel (R229). -/

/-- Change a channel. -/
def State.setChan (s : State) (n : Nat) (f : Chan → Chan) : State :=
  s.onFlash (fun fl => { fl with chans := mapIf (fun (c : Chan) => c.id == n) f fl.chans })

/-- Does an urgent step hold the die? -/
def State.urgentHolds (s : State) (d : Nat) : Bool :=
  match s.die? d with
  | some x =>
    (match x.holder with
      | some (.step r) => r.cls == .urgent
      | some (.orphan _) => false
      | some (.resetLun _ _) => false
      | some .reconfig => false
      | none => false)
  | none => false

/-- The next die on the bus: urgent steps first, otherwise in the order in which the steps came to need it. -/
def State.nextOnBus (s : State) (l : List Nat) : Option Nat :=
  match l.find? s.urgentHolds with
  | some d => some d
  | none => l.head?

/-- The bus is granted where it is free. -/
def State.grantBus (s : State) (n : Nat) : State :=
  match s.flash.chans.find? (fun c => c.id == n) with
  | none => s
  | some c =>
    if c.bus.isSome then s
    else match s.nextOnBus c.busWait with
      | some d => s.setChan n (fun c => { c with bus := some d, busWait := c.busWait.erase d, beat := 0 })
      | none => s

/-- A step comes to need the bus, for its first codeword slot. -/
def State.needBus (s : State) (d : Nat) : State :=
  ((s.setDie d (fun x => { x with moved := 0 })).setChan (d / 16) (fun c =>
    { c with busWait := if c.bus == some d || c.busWait.contains d then c.busWait else c.busWait ++ [d] })).grantBus (d / 16)

/-- A step no longer needs the bus. -/
def State.leaveBus (s : State) (d : Nat) : State :=
  (s.setChan (d / 16) (fun c =>
    { c with bus := if c.bus == some d then none else c.bus, busWait := c.busWait.erase d })).grantBus (d / 16)

/-! Urgent service. -/

/-- PREEMPT_EN. -/
def State.preemptEn (s : State) : Bool := s.bit Reg.ARB.MODE.PREEMPT_EN

/-- CAP(die). -/
def State.capOf (s : State) (d : Nat) : Nat :=
  let cap := s.rd Reg.ARB.URGENT.URGENT_CAP
  match s.dieProfile d with
  | some p => if p.pgmSusp && s.preemptEn then min cap p.suspendMax else cap
  | none => cap

/-- Move requests from the wait list to the FIFO while U stands below CAP (R225). -/
def Die.admitWaiting (x : Die) (cap : Nat) : Nat → Die
  | 0 => x
  | n + 1 =>
    match x.waiting with
    | [] => x
    | r :: l =>
      if x.u < cap then
        Die.admitWaiting { x with fifo := x.fifo ++ [r], waiting := l, u := x.u + 1, admitted := x.admitted + 1 } cap n
      else x

/-- Put a request in the wait list in ORDER_SEQ order. -/
def insertReq (r : Req) : List Req → List Req
  | [] => [r]
  | x :: l => if wrapSub x.q r.q 32 < 2 ^ 31 ∧ x.q ≠ r.q then r :: x :: l else x :: insertReq r l

/-- Does a lower-class step hold the die? -/
def Die.lowerHolds (x : Die) : Bool :=
  match x.holder with
  | some (.step r) => r.cls != .urgent
  | some (.orphan _) => true
  | some (.resetLun _ _) => false
  | some .reconfig => false
  | none => false

/-- Does the profile let the holder's operation be suspended or abandoned for an urgent request (R230, R232)? -/
def State.preemptible (s : State) (d : Nat) (act : Activity) : Bool :=
  match act with
  | .programming => s.preemptEn && ((s.dieProfile d).map Profile.pgmSusp).getD false
  | .erasing => s.preemptEn && ((s.dieProfile d).map Profile.ersSusp).getD false
  | .idle => true
  | .dataIn => true
  | .reading => true
  | .dataOut => true

/-- Is the die ready at once when its holder is told to make way (Table 9-2)? -/
def readyAtOnce : Activity → Bool
  | .idle => true
  | .dataOut => true
  | .dataIn => false
  | .reading => false
  | .programming => false
  | .erasing => false

/-- The activity with which a granted operation begins: a program first takes its data. DEDUCED: log entry 49. -/
def startActivity : OpKind → Activity
  | .read => .reading
  | .program => .dataIn
  | .erase => .erasing

/-- A request as its grant leaves it: its wait is over, and an erase begins in the array at once. -/
def Req.granted (r : Req) : Req := { r with waited := 0, inArray := r.inArray || r.op == .erase }

/-- What a grant begins on the die: an array read starts; a program waits for the bus to take its data; an erase starts. -/
def State.startOp (s : State) (d : Nat) (op : OpKind) : State := if op == .program then s.needBus d else s

/-- May an operation start: a program or an erase not below the regulated hold-up level (R310), nor an array read that must first carry
the due checkpoints (R270)? A suspended one may always be resumed. -/
def State.opMay (s : State) (d block : Nat) (op : OpKind) : Bool :=
  s.power.vholdOk || (op == .read && !s.readNeedsBatch d block)

/-- Grant the die to an admitted urgent request. -/
def State.grantUrgent (s : State) (d : Nat) : State :=
  match s.die? d with
  | none => s
  | some x =>
    match x.fifo with
    | [] => s
    | r :: l =>
      if !s.opMay d r.block r.op then s else
      let s := s.setDie d (fun x => { x with
        fifo := l
        holder := some (.step r.granted)
        activity := .reading
        guarded := false
        preempting := false
        watchdog := 0 })
      s.countGrant r.who d r.waited

/-- The progress that a step keeps when it makes way (Table 9-2): an abandoned page is input again whole, so that of a data input
counts whole pages, of `slots` codeword slots each. -/
def Req.kept (r : Req) (slots : Nat) : Req :=
  if r.op == .program then { r with progress := r.progress / max 1 slots * max 1 slots } else r

/-- The holder makes way on the edge the die is ready: the arbiter records the step and its progress; an operation in the
array stays suspended there (R230, R231). An orphan goes back among the orphans; one that was a read is dropped (R233). -/
def State.makeWay (s : State) (d : Nat) : State :=
  match s.die? d with
  | none => s
  | some x =>
    let susp := x.activity == .programming || x.activity == .erasing
    let s := (if susp then s.chTally Reg.CH.SUSPENDS.COUNT d else s).leaveBus d
    let slots := s.slotsOf d
    s.setDie d (fun x =>
      let x := { x with activity := .idle, preempting := false, watchdog := 0 }
      match x.holder with
      | some (.step r) => { x with holder := none, preempted := some { r.kept slots with waited := 0 }, suspended := susp }
      | some (.orphan r) =>
        if r.op == .read then { x with holder := none }
        else { x with holder := none, orphans := r :: x.orphans, suspended := susp }
      | some (.resetLun _ _) => x
      | some .reconfig => x
      | none => x)

/-- Admit a request to a die that may be held: pre-emption of a lower-class holder (R230, R232), or the grant at once where
nothing is issued. -/
def State.urgentAdmitted (s : State) (d : Nat) : State :=
  match s.die? d with
  | none => s
  | some x =>
    if x.lowerHolds && !x.guarded && !x.preempting && s.preemptible d x.activity then
      if readyAtOnce x.activity then (s.makeWay d).grantUrgent d
      else
        let s := s.setDie d (fun x => { x with preempting := true })
        if x.activity == .dataIn then s.leaveBus d else s
    else s

/-- URGENT_ADMISSION (R225). -/
def State.admitUrgent (s : State) (d : Nat) (r : Req) : State :=
  match s.die? d with
  | none => s
  | some x =>
    if x.u < s.capOf d then
      (s.setDie d (fun x => { x with fifo := x.fifo ++ [r], u := x.u + 1, admitted := x.admitted + 1 })).urgentAdmitted d
    else s.setDie d (fun x => { x with waiting := insertReq r x.waiting })

/-- A request reaches the arbiter: an urgent one is admitted or waits, another joins the lower classes. -/
def State.admitReq (s : State) (d : Nat) (r : Req) : State :=
  if r.cls == .urgent then s.admitUrgent d r else s.setDie d (fun x => { x with lower := x.lower ++ [r] })

/-- Does a requester's request for a die stay in the requester's own queue: one of it stands on the die already (R223), or its Slice has
reached its die cap (R186)? -/
def State.keptBack (s : State) (d who : Nat) : Bool :=
  (match s.die? d with
    | some x => x.hasReq who
    | none => false) || (decide (who < 64) && s.dieCapped who d)

/-- Present a request on a die, or keep it in its requester's queue in ORDER_SEQ order (R223, R186). -/
def State.present (s : State) (d : Nat) (r : Req) : State :=
  match s.die? d with
  | none => s
  | some x =>
    if x.failed || !x.present then s
    else if s.keptBack d r.who then s.setDie d (fun x => { x with queued := insertReq r x.queued })
    else s.admitReq d r

/-- A further array read of an admitted urgent request goes to the head of the FIFO, keeps its admission and does not raise U (R225);
any other is presented as usual. -/
def State.presentNext (s : State) (d : Nat) (r : Req) : State :=
  if r.cls == .urgent then (s.setDie d (fun x => { x with fifo := r :: x.fifo })).urgentAdmitted d
  else s.present d r

/-- The class with which a queued request of a Slice is presented is that of the edge of its presentation (R187, R224). -/
def State.reclass (s : State) (r : Req) : Req :=
  match r.work with
  | .sector _ => { r with cls := (s.sliceClass r.who r.op).1, weight := (s.sliceClass r.who r.op).2 }
  | .page => { r with cls := (s.sliceClass r.who r.op).1, weight := (s.sliceClass r.who r.op).2 }
  | .soft _ => r
  | .mapRead _ _ => r
  | .job _ => r
  | .forced => r
  | .other => r

/-- Requests leave their requesters' queues for a die as soon as nothing keeps them back. -/
def State.unqueue (s : State) (d : Nat) : State :=
  match s.die? d with
  | none => s
  | some x =>
    x.queued.foldl (fun (s : State) r =>
      if s.keptBack d r.who then s
      else (s.setDie d (fun x => { x with queued := x.queued.erase r })).admitReq d (s.reclass r)) s

/-! Gates on a grant. -/

/-- Dies counted against the die budget (R425). -/
def State.diesBusy (s : State) : Nat := count (fun (x : Die) => x.holder.isSome) s.flash.dies

/-- The die budget in force; 0 is no limit. -/
def State.dieBudget (s : State) : Nat :=
  s.rd (if s.temp.alarm then Reg.POWER.DIE_BUDGET.ALARM else Reg.POWER.DIE_BUDGET.NORMAL)

/-- Does the budget keep back every step but an urgent read (R425)? -/
def State.budgetFull (s : State) : Bool := s.dieBudget != 0 && decide (s.dieBudget ≤ s.diesBusy)

/-- In safe-interface mode at most one channel holds a granted step (R408). -/
def State.chanGate (s : State) (d : Nat) : Bool :=
  !s.safeIf || s.flash.dies.all (fun x => x.holder.isNone || x.id / 16 == d / 16)

/-- A soft reset, isolation or disabling of the channel's page, or a reconfiguration due, lets its sequencer start no step
(R338, R347, R348). -/
def State.chanOpen (s : State) (n : Nat) : Bool :=
  let p := 0x10 + n
  s.bit (enableBit p 0) && !s.bit (isolateBit p 0) && !s.bit (resetActive p 0) &&
    !s.flash.chans.any (fun c => c.id == n && c.reconf)

/-- The work of an upkeep page of class E goes on: enabled, its wrapper open (R49, R50). -/
def State.pageOpen (s : State) (page : Nat) : Bool :=
  s.bit (enableBit page 0) && !s.bit (isolateBit page 0) && !s.bit (resetActive page 0)

/-- Is a Rest window open in which the engines may start a step: the budget of a REST In flight has not passed (R259, R260)? -/
def State.restRuns (s : State) : Bool :=
  s.cmds.any (fun c => c.opcode == opRest && c.phase == .waiting && c.abortedBy.isEmpty && decide (c.progress < c.field 0 32))

/-- May an engine start a step (R259, R262, R273; the Safe state starts none)? -/
def State.stepsMay (s : State) : Bool := s.up && s.restRuns && s.pageOpen 0x0D && !s.safe

/-- May a request that has been presented still be granted? A step of an engine starts only while a Rest window is open, one that
relocates or erases not while the card is read-only under chapter 11 (R260, R262); Forced upkeep not in the Safe state (R264), nor while
the UPKEEP page takes no work (R273). -/
def State.stillMay (s : State) (r : Req) : Bool :=
  match r.work with
  | .other => s.stepsMay && (if r.who == 65 then s.pageOpen 0x0E else !s.flash.wear.readOnly)
  | .forced => s.pageOpen 0x0D && !s.safe
  | .sector _ => true
  | .soft _ => true
  | .page => true
  | .mapRead _ _ => true
  | .job _ => true

/-! The choice of a lower-class step. -/

/-- A requester's deficit on a die. -/
def Die.deficit (x : Die) (who : Nat) : Int :=
  match x.deficits.find? (fun e => e.1 == who) with
  | some e => e.2
  | none => 0

/-- Set a requester's deficit; one of 0 is not listed. -/
def setDeficit (l : List (Nat × Int)) (who : Nat) (v : Int) : List (Nat × Int) :=
  let rest := l.filter (fun e => e.1 != who)
  if v = 0 then rest else rest.filter (fun e => decide (e.1 < who)) ++ (who, v) :: rest.filter (fun e => decide (who < e.1))

/-- The first requester in ring order from a pointer. -/
def ringFirst (ptr : Nat) (l : List Req) : Option Req :=
  l.foldl (fun (m : Option Req) r =>
    match m with
    | none => some r
    | some x => if (r.who + 68 - ptr) % 68 < (x.who + 68 - ptr) % 68 then some r else some x) none

/-- The quanta that CHOOSE_LOWER adds: the fewest that make some deficit positive (R228). -/
def quantaNeeded (x : Die) (quantum : Nat) (l : List Req) : Nat :=
  (l.map (fun r =>
    let w := max 1 (r.weight * quantum)
    ((1 - x.deficit r.who + (w : Int) - 1) / (w : Int)).toNat)).foldl (fun (m : Option Nat) n =>
      match m with
      | none => some n
      | some k => some (min k n)) none |>.getD 0

/-- CHOOSE_LOWER (R227, R228) among the requests that may start: the die as the choice leaves it, and the choice. -/
def chooseLower (x : Die) (quantum : Nat) (l : List Req) : Die × Option Req :=
  let steady := l.filter (fun r => r.cls == .steady)
  let bulk := l.filter (fun r => r.cls == .bulk)
  let nextBulk (x : Die) : Die × Option Req :=
    match ringFirst x.bulkPointer bulk with
    | some r => ({ x with bulkPointer := (r.who + 1) % 68 }, some r)
    | none => (x, none)
  if 0 < x.bulkCredit ∧ !bulk.isEmpty then nextBulk x
  else if steady.isEmpty then nextBulk x
  else
    let x := if steady.any (fun r => decide (0 < x.deficit r.who)) then x
      else
        let n := quantaNeeded x quantum steady
        { x with deficits := steady.foldl (fun (ds : List (Nat × Int)) r =>
            setDeficit ds r.who (x.deficit r.who + (n * (max 1 (r.weight * quantum)) : Nat))) x.deficits }
    match ringFirst x.rrPointer (steady.filter (fun r => decide (0 < x.deficit r.who))) with
    | some r => ({ x with rrPointer := r.who }, some r)
    | none => (x, none)

/-- A lower-class grant resets U and moves the wait list; the step is guarded where CAP admissions came before it (R225). -/
def Die.lowerGrant (x : Die) (cap : Nat) : Die :=
  let g := decide (cap ≤ x.admitted) && decide (0 < x.admitted)
  let x := { x with guarded := g, u := 0, admitted := 0, watchdog := 0 }
  x.admitWaiting cap x.waiting.length

/-- Grant the choice of CHOOSE_LOWER on a free die (R227, R228). -/
def State.grantChoice (s : State) (d cap : Nat) (x : Die) : State :=
  let q := 2 ^ s.rd Reg.ARB.MODE.QUANTUM_LOG2
  let c := chooseLower x q (x.lower.filter (fun r => s.opMay d r.block r.op && s.stillMay r))
  match c.2 with
  | none => s
  | some r =>
    let s := s.setDie d (fun _ =>
      { c.1.lowerGrant cap with
        lower := c.1.lower.erase r
        holder := some (.step r.granted)
        activity := startActivity r.op })
    (s.countGrant r.who d r.waited).startOp d r.op

/-- Take again the step that an urgent request pre-empted (R227 item 1, R231). -/
def State.grantPreempted (s : State) (d cap : Nat) (x : Die) (r : Req) : State :=
  if !x.suspended && !s.opMay d r.block r.op then s
  else
    let act := if x.suspended then (if r.op == .erase then Activity.erasing else Activity.programming)
      else startActivity r.op
    let s := s.setDie d (fun x =>
      { x.lowerGrant cap with holder := some (.step r.granted), activity := act, preempted := none,
                              suspended := false })
    let s := s.countGrant r.who d r.waited
    if x.suspended then s else s.startOp d r.op

/-- Finish an orphaned operation as housekeeping (R227 item 2, R233). -/
def State.grantOrphan (s : State) (d cap : Nat) (r : Req) (l : List Req) : State :=
  let s := s.setDie d (fun x =>
    { x.lowerGrant cap with
      holder := some (.orphan r.granted), orphans := l
      activity := if r.op == .erase then .erasing else if r.op == .program then (if r.inArray then .programming else .dataIn)
        else .reading
      suspended := false })
  if r.inArray then s else s.startOp d r.op

/-- A step that is not pre-empted (R338). -/
def State.guard (s : State) (d : Nat) : State := s.setDie d (fun x => { x with guarded := x.holder.isSome || x.guarded })

/-- Grant a free die (R225–R227): the FIFO first, then the pre-empted step, an orphan, the choice of CHOOSE_LOWER. A channel
whose sequencer starts no step only finishes what is suspended or orphaned, and that is not pre-empted (R338, R347). -/
def State.grantDie (s : State) (d : Nat) : State :=
  match s.die? d with
  | none => s
  | some x =>
    if x.failed || x.holder.isSome || !s.chanGate d then s
    else
      let isOpen := s.chanOpen (d / 16)
      if isOpen && !x.fifo.isEmpty then s.grantUrgent d
      else if s.budgetFull then s
      else
        let cap := s.capOf d
        match x.preempted with
        | some r =>
          if isOpen then s.grantPreempted d cap x r
          else if x.suspended then (s.grantPreempted d cap x r).guard d
          else s
        | none =>
          match x.orphans with
          | r :: l => if isOpen then s.grantOrphan d cap r l else (s.grantOrphan d cap r l).guard d
          | [] => if isOpen then s.grantChoice d cap x else s

/-! Release. -/

/-- ON_NO_WORK (R227) for every requester that presents nothing further for the die: none presented, granted or queued. -/
def Die.noWork (x : Die) : Die :=
  let idle (who : Nat) : Bool := !x.hasReq who && !x.queued.any (fun r => r.who == who)
  { x with
    deficits := (x.deficits.map (fun e => if idle e.1 then (e.1, min e.2 0) else e)).filter (fun e => e.2 != 0)
    bulkCredit := if (x.reqs ++ x.queued).any (fun r => r.cls == .bulk) then x.bulkCredit else 0 }

/-- CHARGE (R227). -/
def Die.charge (x : Die) (r : Req) (share : Nat) : Die :=
  let o : Int := r.held
  match r.cls with
  | .urgent => x
  | .steady => { x with deficits := setDeficit x.deficits r.who (x.deficit r.who - o), bulkCredit := x.bulkCredit + share * o }
  | .bulk => { x with bulkCredit := x.bulkCredit - (64 - (share : Int)) * o }

/-- Is there lower-class work on the die: waiting, suspended, pre-empted or orphaned? -/
def Die.lowerWork (x : Die) : Bool := !x.lower.isEmpty || x.preempted.isSome || !x.orphans.isEmpty

/-- The admitted urgent requests that have not finished. -/
def Die.admittedNow (x : Die) : Nat :=
  x.fifo.length + (match x.holder with
    | some (.step r) => if r.cls == .urgent then 1 else 0
    | some (.orphan _) => 0
    | some (.resetLun _ _) => 0
    | some .reconfig => 0
    | none => 0)

/-- U and the wait list on an edge (R225): with only urgent work on the die, U is the number of admitted requests not yet finished; the
wait list moves while U stands below CAP. -/
def Die.settleU (x : Die) (cap : Nat) : Die :=
  let x := if x.lowerWork || x.lowerHolds then x else { x with u := x.admittedNow }
  x.admitWaiting cap x.waiting.length

/-- The release of a step: it is charged (R227), the bus is free of it, and the wait list moves (R225). -/
def State.release_ (s : State) (d : Nat) : State :=
  let cap := s.capOf d
  let share := s.rd Reg.ARB.BULK.BULK_MIN_SHARE
  (s.setDie d (fun x =>
    let h := x.holder
    let x := { x with holder := none, activity := .idle, preempting := false, guarded := false, watchdog := 0, bitten := false }
    let x := match h with
      | some (.step r) => x.charge r share
      | some (.orphan _) => x
      | some (.resetLun _ _) => x
      | some .reconfig => x
      | none => x
    x.settleU cap)).leaveBus d

/-- What stands still open at the arbiters on an edge: queued requests are presented, requesters without further work lose their credit,
U and the wait lists move (R223, R225, R227). -/
def State.arbSettle (s : State) : State :=
  let s : State := (s.flash.dies.map (fun x => x.id)).foldl (fun (s : State) d => s.unqueue d) s
  s.onFlash (fun fl => { fl with dies := fl.dies.map (fun (x : Die) => (x.noWork).settleU (s.capOf x.id)) })

/-- Is any die of a channel at work or holding a suspended operation? -/
def Die.atWork (x : Die) : Bool := x.holder.isSome || x.suspended || x.preempted.isSome || !x.orphans.isEmpty

/-- Is a channel idle: no die of it at work but for a reconfiguration, none with a suspended or orphaned operation (R338, R347)? -/
def State.channelIdle (s : State) (n : Nat) : Bool :=
  (s.chanDies n).all (fun x => x.failed || !x.present ||
    ((x.holder.isNone || x.holder == some .reconfig) && !x.suspended && x.orphans.isEmpty))

/-! A free die. -/

/-- Nothing holds the die, waits for it or is suspended on it. -/
def Die.free (x : Die) : Bool :=
  x.present && !x.failed && x.holder.isNone && x.fifo.isEmpty && x.waiting.isEmpty && x.lower.isEmpty &&
    x.preempted.isNone && !x.suspended && x.orphans.isEmpty

/-- May requester `who` take a step on block `b` of die `d` at once (R186, R310, R338, R347, R408, R425)? -/
def State.dieFree (s : State) (d who b : Nat) (op : OpKind) (urgent : Bool) : Bool :=
  (match s.die? d with
    | some x => x.free
    | none => false) && s.chanGate d && s.chanOpen (d / 16) && s.opMay d b op && (urgent || !s.budgetFull) &&
    !(decide (who < 64) && s.dieCapped who d)

/-- Has a request of this work been presented on a die, or does it wait for one? -/
def State.hasWork (s : State) (p : Req → Bool) : Bool :=
  s.flash.dies.any (fun x => (x.reqs ++ x.queued).any p)

/-- Does a command wait for a die that it has asked for and not been granted? -/
def State.asks (s : State) (q : Nat) : Bool :=
  s.flash.dies.any (fun x => (x.fifo ++ x.waiting ++ x.lower ++ x.queued).any (fun r => r.q == q && r.work.ofCommand && r.op == .read))

/-- Does a step that `p` selects hold the die or stand set back on it? -/
def Die.stepOf (x : Die) (p : Req → Bool) : Bool :=
  (x.preempted.toList ++ (match x.holder with
    | some (.step r) => [r]
    | some (.resetLun (some r) _) => [r]
    | some (.resetLun none _) => []
    | some .reconfig => []
    | some (.orphan _) => []
    | none => [])).any p

/-- Does a step of an engine hold the die or stand set back on it? -/
def Die.engineStep? (x : Die) : Bool := x.stepOf (fun r => r.work == .other)

/-- Does a step of an engine hold a die or stand set back on one? -/
def State.engineRuns (s : State) : Bool := s.flash.dies.any Die.engineStep?

/-- Steps that `p` selects and whose transfers a wrapper cuts off are abandoned and wait to be taken again from their start (R273, R299):
an array read runs to its end as housekeeping, data output ends. -/
def State.cutSteps (s : State) (p : Req → Bool) : State :=
  (s.flash.dies.map (fun x => x.id)).foldl (fun (s : State) d =>
    match s.die? d with
    | none => s
    | some x =>
      match x.holder with
      | some (.step r) =>
        if !p r || r.op != .read then s
        else
          let s := if x.activity == .reading then s.setDie d (fun x => { x with holder := some (.orphan r) })
            else (s.setDie d (fun x => { x with holder := none, activity := .idle, preempting := false, watchdog := 0 })).leaveBus d
          let rests : List Cmd := s.cmds.map (fun (c : Cmd) => { c with awaits := c.awaits.filter (fun e => e != d) })
          ({ s with cmds := rests }).present d { r with waited := 0, progress := 0, held := 0 }
      | some (.orphan _) => s
      | some (.resetLun _ _) => s
      | some .reconfig => s
      | none => s) s

/-- Put a granted step off its die, to be presented again at the tail of its class from its progress count (R231, R237, R347). -/
def State.cutOff (s : State) (d : Nat) : State :=
  match s.die? d with
  | none => s
  | some x =>
    if x.activity == .dataIn || x.activity == .dataOut then
      let slots := s.slotsOf d
      let s := (s.setDie d (fun x => { x with holder := none, activity := .idle, preempting := false, watchdog := 0 })).leaveBus d
      match x.holder with
      | some (.step r) => s.present d { r.kept slots with waited := 0, held := 0, inArray := false }
      | some (.orphan r) => if r.op == .read then s else s.setDie d (fun x => { x with orphans := r :: x.orphans })
      | some (.resetLun _ _) => s
      | some .reconfig => s
      | none => s
    else s

/-! The grant watchdog's limit (R236). -/

/-- The frequency in force in kHz (R30, R87). -/
def State.khzInForce (s : State) : Nat :=
  if s.link.fast then (if s.declared then s.rd Reg.CLOCK.DECL_FAST.DECL_KHZ else 3200000) else 25000

/-- CCLK in kHz at the frequency in force (R22, R23). -/
def State.cclkKhz (s : State) : Nat := if s.link.fast then s.khzInForce / 8 else s.khzInForce

/-- Twice tBERS maximum (a profile counts it in µs) in CCLK, rounded up. -/
def State.wdFloor (s : State) (d : Nat) : Nat :=
  let khz := s.khzInForce
  let div := if s.link.fast then 8000 else 1000
  match s.dieProfile d with
  | some p => ceilDiv (2 * p.tbersMax * khz) div
  | none => 0

/-- The effective limit of a die. -/
def State.wdLimit (s : State) (d : Nat) : Nat := max (s.rd Reg.WATCHDOG.GRANT_WD.CCLK) (s.wdFloor d)

/-- WD_LAST_REQ.ACTIVITY: 0 nothing issued, 1 bus activity, 2 array busy, 3 Reset LUN (Table 9-9). -/
def Die.activityCode (x : Die) : Nat :=
  match x.holder with
  | some (.resetLun _ _) => 3
  | some (.step _) => code x.activity
  | some (.orphan _) => code x.activity
  | some .reconfig => 1
  | none => 0
where
  code : Activity → Nat
    | .idle => 0
    | .dataIn => 1
    | .dataOut => 1
    | .reading => 2
    | .programming => 2
    | .erasing => 2

end Sys2Proof.Machine
end

