-- ==== Sys2Proof/Machine/MapOps.lean ====
section
/-!
DEFINITION. The map (R244–R253): lookups, the cache, write-back, lost pages, commits, trims, what earlier-stamped commands
still see (R14), and the fetches of the map engine (R215, R222, R248).
-/
namespace Sys2Proof.Machine

/-- Change the map. -/
def State.onMap (s : State) (f : MapState → MapState) : State := s.onFlash (fun fl => { fl with map := f fl.map })

/-- The map entry of a sector; none is an unmapped sector (R244). -/
def State.entry (s : State) (i lba : Nat) : Option MapEntry :=
  s.flash.map.entries.find? (fun e => e.slice == i && e.lba == lba)

/-- Put an entry in its place by Slice and LBA. -/
def insertEntry (e : MapEntry) : List MapEntry → List MapEntry
  | [] => [e]
  | x :: l => if e.slice < x.slice ∨ (e.slice = x.slice ∧ e.lba < x.lba) then e :: x :: l else x :: insertEntry e l

/-- Unmap a sector. -/
def State.unmap (s : State) (i lba : Nat) : State :=
  s.onMap (fun m => { m with entries := m.entries.filter (fun e => !(e.slice == i && e.lba == lba)) })

/-- Map a sector. -/
def State.setEntry (s : State) (e : MapEntry) : State :=
  (s.unmap e.slice e.lba).onMap (fun m => { m with entries := insertEntry e m.entries })

/-- Is a map page in the cache? -/
def State.resident (s : State) (i idx : Nat) : Bool := s.flash.map.cache.any (fun p => p.slice == i && p.idx == idx)

/-- Is a Slice's map held in the cache (R188)? -/
def State.pinned (s : State) (i : Nat) : Bool := (s.slice i).pinState != .off

/-- Remove the least recently used page that is clean and unpinned (R246). -/
def evictFrom (pinned : Nat → Bool) : List CachedPage → List CachedPage
  | [] => []
  | p :: l => if !p.dirty && !pinned p.slice then l else p :: evictFrom pinned l

/-- Make a page resident and clean, evicting where the cache is full. -/
def State.makeResident (s : State) (i idx : Nat) : State :=
  if s.resident i idx then s
  else
    let c := s.flash.map.cache
    let c := if 4096 ≤ c.length then evictFrom s.pinned c else c
    s.onMap (fun m => { m with cache := c ++ [{ slice := i, idx := idx, dirty := false, dirtyAt := 0 }] })

/-- Move a page to the most recently used end. -/
def State.touch (s : State) (i idx : Nat) : State :=
  s.onMap (fun m => { m with
    cache := m.cache.filter (fun p => !(p.slice == i && p.idx == idx)) ++ m.cache.filter (fun p => p.slice == i && p.idx == idx) })

/-- The directory entry of a map page: where its flash copies lie (R245). -/
def State.mapPlaces (s : State) (i idx : Nat) : List (Nat × Nat) :=
  ((s.flash.map.onFlash.find? (fun c => c.slice == i && c.idx == idx)).map (fun c => c.places)).getD []

/-- Does a map page have flash copies (R245)? -/
def State.mapCopied (s : State) (i idx : Nat) : Bool := s.flash.map.onFlash.any (fun c => c.slice == i && c.idx == idx)

/-- A lookup in a map page: hit or miss (R245, R215). Of a page that has failed neither the cache nor flash is used (R249). -/
def State.lookup (s : State) (i idx : Nat) : State × Bool :=
  if s.resident i idx || s.flash.map.failed.contains (i, idx) then ((s.touch i idx).tally Reg.FTL.MAP_HITS.COUNT, true)
  else if !s.mapCopied i idx then ((s.makeResident i idx).tally Reg.FTL.MAP_HITS.COUNT, true)
  else (s.tally Reg.FTL.MAP_MISSES.COUNT, false)

/-- Dirty pages. -/
def State.dirtyPages (s : State) : List CachedPage := s.flash.map.cache.filter (fun p => p.dirty)

/-- A dirty page has been written back (R245, R247): it is clean, the directory holds its places. Its TRIM ranges need no trim record
any more (R253). A page that has left the cache meanwhile stays as it is. -/
def State.writtenBack (s : State) (i idx : Nat) (places : List (Nat × Nat)) : State :=
  let s := s.tally Reg.FTL.MAP_WRITEBACKS.COUNT
  if !s.resident i idx then s else
  s.onMap (fun m => { m with
    cache := mapIf (fun (p : CachedPage) => p.slice == i && p.idx == idx) (fun p => { p with dirty := false, dirtyAt := 0 }) m.cache
    onFlash := m.onFlash.filter (fun c => !(c.slice == i && c.idx == idx)) ++ [{ slice := i, idx := idx, places := places }]
    lostPages := m.lostPages.filter (fun p => p != (i, idx))
    trims := m.trims.filter (fun e => !(e.slice == i && e.lba / 1024 == idx)) })

/-- Write one dirty page back in both copies at once (R245, R247). -/
def State.writeBack (s : State) (i idx : Nat) : State := s.mapWrite.1.writtenBack i idx s.mapWrite.2

/-- The oldest dirty page. -/
def State.oldestDirty (s : State) : Option CachedPage :=
  s.dirtyPages.foldl (fun (m : Option CachedPage) p =>
    match m with
    | none => some p
    | some x => if p.dirtyAt < x.dirtyAt then some p else some x) none

/-- A page takes a change: it is dirty; beyond 1,024 dirty pages the oldest is written back first (R247). A failed page is not
used (R249); the page records hold its changes. -/
def State.dirty (s : State) (i idx : Nat) : State :=
  if s.flash.map.failed.contains (i, idx) then s else
  let s := s.makeResident i idx
  if s.flash.map.cache.any (fun p => p.slice == i && p.idx == idx && p.dirty) then s
  else
    let s := if 1024 ≤ s.dirtyPages.length then
      (match s.oldestDirty with
        | some p => s.writeBack p.slice p.idx
        | none => s) else s
    s.onMap (fun m => { m with
      stamp := m.stamp + 1
      cache := mapIf (fun (p : CachedPage) => p.slice == i && p.idx == idx)
        (fun p => { p with dirty := true, dirtyAt := m.stamp + 1 }) m.cache })

/-- The scan set (R321): the data pages programmed after the oldest map change not yet written back. -/
def State.scanSet (s : State) : Nat :=
  match s.oldestDirty with
  | none => 0
  | some p => count (fun (y : Page) => decide (p.dirtyAt < y.stamp)) s.flash.pages

/-- Write every dirty page back, oldest first, as a recovery does. -/
def State.writeBackAll (s : State) : State :=
  s.dirtyPages.foldl (fun (s : State) _ =>
    match s.oldestDirty with
    | some p => s.writeBack p.slice p.idx
    | none => s) s

/-- Has the dirty page of a sector failed its check (R249)? -/
def State.pageFailed (s : State) (i lba : Nat) : Bool := s.flash.map.failed.contains (i, lba / 1024)

/-- Both copies of a map page have failed: every sector of it reads UNCORRECTABLE until it is written or trimmed (R248). -/
def State.mapLost (s : State) (i idx : Nat) : State :=
  let s := (s.report Src.FTL.MAP_PAGE_LOST).tally Reg.FTL.MAP_LOST.COUNT
  let inPage (e : MapEntry) : Bool := e.slice == i && e.lba / 1024 == idx
  let old := s.flash.map.entries.filter inPage
  let lost := ((rangeFrom (1024 * idx) 1024).filter (fun l => decide (l < (s.slice i).cfg.cap))).map (fun l =>
    { slice := i, lba := l, seq := ((s.entry i l).map (fun e => e.seq)).getD 0, loc := Mapped.lost : MapEntry })
  let s := s.onMap (fun m => { m with
    entries := m.entries.filter (fun e => !inPage e && decide (e.slice < i ∨ (e.slice = i ∧ e.lba < 1024 * idx))) ++ lost ++
      m.entries.filter (fun e => !inPage e && !decide (e.slice < i ∨ (e.slice = i ∧ e.lba < 1024 * idx)))
    ghosts := m.ghosts ++ old
    lostPages := m.lostPages ++ [(i, idx)] })
  s.dirty i idx

/-- When the last map page of a loading Slice is resident, it is pinned (R188). -/
def State.pinSettle (s : State) (i : Nat) : State :=
  if (s.slice i).pinState == .loading &&
      s.flash.map.onFlash.all (fun p => p.slice != i || s.resident p.slice p.idx) then
    (s.setSlice i (fun sl => { sl with pinState := .pinned })).raise Evt.SLICE.PIN_READY i
  else s

/-! What earlier-stamped commands still see, and commits. -/

/-- The Slice of a data command. -/
def Cmd.dataRing (c : Cmd) : Option Nat := if isDataOp c.opcode then c.ring else none

/-- Does a data command with sectors cover a sector of Slice `i`? -/
def Cmd.coversSector (c : Cmd) (i lba : Nat) : Bool :=
  c.dataRing == some i && c.opcode != opBarrier && decide (c.lba ≤ lba ∧ lba < c.lba + c.count)

/-- The snapshot that command `q` holds of a sector of Slice `i`. -/
def State.snapOf (s : State) (q i lba : Nat) : Option Snap :=
  s.flash.map.snaps.find? (fun n => n.q == q && n.slice == i && n.lba == lba)

/-- Was command `a` stamped before command `b`? -/
def stampedBefore (a b : Nat) : Bool := a != b && decide (wrapSub b a 32 < 2 ^ 31)

/-- Record that command `q` has committed the sector for one earlier-stamped command `e`: a new snapshot of what the sector held,
or an earlier cut of the one it has. -/
def State.snapOne (s : State) (q i lba e : Nat) (old : Option MapEntry) : State :=
  match s.snapOf e i lba with
  | none => s.onMap (fun m => { m with snaps := m.snaps ++ [{ q := e, slice := i, lba := lba, old := old, cut := q }] })
  | some n =>
    if stampedBefore q n.cut then
      s.onMap (fun m => { m with
        snaps := mapIf (fun (x : Snap) => x.q == e && x.slice == i && x.lba == lba) (fun x => { x with cut := q }) m.snaps })
    else s

/-- Record, for every earlier-stamped command at work that covers the sector, what the sector held (R14, R251).
DEDUCED: log entry 34. -/
def State.snapFor (s : State) (q i lba : Nat) : State :=
  let old := s.entry i lba
  (s.earlier q).foldl (fun (s : State) c =>
    if c.coversSector i lba && !c.done? then s.snapOne q i lba c.q old else s) s

/-- Has a later-stamped WRITE or TRIM already committed the sector (R251)? -/
def State.superseded (s : State) (q i lba seq : Nat) : Bool :=
  (s.snapOf q i lba).isSome ||
    (match s.entry i lba with
      | some e => decide (seq < e.seq)
      | none => false)

/-- A command that comes behind later-stamped ones changes what the commands stamped between it and the first of them see
(R14). -/
def State.amendSnaps (s : State) (q i lba : Nat) (now : Option MapEntry) : State :=
  match s.snapOf q i lba with
  | none => s
  | some n =>
    s.onMap (fun m => { m with
      snaps := mapIf (fun (x : Snap) => x.slice == i && x.lba == lba && stampedBefore q x.q && stampedBefore x.q n.cut)
        (fun x => { x with old := now }) m.snaps })

/-- Commit one sector of a WRITE (R251): the new mapping replaces the old, unless a later-stamped command's stands. -/
def State.commitSector (s : State) (q i lba seq : Nat) (loc : Mapped) : State :=
  let s := s.tally64 Reg.FTL.HOST_SECT_LO.COUNT Reg.FTL.HOST_SECT_HI.COUNT 1
  let e : MapEntry := { slice := i, lba := lba, seq := seq, loc := loc }
  let late := s.superseded q i lba seq
  let s := s.snapFor q i lba
  if late then s.amendSnaps q i lba (some e)
  else
    let s := (s.dirty i (lba / 1024)).setEntry e
    s.onMap (fun m => { m with trims := m.trims.filter (fun e => !(e.slice == i && e.lba == lba)) })

/-- A relocation moves a sector only while it is still mapped to the source (R255); its commit sequence stays (R250). -/
def State.moveSector (s : State) (i lba d b p : Nat) (loc : Mapped) : State :=
  match s.entry i lba with
  | some e =>
    if e.inPage d b p && !s.pageFailed i lba then (s.dirty i (lba / 1024)).setEntry { e with loc := loc } else s
  | none => s

/-- The sectors of `a … a + n - 1` that an earlier-stamped READ, VERIFY or WRITE at work covers, or that command `q` holds a
snapshot of. -/
def State.touched (s : State) (q i a n : Nat) : List Nat :=
  let l := ((s.earlier q).filter (fun c => c.opcode != opTrim && c.opcode != opBarrier && !c.done? &&
    c.dataRing == some i)).flatMap (fun c => rangeFrom c.lba c.count) ++
    (s.flash.map.snaps.filter (fun x => x.q == q && x.slice == i)).map (fun x => x.lba)
  (l.filter (fun k => decide (a ≤ k ∧ k < a + n))).eraseDups

/-- Unmap the sectors `a … a + n - 1` of Slice `i` on one edge: a TRIM range of command `q`, or what the map gives up when a
capacity is lowered or a Slice released. DEDUCED: log entry 33. -/
def State.trimRange (s : State) (q i a n : Nat) (undo : Bool) : State :=
  let gone := s.flash.map.entries.filter (fun e => e.slice == i && decide (a ≤ e.lba ∧ e.lba < a + n))
  let gone := gone.filter (fun e => !s.superseded q i e.lba ((s.cmd? q).map (fun c => c.seqNo) |>.getD (e.seq + 1)))
  let touched := s.touched q i a n
  let s : State := touched.foldl (fun (s : State) l => (s.snapFor q i l).amendSnaps q i l none) s
  let s : State := gone.foldl (fun (s : State) e =>
    (if touched.contains e.lba then s else s.snapFor q i e.lba).dirty i (e.lba / 1024)) s
  let inRange (e : MapEntry) : Bool := e.slice == i && decide (a ≤ e.lba ∧ e.lba < a + n)
  s.onMap (fun m => { m with
    entries := m.entries.filter (fun e => !gone.contains e)
    ghosts := m.ghosts.filter (fun e => !inRange e)
    trims := if undo then m.trims ++ gone else m.trims })

/-- The trim record of a TRIM's ranges has passed (R253): nothing of them can come back. -/
def State.trimRecorded (s : State) (i a n : Nat) : State :=
  s.onMap (fun m => { m with
    trims := m.trims.filter (fun e => !(e.slice == i && decide (a ≤ e.lba ∧ e.lba < a + n))) })

/-- The same, its program made at once. -/
def State.trimRecord (s : State) (i a n : Nat) : State := s.mapCopies.trimRecorded i a n

/-- Take every mapping of a Slice away (R174, R175), the fetches of its map pages with them. -/
def State.releaseMap (s : State) (i : Nat) : State :=
  s.onFlash (fun fl => { fl with
    dies := fl.dies.map (fun (x : Die) => x.withdraw (fun r => r.work.mapPage?.any (fun m => m.1 == i)) (fun _ => false))
    map := { fl.map with
      entries := fl.map.entries.filter (fun e => e.slice != i)
      trims := fl.map.trims.filter (fun e => e.slice != i)
      cache := fl.map.cache.filter (fun p => p.slice != i)
      onFlash := fl.map.onFlash.filter (fun p => p.slice != i)
      fetching := fl.map.fetching.filter (fun p => p.slice != i)
      failed := fl.map.failed.filter (fun p => p.1 != i)
      ghosts := fl.map.ghosts.filter (fun e => e.slice != i)
      lostPages := fl.map.lostPages.filter (fun p => p.1 != i) } })

/-- What a recovery after a loss of power finds: trimmed sectors whose record had not passed come back (R253). The dirty
pages' changes are rebuilt from the page records (R250), so the map itself stands. -/
def State.restoreTrims (s : State) : State :=
  let l := s.flash.map.trims
  let s : State := l.foldl (fun (s : State) e =>
    if (s.entry e.slice e.lba).isNone then s.setEntry e else s) s
  s.onMap (fun m => { m with trims := [], snaps := [], fetching := [] })

/-! Fetching map pages (R215, R222, R248). -/

/-- The fetch of a map page. -/
def State.fetch? (s : State) (i idx : Nat) : Option Fetch := s.flash.map.fetching.find? (fun f => f.slice == i && f.idx == idx)

/-- Change a fetch. -/
def State.setFetch (s : State) (i idx : Nat) (f : Fetch → Fetch) : State :=
  s.onMap (fun m => { m with fetching := mapIf (fun (x : Fetch) => x.slice == i && x.idx == idx) f m.fetching })

/-- The copy that a fetch reads: the first that has not failed and lies on a die in use. -/
def State.fetchCopy (s : State) (f : Fetch) : Option (Nat × Nat) :=
  ((s.mapPlaces f.slice f.idx).drop f.tried).find? (fun p => s.dieGood p.1)

/-- Does a request of the map engine for this page stand on a die or wait for one? -/
def State.fetchAsked (s : State) (f : Fetch) : Bool := s.hasWork (fun r => r.work == .mapRead f.slice f.idx)

/-- The request of a fetch (Table 9-1). -/
def State.fetchReq (s : State) (f : Fetch) (b : Nat) : Req := s.mapReq (f.q.getD 0) f.slice f.idx b f.q.isSome

/-- Do map fetches run (R272): the wrapper of the FTL is open, and for one that serves no command the page is enabled? -/
def State.fetchMay (s : State) (f : Fetch) : Bool :=
  !s.bit (isolateBit 0x0C 0) && !s.bit (resetActive 0x0C 0) && (f.q.isSome || s.bit (enableBit 0x0C 0))

/-- A fetch presents its request where its die is not free for it at once. -/
def State.askFetch (s : State) (f : Fetch) : State :=
  match s.fetchCopy f with
  | none => s
  | some (d, b) =>
    let r := s.fetchReq f b
    if f.arrived || s.fetchAsked f || !s.fetchMay f || s.dieFree d 66 b .read (r.cls == .urgent) then s else s.present d r

/-- Begin to fetch a map page; those who miss on one page share its fetch (R215). -/
def State.beginFetch (s : State) (i idx : Nat) (q : Option Nat) : State :=
  if (s.fetch? i idx).isSome then s
  else
    let f : Fetch := { slice := i, idx := idx, q := q, tried := 0, arrived := false }
    (s.onMap (fun m => { m with fetching := m.fetching ++ [f] })).askFetch f

/-- An array read of a block for a command: one of a lower class that makes a checkpoint fall due carries the batch (R270). -/
def State.hostRead (s : State) (q d b : Nat) (urgent : Bool) : State :=
  let before := (s.block d b).due.isSome
  let s := s.arrayRead d b urgent
  if !urgent && !before && (s.block d b).due.isSome then
    s.addJob (s.mapBearer (some q)) .checkpoints s.mapDies
  else s

/-- The array read of a fetch has been made. -/
def State.fetchRead (s : State) (f : Fetch) (d b : Nat) : State :=
  let urgent := (s.fetchReq f b).cls == .urgent
  match f.q with
  | some q => s.hostRead q d b urgent
  | none => s.arrayRead d b

/-- A descriptor parks on a map page (R215). -/
def State.park (s : State) (q i idx : Nat) : State :=
  let s := s.bump Reg.DMA.MAP_FAULTS.COUNT
  let s := s.setDesc q (fun d => { d with st := if d.st == .held then .held else .parked, before := .parked,
                                          parkedOn := some idx })
  s.beginFetch i idx (some q)

/-- Is a command's descriptor parked or held? -/
def State.stopped (s : State) (q : Nat) : Bool :=
  match s.desc? q with
  | some d => d.st == .parked || d.st == .held
  | none => false

/-- Is a command's descriptor held (R217)? -/
def State.descHeld (s : State) (q : Nat) : Bool :=
  match s.desc? q with
  | some d => d.st == .held
  | none => false

/-- The page has become resident: its parked descriptors return to ACTIVE, or to COMMIT (R215). -/
def State.unpark (s : State) (i idx : Nat) : State :=
  { s with descs := s.descs.map (fun (d : Desc) =>
      match s.cmd? d.q with
      | some c =>
        if d.parkedOn == some idx && c.dataRing == some i then
          let st : DescState := if c.opcode == opWrite && d.offset == c.count then .commit else .active
          { d with parkedOn := none, st := if d.st == .held then .held else st, before := st, fetched := st == .active }
        else d
      | none => d) }

/-- A fetch has ended: the page is resident, lost where no copy of it decodes (R248); a pin may be complete (R188). -/
def State.fetchEnds (s : State) (f : Fetch) (good : Bool) : State :=
  let s := (s.makeResident f.slice f.idx).onMap (fun m =>
    { m with fetching := m.fetching.filter (fun x => !(x.slice == f.slice && x.idx == f.idx)) })
  let s := if good then s else s.mapLost f.slice f.idx
  (s.pinSettle f.slice).unpark f.slice f.idx

/-- A fetch goes on (R248): a copy that has arrived is decoded, `outs` giving for each copy whether it decodes; the next copy is read at
once where its die is free, and asked for otherwise; without a further copy the page is lost. -/
def State.fetchOn (i idx : Nat) (firstOk secondOk : Bool) : Nat → State → State
  | 0, s => s
  | n + 1, s =>
    match s.fetch? i idx with
    | none => s
    | some f =>
      match s.fetchCopy f with
      | none => s.fetchEnds f false
      | some (d, b) =>
        let fails := !(if f.tried = 0 then firstOk else secondOk)
        let next (s : State) : State :=
          if fails then State.fetchOn i idx firstOk secondOk n (s.setFetch i idx (fun f => { f with tried := f.tried + 1, arrived := false }))
          else s.fetchEnds f true
        if f.arrived then next s
        else if s.fetchAsked f then s
        else if s.dieFree d 66 b .read ((s.fetchReq f b).cls == .urgent) then next ((s.countGrant 66 d 0).fetchRead f d b)
        else s.present d (s.fetchReq f b)

/-- The map pages of a range of sectors that have flash copies and are not resident. -/
def State.missing (s : State) (i a n : Nat) : List Nat :=
  if n = 0 then [] else
  (rangeFrom (a / 1024) ((a + n - 1) / 1024 + 1 - a / 1024)).filter (fun idx =>
    s.mapCopied i idx && !s.resident i idx && !s.flash.map.failed.contains (i, idx))

end Sys2Proof.Machine
end

