-- ==== Sys2Proof/Machine/Proof.lean ====
section
/-!
DEFINITION. Proofing (chapter 11): superblocks and stripes (R274–R277), parity versions and the parity region (R278–R282),
closing and release (R283, R285), rebuild (R286), page programs and their failure (R288), and failed dies (R290).
-/
namespace Sys2Proof.Machine

/-! Superblocks and stripes. -/

/-- A listed superblock. -/
def State.sb? (s : State) (i : Nat) : Option Superblock := s.flash.superblocks.find? (fun x => x.id == i)

/-- Change a superblock. -/
def State.setSb (s : State) (i : Nat) (f : Superblock → Superblock) : State :=
  s.onFlash (fun fl => { fl with superblocks := mapIf (fun x => x.id == i) f fl.superblocks })

/-- The listed superblock of a block. -/
def State.sbOf (s : State) (d b : Nat) : Option Superblock :=
  match (s.block d b).sb with
  | some i => s.sb? i
  | none => none

/-- Member `k` of a superblock. -/
def Superblock.member (x : Superblock) (k : Nat) : Nat × Nat := x.members.getD k (0, 0)

/-- The next page of member `k`. -/
def Superblock.next (x : Superblock) (k : Nat) : Nat := x.nextPage.getD k 0

/-- The member that lies on a block. -/
def Superblock.memberOf (x : Superblock) (d b : Nat) : Option Nat :=
  (rangeFrom 0 x.members.length).find? (fun k => x.member k == (d, b))

/-- The Die profile of a superblock. -/
def State.sbProfile (s : State) (x : Superblock) : Option Profile := s.dieProfile (x.member 0).1

/-- L, the pages of a word line, and P, the pages of a block. -/
def State.sbL (s : State) (x : Superblock) : Nat := ((s.sbProfile x).map (fun p => p.bpc)).getD 1
def State.sbP (s : State) (x : Superblock) : Nat := ((s.sbProfile x).map (fun p => p.pages)).getD 0

/-- Pages that one program writes: a whole word line under ONE_SHOT (Table 13-4). -/
def State.sbShot (s : State) (x : Superblock) : Nat :=
  match s.sbProfile x with
  | some p => if p.oneShot then p.bpc else 1
  | none => 1

/-- The stripe of page `p` of member `k` (R276). -/
def State.stripeOf (s : State) (x : Superblock) (k p : Nat) : Nat := p + s.sbL x * k

/-- Will member `k` take no further page? -/
def State.slotClosed (s : State) (x : Superblock) (k : Nat) : Bool :=
  (s.block (x.member k).1 (x.member k).2).st == .retired || !s.dieGood (x.member k).1

/-- The members whose page of stripe `t` has been programmed; `l` is L. -/
def Superblock.doneIn (x : Superblock) (l t : Nat) : List Nat :=
  (rangeFrom 0 x.members.length).filter (fun k => decide (l * k ≤ t) && decide (t - l * k < x.next k))

/-- The members with a page in stripe `t`, as the stripe will end: those whose page is programmed or still to come. A closed
member takes none; `l` is L, `p` the pages of a block. -/
def Superblock.membersIn (x : Superblock) (closed : List Nat) (l p t : Nat) : List Nat :=
  (rangeFrom 0 x.members.length).filter (fun k =>
    decide (l * k ≤ t) && decide (t - l * k < (if closed.contains k then x.next k else p)))

/-- An open stripe has some but not all of its member pages programmed (R279). -/
def Superblock.openAt (x : Superblock) (closed : List Nat) (l p t : Nat) : Bool :=
  !(x.doneIn l t).isEmpty && decide ((x.doneIn l t).length < (x.membersIn closed l p t).length)

/-- The members that take no further page. -/
def State.closedMembers (s : State) (x : Superblock) : List Nat := (rangeFrom 0 x.members.length).filter (s.slotClosed x)

/-- The members with a page in a stripe. -/
def State.stripeMembers (s : State) (x : Superblock) (t : Nat) : List Nat :=
  x.membersIn (s.closedMembers x) (s.sbL x) (s.sbP x) t

/-- The members whose page of a stripe has been programmed. -/
def State.stripeDone (s : State) (x : Superblock) (t : Nat) : List Nat := x.doneIn (s.sbL x) t

/-- Is a stripe open? -/
def State.stripeOpen (s : State) (x : Superblock) (t : Nat) : Bool :=
  x.openAt (s.closedMembers x) (s.sbL x) (s.sbP x) t

/-- The open stripes of a superblock. -/
def State.openStripes (s : State) (x : Superblock) : Nat :=
  let closed := s.closedMembers x
  let l := s.sbL x
  let p := s.sbP x
  count (x.openAt closed l p) (rangeFrom 0 (p + l * (x.members.length - 1)))

/-- Does a program of the superblock run, or stand suspended, in the stripe group (R276, R277), whoever it serves? -/
def State.groupBusy (s : State) (x : Superblock) (g : Nat) : Bool :=
  s.flash.pages.any (fun p => p.running && (match x.memberOf p.die p.block with
    | some k => p.page / s.sbL x + k == g
    | none => false))

/-- The dies that may take a superblock's versions (R276). -/
def State.parityDies (s : State) (x : Superblock) : List Die :=
  (s.profileDies x.profile).filter (fun y => !x.members.any (fun m => m.1 == y.id))

/-- May member `k` take its next page now (R274, R277, R279)? Not where no die is left that could take its versions (R276). -/
def State.hasRoom (s : State) (x : Superblock) (k : Nat) : Bool :=
  let p := x.next k
  !(s.parityDies x).isEmpty && decide (p < s.sbP x) && !s.slotClosed x k && !s.groupBusy x (p / s.sbL x + k) &&
    (s.stripeOpen x (s.stripeOf x k p) || !(s.stripeDone x (s.stripeOf x k p)).isEmpty || decide (s.openStripes x < 256))

/-- The members with room. -/
def State.rooms (s : State) (x : Superblock) : List Nat := (rangeFrom 0 x.members.length).filter (s.hasRoom x)

/-- Are all members full or closed, or has no die been left for its versions (log entry 65)? -/
def State.sbFull (s : State) (x : Superblock) : Bool :=
  (s.parityDies x).isEmpty || (rangeFrom 0 x.members.length).all (fun k => s.slotClosed x k || decide (s.sbP x ≤ x.next k))

/-- A superblock closes: its programmed pages join DEBT_VERIFY and its blocks are closed (R283). -/
def State.closeSb (s : State) (i : Nat) : State :=
  match s.sb? i with
  | none => s
  | some x =>
    let pages := (rangeFrom 0 x.members.length).flatMap (fun k => (rangeFrom 0 (x.next k)).map (fun p => (k, p)))
    let s : State := x.members.foldl (fun (s : State) m =>
      s.setBlock m.1 m.2 (fun b => if b.st == .open then { b with st := .closed } else b)) s
    s.setSb i (fun x => { x with st := .closed, awaiting := pages })

/-- The erased data block of a die with the fewest erases, the lowest number first. -/
def State.freeBlock (s : State) (x : Die) : Option Nat :=
  (rangeFrom x.firstData x.nData).foldl (fun (m : Option Nat) n =>
    let b := s.block x.id n
    if b.st != .erased then m
    else match m with
      | none => some n
      | some k => if b.erases < (s.block x.id k).erases then some n else some k) none

/-- A list turned by `k` places. -/
def turned {α : Type} (k : Nat) (m : List α) : List α := m.drop (k % max 1 m.length) ++ m.take (k % max 1 m.length)

/-- The dies of a profile that have an erased data block, channel by channel in turn (R274), beginning further on for each superblock
opened. -/
def State.memberOrder (s : State) (profile : Nat) : List Die :=
  let l := (s.profileDies profile).filter (fun x => (s.freeBlock x).isSome)
  let n := s.flash.nextSb
  let chans := turned n ((rangeFrom 0 16).map (fun c => turned n (l.filter (fun x => x.id / 16 == c))))
  (rangeFrom 0 16).flatMap (fun t => chans.filterMap (fun c => (c.drop t).head?))

/-- Open the next superblock of a kind, with a block on each of M dies, of the first profile with three dies (R274, R275); while fewer
dies have an erased block none opens. DEDUCED: log entry 27. -/
def State.openSb (s : State) (host : Bool) : State :=
  match (rangeFrom 0 2).find? (fun i => decide (3 ≤ (s.profileDies i).length)) with
  | none => s
  | some i =>
    let m := min 16 ((s.profileDies i).length - 1)
    let ms := ((s.memberOrder i).filterMap (fun x => (s.freeBlock x).map (fun b => (x.id, b)))).take m
    if ms.length < m then s
    else
      let id := s.flash.nextSb
      let s : State := ms.foldl (fun (s : State) y => s.setBlock y.1 y.2 (fun b => { b with st := .open, sb := some id })) s
      s.onFlash (fun fl => { fl with
        nextSb := id + 1
        lastM := if host then m else fl.lastM
        superblocks := fl.superblocks ++ [{
          id := id, host := host, profile := i, members := ms, nextPage := ms.map (fun _ => 0), st := .open,
          awaiting := [], unread := [], versionSeq := 0, lastProgram := fl.map.stamp }] })

/-- The open superblock of a kind. -/
def State.openOf (s : State) (host : Bool) : Option Superblock :=
  s.flash.superblocks.find? (fun x => x.host == host && x.st == .open)

/-- The superblock that takes the next page of a kind: a full one closes and the next of its kind opens (R274). -/
def State.readySb (s : State) (host : Bool) : State :=
  match s.openOf host with
  | some x => if s.sbFull x then (s.closeSb x.id).openSb host else s
  | none => s.openSb host

/-- A superblock with no room left closes, and the next of its kind opens (R274, R283). -/
def State.closeFull (s : State) (i : Nat) : State :=
  match s.sb? i with
  | some x => if x.st == .open && s.sbFull x then (s.closeSb i).openSb x.host else s
  | none => s

/-! The parity region. -/

/-- The blocks of a die's parity region that are not retired. -/
def State.parityBlocks (s : State) (x : Die) : List Nat :=
  (rangeFrom (x.nSystem + x.nMap) x.nParity).filter (fun n => (s.block x.id n).st != .retired)

/-- Does a block hold a live version: the latest of a stripe of an unreleased superblock? -/
def State.holdsLive (s : State) (d b : Nat) : Bool := s.flash.versions.any (fun v => v.die == d && v.block == b)

/-- May a stream take a block that holds `sb`'s finals, or none? The finals leave the working stream its 4 blocks (R279). -/
def State.parityMay (s : State) (x : Die) (fin sb : Option Nat) : Bool :=
  fin.isNone || sb.isSome || decide (4 < count (fun n => (s.block x.id n).sb.isNone) (s.parityBlocks x))

/-- Erased blocks of a parity region. -/
def State.parityErased (s : State) (x : Die) : List Nat :=
  (s.parityBlocks x).filter (fun n => (s.block x.id n).st == .erased)

/-- The erased block that a stream would take next. -/
def State.parityFresh (s : State) (x : Die) (fin : Option Nat) : Option Nat :=
  if s.parityMay x fin none then (s.parityErased x).head? else none

/-- An erasable block for a stream: a programmed one, not the head of its stream, that holds no live version; for finals, of a superblock
whose parity has been released (R281, R282). -/
def State.parityErasable (s : State) (x : Die) (fin : Option Nat) : Option Nat :=
  (s.parityBlocks x).find? (fun n =>
    let b := s.block x.id n
    b.st != .erased && !s.holdsLive x.id n && s.parityMay x fin b.sb &&
      (match b.sb with
        | some i => (match s.sb? i with
          | some x => x.st == .uncovered
          | none => true)
        | none => b.st == .closed))

/-- The block of a stream that takes the next version page: the working stream (`none`) or the finals of a superblock. -/
def State.parityHead (s : State) (x : Die) (fin : Option Nat) : Option Nat :=
  (s.parityBlocks x).find? (fun n =>
    let b := s.block x.id n
    b.st == .open && b.sb == fin && decide (b.used < s.slcPages x.id))

/-- Erase a parity-region block. -/
def State.parityErase (s : State) (d b : Nat) : State := s.eraseBlock d b

/-- The release of a superblock's parity: every version is stale, its final blocks are erasable (R282, R285). The record goes
to the map region. -/
def State.dropVersions (s : State) (i : Nat) : State :=
  s.mapCopies.onFlash (fun fl => { fl with versions := fl.versions.filter (fun v => v.sb != i) })

/-- A forced release (R282): the closed, covered superblock whose last program is oldest; none while the card is read-only
under R293. DEDUCED: log entry 29. -/
def State.forcedRelease (s : State) : State :=
  let c := (s.flash.superblocks.filter (fun x => x.st == .closed)).foldl (fun (m : Option Superblock) x =>
    match m with
    | none => some x
    | some y => if x.lastProgram < y.lastProgram then some x else some y) none
  match c with
  | none => s
  | some x =>
    if s.flash.wear.readOnly then s
    else
      let s := (s.dropVersions x.id).setSb x.id (fun x => { x with st := .uncovered })
      (s.raise Evt.PROOF.FORCED_RELEASE).tally Reg.PROOF.FORCED_RELEASES.COUNT

/-- Find a page for a version: the head of its stream, an erased block, or one erased for it; for finals a forced release
first where neither is there (R279, R281, R282). Answers the block. -/
def State.parityPlace (s : State) (x : Die) (fin : Option Nat) : State × Option Nat :=
  let mark (s : State) (n : Nat) : State :=
    let s : State := match s.parityHead x fin with
      | some _ => s
      | none => (s.parityBlocks x).foldl (fun (s : State) k =>
          s.setBlock x.id k (fun b => if b.st == .open && b.sb == fin then { b with st := .closed } else b)) s
    s.setBlock x.id n (fun b => { b with st := .open, sb := fin, used := b.used + 1 })
  let s := if fin.isSome && (s.parityHead x fin).isNone && (s.parityFresh x fin).isNone && (s.parityErasable x fin).isNone
    then s.forcedRelease else s
  match s.parityHead x fin with
  | some n => (mark s n, some n)
  | none =>
    match s.parityFresh x fin with
    | some n => (mark s n, some n)
    | none =>
      match s.parityErasable x fin with
      | some n => (mark (s.parityErase x.id n) n, some n)
      | none => (s, none)

/-- The erases that a die's parity region has seen. -/
def State.parityWear (s : State) (x : Die) : Nat :=
  sumBy (fun n => (s.block x.id n).erases) (rangeFrom (x.nSystem + x.nMap) x.nParity)

/-- The oldest working block that is not the head: streams take the blocks in rotation. -/
def State.oldestWorking (s : State) (x : Die) : Option Nat :=
  let l := (s.parityBlocks x).filter (fun n => (s.block x.id n).sb.isNone && (s.block x.id n).st == .closed)
  match s.parityHead x none with
  | some h =>
    match l.find? (fun n => decide (h < n)) with
    | some n => some n
    | none => l.head?
  | none => l.head?

/-- One copy-forward, where it is due (R281); none that needs an erase once a data page program has made its one, `wear` being the
erases before it. -/
def State.copyForward (s : State) (x : Die) (wear : Nat) : State :=
  if 2 ≤ (s.parityErased x).length ||
      (s.parityWear x != wear && (s.parityHead x none).isNone && (s.parityErased x).isEmpty) then s
  else
    match s.oldestWorking x with
    | none => s
    | some b =>
      match s.flash.versions.find? (fun v => v.die == x.id && v.block == b) with
      | none => s
      | some v =>
        let s := (s.arrayRead x.id b).chTally Reg.CH.PROGRAMS.COUNT x.id
        let s := (s.tally Reg.PROOF.PARITY_PROGRAMS.COUNT).tally Reg.PROOF.COPY_FORWARDS.COUNT
        let r := s.parityPlace x none
        match r.2 with
        | some n => r.1.onFlash (fun fl => { fl with
            versions := mapIf (fun w => w.sb == v.sb && w.stripe == v.stripe) (fun w => { w with block := n }) fl.versions })
        | none => r.1

/-- The erase of a data page program, where it is due and none has been made (R281). -/
def State.dueErase (s : State) (x : Die) (wear : Nat) : State :=
  if 2 ≤ (s.parityErased x).length || s.parityWear x != wear then s
  else match s.parityErasable x none with
    | some n => s.parityErase x.id n
    | none => s

/-- The version of a stripe in force. -/
def State.version? (s : State) (i t : Nat) : Option Version := s.flash.versions.find? (fun v => v.sb == i && v.stripe == t)

/-- The parity buffers in use hold at most 4 MiB of pages (R280): the least recently used beyond that is evicted. -/
def State.evictBuffer (s : State) (d : Nat) : State :=
  let cap := 1024 / max 1 (s.slotsOf d)
  if count (fun v => v.cached) s.flash.versions ≤ cap then s
  else match s.flash.versions.find? (fun v => v.cached) with
    | some v => s.onFlash (fun fl => { fl with versions := mapIf (fun w => w == v) (fun w => { w with cached := false }) fl.versions })
    | none => s

/-- One parity page programmed on a die and counted on its channel and in PARITY_PROGRAMS (R283). -/
def State.parityTry (s : State) (y : Die) (stream : Option Nat) : State × Option Nat :=
  State.parityPlace ((s.chTally Reg.CH.PROGRAMS.COUNT y.id).tally Reg.PROOF.PARITY_PROGRAMS.COUNT) y stream

/-- Can a version find its page on a die (R279, R281, R282)? -/
def State.parityRoom (s : State) (y : Die) (fin : Option Nat) : Bool :=
  (s.parityHead y fin).isSome || (s.parityFresh y fin).isSome || (s.parityErasable y fin).isSome ||
    (fin.isSome && !s.flash.wear.readOnly && s.flash.superblocks.any (fun x => x.st == .closed))

/-- The stream that the next version of a stripe goes to: the finals of its superblock once the stripe is complete (R279). -/
def State.streamOf (s : State) (x : Superblock) (t : Nat) : Option Nat := if s.stripeOpen x t then none else some x.id

/-- Program one version of stripe `t` that covers the members `mask` on die `y` (R278–R281). `pass` is the outcome of its program; the
parity block of one that fails is retired (R288). Answers whether the version is there. -/
def State.putVersion (s : State) (x : Superblock) (t : Nat) (mask : List Nat) (y : Die) (pass : Bool) : State × Bool :=
  let stream := s.streamOf x t
  let r := s.parityTry y stream
  match r.2 with
  | none => (r.1, false)
  | some n =>
    if pass then
      let wear := s.parityWear y
      let s := ((r.1.copyForward y wear).copyForward y wear).dueErase y wear
      let v : Version := { sb := x.id, stripe := t, seq := x.versionSeq + 1, mask := mask, die := y.id, block := n,
                           final := stream.isSome, cached := stream.isNone }
      let s := s.setSb x.id (fun x => { x with versionSeq := (x.versionSeq + 1) % 2 ^ 32 })
      ((s.onFlash (fun fl => { fl with
        versions := fl.versions.filter (fun w => !(w.sb == x.id && w.stripe == t)) ++ [v] })).evictBuffer y.id, true)
    else ((r.1.chTally Reg.CH.PROG_FAILS.COUNT y.id).retire y.id n, false)

/-- The die that takes the next version: versions are spread over the eligible dies (R276). -/
def State.versionDie (s : State) (x : Superblock) : Option Die :=
  let dies := s.parityDies x
  dies[(x.versionSeq + s.flash.nextJob) % max 1 dies.length]?

/-- Program one version at once, where a recovery needs it (R287). -/
def State.programVersion (s : State) (i t : Nat) (mask : List Nat) : State :=
  match s.sb? i with
  | none => s
  | some x =>
    match s.versionDie x with
    | some y => if mask.isEmpty then s else (s.putVersion x t mask y true).1
    | none => s

/-! Release. -/

/-- Does a member hold a mapped sector that only a rebuild can read (R285)? -/
def State.needsRebuild (s : State) (x : Superblock) : Bool :=
  x.unread.any (fun m => s.pageValid (x.member m.1).1 (x.member m.1).2 m.2) ||
    x.members.any (fun m => !s.dieGood m.1 && s.holdsMapped m.1 m.2)

/-- Release a closed superblock once nothing is owed (R285). An uncovered one has no parity left to release. The release is recorded in
the map region, so that it waits while no program may start (R310). -/
def State.tryRelease (s : State) (i : Nat) : State :=
  match s.sb? i with
  | none => s
  | some x =>
    if x.st == .open || !x.awaiting.isEmpty || s.needsRebuild x || (x.st == .closed && !s.power.vholdOk) then s
    else
      let s := if x.st == .closed then (s.dropVersions i).tally Reg.PROOF.RELEASES.COUNT else s
      s.onFlash (fun fl => { fl with superblocks := fl.superblocks.filter (fun y => y.id != i) })

/-- Release every superblock that can be released. -/
def State.releaseAll (s : State) : State := s.flash.superblocks.foldl (fun (s : State) x => s.tryRelease x.id) s

/-! Rebuild. -/

/-- Is a page covered: its superblock unreleased and not uncovered, and its stripe's version names the member (R286)? -/
def State.coveringVersion (s : State) (d b p : Nat) : Option (Superblock × Nat × Version) :=
  match s.sbOf d b with
  | none => none
  | some x =>
    match x.memberOf d b with
    | none => none
    | some k =>
      match s.version? x.id (s.stripeOf x k p) with
      | some v => if x.st != .uncovered && v.mask.contains k then some (x, k, v) else none
      | none => none

/-- Mark every mapped sector of a page lost (R255, R286). -/
def State.losePage (s : State) (d b p : Nat) : State :=
  (s.flash.map.entries.filter (fun e => e.inPage d b p)).foldl (fun (s : State) e =>
    if s.pageFailed e.slice e.lba then s
    else (s.dirty e.slice (e.lba / 1024)).setEntry { e with loc := .lost }) s

/-- Rebuild a page (R286): `ok` says that the version and the other member pages decode; a page on a failed die does not.
Answers whether the page is there. `urgent` reads that carry a checkpoint batch are counted (R270). -/
def State.rebuild (s : State) (d b p : Nat) (ok : Bool) (urgent : Bool := false) : State × Bool :=
  match s.coveringVersion d b p with
  | none => (s, false)
  | some (x, k, v) =>
    let others := v.mask.filter (fun j => j != k)
    let l := s.sbL x
    let t := s.stripeOf x k p
    let good := ok && others.all (fun j => s.dieGood (x.member j).1) && (v.cached || s.dieGood v.die)
    let s := if v.cached then s else s.arrayRead v.die v.block urgent
    let s : State := others.foldl (fun (s : State) j =>
      if l * j ≤ t then s.arrayRead (x.member j).1 (x.member j).2 urgent else s) s
    if good then (((s.tally Reg.PROOF.REBUILDS.COUNT).raise Evt.PROOF.REBUILT).flagBlock d b, true)
    else ((s.report Src.PROOF.REBUILD_FAIL).losePage d b p, false)

/-! Page programs. -/

/-- A programmed page. -/
def State.page? (s : State) (d b p : Nat) : Option Page :=
  s.flash.pages.find? (fun x => x.die == d && x.block == b && x.page == p)

/-- Change a programmed page. -/
def State.setPage (s : State) (d b p : Nat) (f : Page → Page) : State :=
  s.onFlash (fun fl => { fl with pages := mapIf (fun x => x.die == d && x.block == b && x.page == p) f fl.pages })

/-- The slots of one page, filled up with padding (R486). -/
def padSlots (n : Nat) (l : List Slot) : List (Option Slot) :=
  (rangeFrom 0 n).map (fun i => l[i]?)

/-- The program of the next page of member `k` begins, or under ONE_SHOT of its next word line: the pages take their slots,
the member moves on. Answers the first page. -/
def State.beginPages (s : State) (x : Superblock) (k : Nat) (slots : List Slot) : State × Nat :=
  let d := (x.member k).1
  let b := (x.member k).2
  let p := x.next k
  let w := s.slotsOf d
  let n := s.sbShot x
  let pages := (rangeFrom 0 n).map (fun j =>
    { die := d, block := b, page := p + j, slots := padSlots w ((slots.drop (w * j)).take w), running := true, confirmed := false,
      passed := false, covered := false, stamp := s.flash.map.stamp + 1 : Page })
  let s := s.chTally Reg.CH.PROGRAMS.COUNT d
  let s := s.setBlock d b (fun y => { y with used := p + n })
  let s := s.onFlash (fun fl => { fl with
    pages := fl.pages ++ pages
    map := { fl.map with stamp := fl.map.stamp + 1 } })
  (s.setSb x.id (fun x => { x with nextPage := x.nextPage.set k (p + n), lastProgram := s.flash.map.stamp }), p)

/-- The pages of a program that have begun in the array (R314). -/
def State.confirmPages (s : State) (d b p n : Nat) : State :=
  s.onFlash (fun fl => { fl with
    pages := mapIf (fun x => x.die == d && x.block == b && decide (p ≤ x.page ∧ x.page < p + n)) (fun x => { x with confirmed := true })
      fl.pages })

/-! Parity versions as jobs (R276, R278, R281, R288). -/

/-- A page has failed verification (R284): its block is retired and flagged, its mapped sectors wait to be moved. -/
def State.verifyFails (s : State) (i k d b p : Nat) : State :=
  let s := (s.raise Evt.PROOF.VERIFY_FAIL).tally Reg.PROOF.VERIFY_FAILS.COUNT
  let s := (s.retire d b).flagBlock d b
  if s.pageValid d b p then s.setSb i (fun x => { x with unread := x.unread ++ [(k, p)] }) else s

/-- Does a page decode where no row carries the outcome of its read? Free: log entry 37. -/
def State.freeDecode (s : State) (kind d b p : Nat) : Bool := !bitAt (Config.nand kind d b p (s.block d b).reads) 0

/-- Read and decode the member pages of a stripe (R280, R287 step 3). Answers those that decode. -/
def State.readMembers (s : State) (x : Superblock) (t : Nat) (ms : List Nat) : State × List Nat :=
  ms.foldl (fun (a : State × List Nat) k =>
    let d := (x.member k).1
    let b := (x.member k).2
    if !a.1.dieGood d then a
    else
      let s := a.1.arrayRead d b
      (s, if s.freeDecode 5 d b (t - s.sbL x * k) then a.2 ++ [k] else a.2)) (s, [])

/-- Reload an evicted parity buffer from the stripe's latest version, or where that fails from its member pages; a member page that fails
too is left out and settled as one that fails verification (R280). Answers the members that the buffer holds. -/
def State.reloadBuffer (s : State) (x : Superblock) (t : Nat) : State × List Nat :=
  match s.version? x.id t with
  | none => (s, [])
  | some v =>
    if v.cached then (s, v.mask)
    else
      let s := if s.dieGood v.die then s.arrayRead v.die v.block else s
      if s.dieGood v.die && s.freeDecode 6 v.die v.block t then (s, v.mask)
      else
        let r := s.readMembers x t v.mask
        ((v.mask.filter (fun k => !r.2.contains k)).foldl (fun (s : State) k =>
          s.verifyFails x.id k (x.member k).1 (x.member k).2 (t - s.sbL x * k)) r.1, r.2)

/-- The members whose page of a stripe has passed and is covered by no version yet. -/
def State.uncoveredIn (s : State) (x : Superblock) (t : Nat) : List Nat :=
  (rangeFrom 0 x.members.length).filter (fun k => decide (s.sbL x * k ≤ t) &&
    (match s.page? (x.member k).1 (x.member k).2 (t - s.sbL x * k) with
      | some y => y.passed && !y.covered
      | none => false))

/-- A job is over. -/
def State.dropJob (s : State) (id : Nat) : State :=
  s.onFlash (fun fl => { fl with jobs := fl.jobs.filter (fun j => j.id != id) })

/-- The program of a page's version on die `y` ends (R278): the version covers every member page of the stripe programmed so far. One
that fails is programmed again on another page (R288). -/
def State.versionRuns (s : State) (id i t k d b p y : Nat) (pass : Bool) : State :=
  match s.sb? i, s.die? y with
  | some x, some z =>
    let r := s.reloadBuffer x t
    let mask := r.2 ++ ((r.1.uncoveredIn x t ++ [k]).eraseDups).filter (fun m => !r.2.contains m)
    let r := r.1.putVersion x t mask z pass
    if r.2 then (r.1.setPage d b p (fun w => { w with covered := true })).dropJob id else r.1
  | none, _ => (s.setPage d b p (fun w => { w with covered := true })).dropJob id
  | some _, none => s

/-- The program of a version that takes the place of one on a failed die ends (R276): it covers the member pages as they decode. -/
def State.replaceRuns (s : State) (id i t y : Nat) (pass : Bool) : State :=
  match s.sb? i, s.version? i t, s.die? y with
  | some x, some v, some z =>
    let r := s.readMembers x t v.mask
    if r.2.isEmpty then
      (r.1.onFlash (fun fl => { fl with versions := fl.versions.filter (fun w => !(w == v)) })).dropJob id
    else
      let r := r.1.putVersion x t r.2 z pass
      if r.2 then r.1.dropJob id else r.1
  | none, _, _ => s.dropJob id
  | some _, none, _ => s.dropJob id
  | some _, some _, none => s

/-- What a job in the map region brings about once its programs have passed. -/
def State.jobEnds (s : State) (j : Job) : State :=
  let s := s.dropJob j.id
  match j.work with
  | .writeBack i idx => s.writtenBack i idx j.places
  | .trimRecord q status =>
    match s.cmd? q with
    | some c => (match c.dataRing with
      | some i => (s.trimRecorded i c.lba c.done).endCmd q status
      | none => s)
    | none => s
  | .checkpoints => s.checkpointsPassed
  | .version _ _ _ _ _ _ => s
  | .replace _ _ => s

/-- One program of a job in the map region ends on die `d`; one that fails is made again in another block (log entry 37). -/
def State.mapCopyRuns (s : State) (j : Job) (d : Nat) (pass : Bool) : State :=
  let r := s.mapProgram d
  match r.2 with
  | some b =>
    if !pass then (r.1.chTally Reg.CH.PROG_FAILS.COUNT d).retire d b
    else
      let j : Job := { j with dies := j.dies.filter (fun e => e != d), places := j.places ++ [(d, b)] }
      if j.dies.isEmpty then r.1.jobEnds j
      else r.1.onFlash (fun fl => { fl with jobs := mapIf (fun (x : Job) => x.id == j.id) (fun _ => j) fl.jobs })
  | none => r.1.jobEnds { j with dies := [] }

/-- A job's program on die `d` ends. -/
def State.jobRuns (s : State) (j : Job) (d : Nat) (pass : Bool) : State :=
  match j.work with
  | .version i t k x b p => s.versionRuns j.id i t k x b p d pass
  | .replace i t => s.replaceRuns j.id i t d pass
  | .writeBack _ _ => s.mapCopyRuns j d pass
  | .trimRecord _ _ => s.mapCopyRuns j d pass
  | .checkpoints => s.mapCopyRuns j d pass

/-- A job that has not ended. -/
def State.job? (s : State) (id : Nat) : Option Job := s.flash.jobs.find? (fun j => j.id == id)

/-- The parity buffers in use (R280): those cached, and those of stripes whose version has not passed. -/
def State.buffersInUse (s : State) : Nat :=
  count (fun v => v.cached) s.flash.versions +
    ((s.flash.jobs.filterMap (fun j => match j.work with
      | .version i t _ _ _ _ => if s.flash.versions.any (fun v => v.sb == i && v.stripe == t && v.cached) then none else some (i, t)
      | .replace _ _ => none
      | .writeBack _ _ => none
      | .trimRecord _ _ => none
      | .checkpoints => none)).eraseDups).length

/-- The request of a job on a die. -/
def jobReq (j : Job) : Req := newReq j.bearer.who (j.bearer.q.getD 0) j.bearer.cls j.bearer.weight .program 0 0 (.job j.id)

/-- Does a job's request stand on a die or wait for it? -/
def Die.hasJob (x : Die) (id : Nat) : Bool :=
  (x.reqs ++ x.queued ++ x.orphans ++ (x.holder.bind Holder.req?).toList).any (fun r => r.work == .job id)

/-- Can the version of a job find a page on the die (R281, R282)? -/
def State.jobRoom (s : State) (j : Job) (y : Die) : Bool :=
  let room (i t : Nat) : Bool := match s.sb? i with
    | some x => s.parityRoom y (s.streamOf x t)
    | none => true
  match j.work with
  | .version i t _ _ _ _ => room i t
  | .replace i t => room i t
  | .writeBack _ _ => true
  | .trimRecord _ _ => true
  | .checkpoints => true

/-- Ask for a die on a job's behalf; a housekeeping job's step waits with the orphans (R227, R276). -/
def State.askJob (s : State) (j : Job) (d : Nat) : State :=
  match s.die? d with
  | some y =>
    if y.hasJob j.id || !s.jobRoom j y then s
    else if 67 < j.bearer.who then s.setDie d (fun x => { x with orphans := x.orphans ++ [jobReq j] })
    else s.present d (jobReq j)
  | none => s

/-- A version's job on another die once its own has failed (R276); without any such die its page stays without a version, and the
sectors in it are placed anew (log entry 65). -/
def State.rehome (s : State) (j : Job) : State :=
  let choose (i : Nat) : State := match s.sb? i with
    | some x => (match s.versionDie x with
      | some y => s.onFlash (fun fl => { fl with jobs := mapIf (fun (x : Job) => x.id == j.id) (fun x => { x with dies := [y.id] }) fl.jobs })
      | none => s)
    | none => s
  if !j.dies.isEmpty then s
  else match j.work with
    | .version i _ _ _ _ _ => choose i
    | .replace i _ => choose i
    | .writeBack _ _ => s.jobEnds j
    | .trimRecord _ _ => s.jobEnds j
    | .checkpoints => s.jobEnds j

/-- Every job asks for the dies that it still needs. -/
def State.jobsGo (s : State) : State :=
  let s : State := s.flash.jobs.foldl (fun (s : State) j => s.rehome j) s
  s.flash.jobs.foldl (fun (s : State) j => j.dies.foldl (fun (s : State) d => s.askJob j d) s) s

/-- Begin a job: a program on a free die is made at once, with the outcome given, and others are asked for. A power-up recovery has the
dies to itself. -/
def State.beginJob (s : State) (b : Bearer) (w : JobWork) (dies : List Nat) (pass : Bool) : State :=
  let s := s.addJob b w dies
  match s.flash.jobs.find? (fun j => j.work == w) with
  | none => s
  | some j =>
    if j.dies.isEmpty then s.rehome j
    else j.dies.foldl (fun (s : State) d =>
      match s.job? j.id, s.die? d with
      | some j, some y =>
        if j.dies.contains d && !y.hasJob j.id && s.jobRoom j y &&
            (!s.power.recovered || s.dieFree d j.bearer.who 0 .program false) then
          (s.countGrant j.bearer.who d 0).jobRuns j d pass
        else s.askJob j d
      | some _, none => s
      | none, _ => s) s

/-- The due checkpoints are written in a batch (R270). -/
def State.beginBatch (s : State) (q : Option Nat) : State :=
  if s.checkpointDue then s.beginJob (s.mapBearer q) .checkpoints s.mapDies true else s

/-- A scan set of 196,608 pages or more makes a WRITE whose data phase ends, or an upkeep step that programs, carry one further
write-back, of the page with the oldest change (R321). -/
def State.scanJob (s : State) (q : Option Nat) : State :=
  if 196608 ≤ s.scanSet then
    match s.oldestDirty with
    | some p => s.beginJob (s.mapBearer q) (.writeBack p.slice p.idx) s.mapDies true
    | none => s
  else s

/-- Begin the version that a page which has passed is paired with (R278). `out` is the outcome of its program where the row that
programs the page carries it; otherwise a die is asked for. -/
def State.beginVersion (s : State) (br : Bearer) (x : Superblock) (k p : Nat) (out : Option Bool) : State :=
  let t := s.stripeOf x k p
  let w : JobWork := .version x.id t k (x.member k).1 (x.member k).2 p
  let dies := (s.versionDie x).toList.map (fun y => y.id)
  match out with
  | some pass => s.beginJob br w dies pass
  | none => (s.addJob br w dies).jobsGo

/-- The program has passed: each page is paired with a version of its stripe (R278), and a superblock with no room left
closes (R283). `out` gives the outcome of the first page's version. -/
def State.passPages (s : State) (br : Bearer) (i k p n : Nat) (out : Option Bool) : State :=
  let s : State := (rangeFrom p n).foldl (fun (s : State) j =>
    match s.sb? i with
    | some x =>
      (s.setPage (x.member k).1 (x.member k).2 j (fun y => { y with passed := true, running := false, confirmed := true })).beginVersion br x k j
        (out.map (fun o => o || j != p))
    | none => s) s
  s.closeFull i

/-- What a page's block takes of its program's failure (R288): it is retired, the pages hold nothing, the superblock closes where
that leaves it full. -/
def State.spoilPages (s : State) (x : Superblock) (k p : Nat) : State :=
  let d := (x.member k).1
  let b := (x.member k).2
  let s := (s.chTally Reg.CH.PROG_FAILS.COUNT d).retire d b
  let s : State := (rangeFrom p (s.sbShot x)).foldl (fun (s : State) j =>
    s.setPage d b j (fun y => { y with slots := y.slots.map (fun _ => none), running := false })) s
  (s.flagBlock d b).closeFull x.id

/-- The exposure set of a failed page: the pages of its word line programmed before it (R277, R288). -/
def State.exposedBy (s : State) (x : Superblock) (k p : Nat) : List (Nat × Nat × Nat) :=
  let l := s.sbL x
  if s.sbShot x = 1 then (rangeFrom (p - p % l) (p % l)).map (fun j => ((x.member k).1, (x.member k).2, j)) else []

/-- Place sectors of one Slice in fresh pages of the relocation superblock; whether such a program passes is free, and one that
fails is repeated in another block. Answers whether all of them found a place, and the pages that the failures expose. -/
def State.placeAnew (br : Bearer) : Nat → List Slot → List (Nat × Nat × Nat) → State → State × Bool × List (Nat × Nat × Nat)
  | 0, l, e, s => (s, l.isEmpty, e)
  | n + 1, l, e, s =>
    if l.isEmpty then (s, true, e)
    else
      let s := s.readySb false
      match s.openOf false with
      | none => (s, false, e)
      | some x =>
        match s.rooms x with
        | [] => (s, false, e)
        | k :: _ =>
          let w := s.slotsOf (x.member k).1 * s.sbShot x
          let now := l.take w
          let r := s.beginPages x k now
          let out := Config.nand 3 (x.member k).1 (x.member k).2 r.2 (s.block (x.member k).1 (x.member k).2).erases
          if bitAt out 0 then
            State.placeAnew br n l (e ++ s.exposedBy x k r.2) (r.1.spoilPages x k r.2)
          else
            let s := (r.1.passPages br x.id k r.2 (s.sbShot x) (some (!bitAt out 1))).tally64 Reg.FTL.NAND_SECT_LO.COUNT
              Reg.FTL.NAND_SECT_HI.COUNT now.length
            State.placeAnew br n (l.drop w) e s

/-- As many programs as may be tried before every data block has failed. -/
def State.triesFor (s : State) (l : List Slot) : Nat := l.length + sumBy (fun (x : Die) => x.nData) s.flash.dies

/-- Do versions cover a page and the pages paired with it, those of its word line programmed before it (R17, R277)? -/
def State.wordLineCovered (s : State) (d b p : Nat) : Bool :=
  let l := ((s.dieProfile d).map (fun x => x.bpc)).getD 1
  s.flash.pages.all (fun x => x.die != d || x.block != b || x.page / max 1 l != p / max 1 l || decide (p < x.page) || x.covered ||
    x.slots.all (fun z => z.isNone))

/-- Where a sector of commit sequence `seq` lies in a page whose program passed, with its Proofing parity (R17). -/
def State.placed (s : State) (i lba seq : Nat) : Option Mapped :=
  s.flash.pages.findSome? (fun p =>
    if p.passed && s.wordLineCovered p.die p.block p.page then
      match p.slots.findIdx? (fun x => match x with
        | some y => y.slice == i && y.lba == lba && y.seq == seq
        | none => false) with
      | some j => some (.at p.die p.block p.page j)
      | none => none
    else none)

/-- Does a WRITE In flight await the commit of this sector? -/
def State.awaited (s : State) (y : Slot) : Bool :=
  s.cmds.any (fun c => c.opcode == opWrite && !c.done? && c.seqNo == y.seq && c.dataRing == some y.slice)

/-- A slot of a page that still counts: mapped there, or awaiting its commit. -/
def State.slotLive (s : State) (d b p : Nat) (y : Slot) : Bool :=
  (match s.entry y.slice y.lba with
    | some e => e.inPage d b p
    | none => false) || s.awaited y

/-- Move the live slots of a page into fresh pages: the mapped ones move, the awaited ones leave the old page (R288). Answers the
pages that failing programs have exposed. -/
def State.moveSlots (br : Bearer) (s : State) (d b p : Nat) : State × List (Nat × Nat × Nat) :=
  match s.page? d b p with
  | none => (s, [])
  | some y =>
    let live := (y.slots.filterMap id).filter (s.slotLive d b p)
    let slices := (live.map (fun z => z.slice)).eraseDups
    slices.foldl (fun (a : State × List (Nat × Nat × Nat)) i =>
      let l := live.filter (fun z => z.slice == i)
      let r := State.placeAnew br (a.1.triesFor l) l a.2 a.1
      if r.2.1 then
        let s : State := l.foldl (fun (s : State) z =>
          match s.flash.pages.reverse.findSome? (fun q =>
              if q.passed && !(q.die == d && q.block == b && q.page == p) then
                (q.slots.findIdx? (fun w => w == some z)).map (fun j => Mapped.at q.die q.block q.page j)
              else none) with
          | some m => s.moveSector i z.lba d b p m
          | none => s) r.1
        (s.setPage d b p (fun y => { y with slots := y.slots.map (fun w =>
          match w with
          | some z => if z.slice == i && s.awaited z then none else w
          | none => none) }), r.2.2)
      else (r.1, r.2.2)) (s, [])

/-- The pages that failed programs have exposed are rebuilt, where their reads allow it, and moved (R288). -/
def State.moveExposed (br : Bearer) : Nat → List (Nat × Nat × Nat) → State → State
  | 0, _, s => s
  | _ + 1, [], s => s
  | n + 1, e :: l, s =>
    let r := s.rebuild e.1 e.2.1 e.2.2 (!bitAt (Config.nand 4 e.1 e.2.1 e.2.2 (s.block e.1 e.2.1).reads) 0)
    if r.2 then
      let m := State.moveSlots br r.1 e.1 e.2.1 e.2.2
      State.moveExposed br n (l ++ m.2) m.1
    else State.moveExposed br n l r.1

/-- As many exposed pages as there may be before every data block has failed. -/
def State.exposures (s : State) (e : List (Nat × Nat × Nat)) : Nat := e.length + 4 * sumBy (fun (x : Die) => x.nData) s.flash.dies

/-- Move the live slots of a page into fresh pages, and those of the pages that this exposes. -/
def State.moveOut (br : Bearer) (s : State) (d b p : Nat) : State :=
  let m := State.moveSlots br s d b p
  State.moveExposed br (m.1.exposures m.2) m.2 m.1

/-- The sectors of a program that has ended count for their WRITEs (OFFSET of Table 8-3). -/
def State.advance (s : State) (slots : List Slot) : State :=
  slots.foldl (fun (s : State) y =>
    match s.cmds.find? (fun c => c.opcode == opWrite && !c.done? && c.seqNo == y.seq && c.dataRing == some y.slice) with
    | some c => s.setDesc c.q (fun d => { d with offset := d.offset + 1 })
    | none => s) s

/-- A data page program's status reads fail (R288): the block is retired, the pages of its word line programmed before are
rebuilt and moved, the failed page's sectors are placed in fresh pages. -/
def State.failPages (s : State) (br : Bearer) (x : Superblock) (k p : Nat) : State :=
  let slots := (rangeFrom p (s.sbShot x)).flatMap (fun j => match s.page? (x.member k).1 (x.member k).2 j with
    | some y => y.slots.filterMap id
    | none => [])
  let e := s.exposedBy x k p
  let s := s.spoilPages x k p
  let s := State.moveExposed br (s.exposures e) e s
  let r := State.placeAnew br (s.triesFor slots) slots [] s
  let s := if r.2.1 then r.1.advance slots else r.1
  State.moveExposed br (s.exposures r.2.2) r.2.2 s

/-- A data page program ends (R17, R278, R288); `out` is the outcome of the version's program where a row carries it. -/
def State.endPages (s : State) (br : Bearer) (i k p : Nat) (pass : Bool) (out : Option Bool) : State :=
  match s.sb? i with
  | none => s
  | some x =>
    let d := (x.member k).1
    let b := (x.member k).2
    let n := s.sbShot x
    if pass then
      let slots := (rangeFrom p n).flatMap (fun j => match s.page? d b j with
        | some y => y.slots.filterMap id
        | none => [])
      ((s.passPages br i k p n out).tally64 Reg.FTL.NAND_SECT_LO.COUNT Reg.FTL.NAND_SECT_HI.COUNT slots.length).advance slots
    else s.failPages br x k p

/-- The pages that wait for a version which no die can take: their sectors are placed anew (R17, R276). DESIGN CHOICE: log entry 65. -/
def State.strandedPages (s : State) : State :=
  s.flash.jobs.foldl (fun (s : State) j =>
    match j.work with
    | .version i _ _ d b p =>
      (match s.sb? i with
        | some x =>
          if (s.parityDies x).isEmpty then
            let m := State.moveSlots j.bearer s d b p
            let left := match m.1.page? d b p with
              | some y => y.slots.any (fun z => z.isSome)
              | none => false
            if left then s else (State.moveExposed j.bearer (m.1.exposures m.2) m.2 m.1).dropJob j.id
          else s
        | none => s)
    | .replace _ _ => s
    | .writeBack _ _ => s
    | .trimRecord _ _ => s
    | .checkpoints => s) s

/-! Failed dies. -/

/-- A die is declared failed (R290, R276): it leaves use, its blocks are retired as far as spares go, requests for it are
settled by the rules of Table 8-4, jobs lose it, versions that lay on it are replaced by housekeeping jobs. -/
def State.failDie (s : State) (d : Nat) : State :=
  match s.die? d with
  | none => s
  | some x =>
    if x.failed then s
    else
      let n := d / 16
      let already := count (fun b => b.die == d && b.st == .retired) s.flash.blocks
      let more := x.nMap + x.nParity + x.nData - already
      let s := (s.setDie d (fun x => { x with
        failed := true, fifo := [], waiting := [], lower := [], queued := [], holder := none, activity := .idle, preempting := false
        preempted := none, suspended := false, orphans := [], watchdog := 0, bitten := false })).leaveBus d
      let s := s.onFlash (fun fl => { fl with
        blocks := mapIf (fun (b : Block) => b.die == d) (fun b => { b with st := .retired }) fl.blocks
        words := fl.words.filter (fun w => w.die != d || !w.soft || w.reads == 3)
        jobs := fl.jobs.map (fun (j : Job) => { j with dies := j.dies.filter (fun e => e != d) })
        upkeep := { fl.upkeep with patrol := fl.upkeep.patrol.filter (fun e => e.1 != d) }
        wear := { fl.wear with
          spare := setChanValue fl.wear.spare n (chanValue fl.wear.spare n - more)
          retired := setChanValue fl.wear.retired n (chanValue fl.wear.retired n + more) } })
      let s := (s.raise Evt.WEAR.RETIRED).report (Src.CH.DIE_FAILED.1 + n, Src.CH.DIE_FAILED.2)
      ((s.flash.versions.filter (fun v => v.die == d)).foldl (fun (s : State) v =>
        s.addJob { who := 0x44, q := none, cls := .steady, weight := 0 } (.replace v.sb v.stripe) []) s).jobsGo

end Sys2Proof.Machine
end

