-- ==== Sys2Proof/Machine/Recovery.lean ====
section
/-!
DEFINITION. What a loss of power or a system reset leaves of the flash side, identification (R335), the first start-up (R296),
power-up recovery (Table 12-7, R287, R295, R314, R271), the channels' configuration marks (R338) and the temperature sensor
(R268, R423, R424).
-/
namespace Sys2Proof.Machine

/-! What is lost. -/

/-- A die whose arbiter has been reset. -/
def Die.idle (x : Die) : Die :=
  { x with u := 0, fifo := [], waiting := [], lower := [], holder := none, activity := .idle, preempting := false,
           preempted := none, suspended := false, orphans := [], deficits := [], bulkCredit := 0, rrPointer := 0,
           bulkPointer := 0, admitted := 0, guarded := false, watchdog := 0, bitten := false, queued := [], moved := 0 }

/-- The sectors of WRITEs In flight that lie in a page whose program had begun and that no later command has replaced
(Table 12-5). -/
def State.caughtNow (s : State) : List MapEntry :=
  s.flash.pages.flatMap (fun p => (p.slots.zip (rangeFrom 0 p.slots.length)).filterMap (fun e =>
    match e.1 with
    | some y =>
      let q := s.cmds.find? (fun c => c.opcode == opWrite && !c.done? && c.seqNo == y.seq && c.dataRing == some y.slice)
      match q with
      | some c => if s.superseded c.q y.slice y.lba y.seq then none
          else some { slice := y.slice, lba := y.lba, seq := y.seq, loc := .at p.die p.block p.page e.2 }
      | none => none
    | none => none))

/-- A lost map page whose loss had not been written back maps what its copies hold (R248). -/
def State.unloseMaps (s : State) : State :=
  s.flash.map.lostPages.foldl (fun (s : State) p =>
    let inPage (e : MapEntry) : Bool := e.slice == p.1 && e.lba / 1024 == p.2
    let old := s.flash.map.ghosts.filter inPage
    let s := s.onMap (fun m => { m with
      entries := m.entries.filter (fun e => !(inPage e && e.loc == .lost))
      ghosts := m.ghosts.filter (fun e => !inPage e) })
    old.foldl (fun (s : State) e => if (s.entry e.slice e.lba).isNone then s.setEntry e else s) s) s

/-- A page whose input had not been confirmed is as if it had never been begun (R314). -/
def State.dropUnconfirmed (s : State) : State :=
  (s.flash.pages.filter (fun p => p.running && !p.confirmed)).foldl (fun (s : State) p =>
    let s := (s.setBlock p.die p.block (fun b => { b with used := min b.used p.page })).onFlash (fun fl => { fl with
      pages := fl.pages.filter (fun y => !(y.die == p.die && y.block == p.block && y.page == p.page)) })
    match s.sbOf p.die p.block with
    | some x => (match x.memberOf p.die p.block with
      | some k => s.setSb x.id (fun x => { x with nextPage := x.nextPage.set k (min (x.next k) p.page) })
      | none => s)
    | none => s) s

/-- The blocks whose erase runs or stands suspended. -/
def State.erasing (s : State) : List (Nat × Nat) :=
  s.flash.dies.flatMap (fun x => (((x.holder.bind Holder.req?).toList ++ x.preempted.toList ++ x.orphans).filter
    (fun r => r.op == .erase && r.inArray)).map (fun r => (x.id, r.block)))

/-- The flash side after a loss of power or a system reset: arbiters, caches, buffers and counts in SRAM are gone (R271,
R280, R323). A page that is still marked as running was interrupted. -/
def State.flashLost (s : State) : State :=
  let s := s.dropUnconfirmed
  let caught := s.flash.caught ++ s.caughtNow
  let erases := s.erasing
  let s := s.unloseMaps
  s.onFlash (fun fl => { fl with
    dies := fl.dies.map Die.idle
    chans := []
    versions := fl.versions.map (fun v => { v with cached := false })
    map := { fl.map with cache := [], fetching := [], failed := [], snaps := [], lostPages := [] }
    upkeep := Upkeep.reset
    arb := []
    words := []
    jobs := []
    caught := caught
    cutErases := fl.cutErases ++ erases })

/-! Channels. -/

/-- A channel as the option loader finds it: in SDR timing mode 0, not configured. -/
def freshChan (n : Nat) : Chan :=
  { id := n, reconf := false, k := 0, sdr := true, khz := 25000, countKhz := 25000, fast := false, zqDone := false, configured := false,
    bus := none, busWait := [], beat := 0 }

/-- The populated channels with a valid entry, not configured yet. -/
def State.freshChannels (s : State) : State := s.onFlash (fun fl => { fl with chans := s.populated.map freshChan })

/-- Every channel needs reconfiguration (R338). -/
def State.markReconf (s : State) : State :=
  s.onFlash (fun fl => { fl with chans := fl.chans.map (fun c => { c with reconf := true }) })

/-- The frequency in force has changed: the quartets' calibration is owed too (R338). -/
def State.newFrequency (s : State) : State :=
  s.onFlash (fun fl => { fl with chans := fl.chans.map (fun c => { c with reconf := true, zqDone := false }) })

/-- Was an operation running on channel `n` when the freeze came (R306)? -/
def State.opRunning (s : State) (n : Nat) : Bool :=
  (s.chanDies n).any (fun x => x.suspended || !x.orphans.isEmpty || (x.holder.isSome && x.activity != .idle) ||
    (match x.holder with
      | some (.resetLun _ _) => true
      | some .reconfig => true
      | some (.step _) => false
      | some (.orphan _) => false
      | none => false))

/-- Was a program or erase running or suspended (LAST_PHASE.PROGRAMS)? -/
def State.programRunning (s : State) : Bool :=
  s.flash.dies.any (fun x => x.suspended || x.activity == .programming || x.activity == .erasing ||
    x.orphans.any (fun r => r.op != .read))

/-! Identification. -/

/-- A die met for the first time. -/
def newDie (d : Nat) : Die :=
  { id := d, present := true, failed := false, u := 0, fifo := [], waiting := [], lower := [], holder := none,
    activity := .idle, preempting := false, preempted := none, suspended := false, orphans := [], deficits := [],
    bulkCredit := 0, rrPointer := 0, bulkPointer := 0, admitted := 0, guarded := false, watchdog := 0, bitten := false,
    queued := [], moved := 0, resetLun := true, bad := [], nSystem := 0, nMap := 0, nParity := 0, nData := 0 }

/-- Put a die in its place. -/
def insertDie (x : Die) : List Die → List Die
  | [] => [x]
  | y :: l => if x.id < y.id then x :: y :: l else y :: insertDie x l

/-- The dies of the population entry of channel `n`. -/
def State.entryDies (s : State) (n : Nat) : List Nat := rangeFrom (16 * n) (s.population n).dies

/-- Do all LUNs of die `d`'s package target answer as the profile says (R328, R335)? -/
def targetFound (luns : Nat) (dies : List Nat) (d : Nat) : Bool :=
  (rangeFrom (d - d % 16 + d % 16 / max 1 luns * luns) luns).all (fun e => dies.contains e)

/-- CHANNEL_IDENTIFICATION (R335): the dies of the targets that answer are present, ID_FAIL where a populated entry is invalid or a die of it
is absent. -/
def State.identify (s : State) (env : RecoveryIn) : State :=
  let marked := (rangeFrom 0 16).filter s.chanMarked
  let s : State := marked.foldl (fun (s : State) n =>
    let found := match s.chanProfile n with
      | some p => (s.entryDies n).filter (targetFound p.luns env.dies)
      | none => []
    let bad := (s.chanProfile n).isNone || (s.entryDies n).any (fun d => !found.contains d)
    let s := s.onFlash (fun fl => { fl with
      dies := mapIf (fun x => x.id / 16 == n) (fun x => { x with present := found.contains x.id }) fl.dies
      chans := mapIf (fun c => c.id == n) (fun c => { c with configured := !found.isEmpty }) fl.chans })
    let s : State := found.foldl (fun (s : State) d =>
      if (s.die? d).isSome then s
      else
        let marks := ((env.factoryBad.filter (fun e => e.1 == d)).map (fun e => e.2)).eraseDups
        s.onFlash (fun fl => { fl with dies := insertDie { newDie d with bad := marks } fl.dies })) s
    let s := s.onFlash (fun fl => { fl with
      dies := mapIf (fun x => found.contains x.id) (fun x => { x with resetLun := !env.noResetLun.contains x.id }) fl.dies })
    if bad then s.report (Src.CH.ID_FAIL.1 + n, Src.CH.ID_FAIL.2) else s) s
  s.onFlash (fun fl => { fl with
    dies := mapIf (fun x => !marked.contains (x.id / 16)) (fun x => { x with present := false }) fl.dies })

/-! The first start-up. -/

/-- Dies that hold a copy of the system area (R388): die 0 of the two lowest-numbered populated channels, or dies 0 and 1. -/
def State.systemDies (s : State) : List Nat :=
  match s.populated with
  | [] => []
  | [n] => [16 * n, 16 * n + 1]
  | n :: m :: _ => [16 * n, 16 * m]

/-- The blocks from `pos` on that hold `need` good ones. -/
def goodSpan (bad : List Nat) : Nat → Nat → Nat → Nat
  | 0, _, _ => 0
  | n + 1, pos, need =>
    if need = 0 then 0
    else 1 + goodSpan bad n (pos + 1) (if bad.contains pos then need else need - 1)

/-- The regions of a die over its good blocks (R279, R296, R388). -/
def State.layout (s : State) (x : Die) : Die :=
  match s.dieProfile x.id with
  | none => x
  | some p =>
    let bad := x.bad.filter (fun b => decide (b < p.blocks))
    let good := p.blocks - bad.length
    let sys := if s.systemDies.contains x.id then min 64 good else 0
    let par := min (good - sys) (max 8 (ceilDiv (3 * good) 100))
    let map := min (Config.mapRegion good) (good - sys - par)
    let sys := goodSpan bad p.blocks 0 sys
    let map := goodSpan bad p.blocks sys map
    let par := goodSpan bad p.blocks (sys + map) par
    { x with nSystem := sys, nMap := map, nParity := par, nData := p.blocks - sys - map - par }

/-- The good blocks of a die's data region. -/
def Die.goodData (x : Die) : Nat :=
  x.nData - count (fun b => decide (x.firstData ≤ b) && decide (b < x.firstData + x.nData)) x.bad

/-- The blocks with the factory bad-block mark are in use nowhere. -/
def State.retireMarked (s : State) : State :=
  s.flash.dies.foldl (fun (s : State) x =>
    x.bad.foldl (fun (s : State) b => s.setBlock x.id b (fun y => { y with st := .retired })) s) s

/-- Is the flash outside the system area erased? -/
def State.flashBlank (s : State) : Bool :=
  s.flash.pages.isEmpty && s.flash.blocks.all (fun b => b.used == 0 || s.regionOf b.die b.num == .system)

/-- The first start of a main image on an unformatted card (R279, R292, R296): the regions and the spare pools are set and an
empty wear record is written; a card whose flash is not blank has lost its records. DESIGN CHOICE: log entry 9. -/
def State.formatFlash (s : State) : State :=
  if s.flash.wear.format == .formatted then s
  else if s.flash.wear.format == .none && !s.flashBlank then
    (s.report Src.WEAR.RECORD_LOST).onFlash (fun fl => { fl with wear := { fl.wear with roWearLost := true } })
  else
    let s := s.onFlash (fun fl => { fl with dies := fl.dies.map (fun x => if x.present then s.layout x else x) })
    let s := s.retireMarked
    let pools := s.populated.map (fun n => (n, sumBy Die.goodData (s.chanDies n) / 48))
    s.onFlash (fun fl => { fl with
      usable := (Config.usableSectors (sumBy (fun (x : Die) => x.goodData * s.pagesOf x.id * s.slotsOf x.id) fl.dies)).toNat
      wear := { Wear.reset with format := .formatted, spareInit := pools, spare := pools, copyA := true, copyB := true } })

/-! Temperature (R268, R269, R423, R424). -/

/-- A conversion as a signed count of 0.5 °C (10-bit two's complement). -/
def signed10 (v : Nat) : Int := if v % 1024 < 512 then (v % 1024 : Nat) else (v % 1024 : Nat) - 1024

/-- 10-bit two's complement. -/
def encode10 (v : Int) : Nat := (v % 1024).toNat

/-- The sensor's range: −60.0 to +135.0 °C. -/
def clampTemp (v : Int) : Int := max (-120) (min 270 v)

/-- Steps of Table 10-3 in force after a conversion: a step is reached above its edge and left 2 °C below it. -/
def halvingsAt (t : Int) (before : Nat) : Nat :=
  count (fun (k : Nat) => decide (110 + 60 * (k : Int) < t) || (decide (k < before) && decide (106 + 60 * (k : Int) < t))) (rangeFrom 0 3)

/-- Every block is compared with the threshold in force (R269). -/
def State.thresholdFlags (s : State) : State :=
  s.flash.blocks.foldl (fun (s : State) b =>
    if s.threshold b.die ≤ b.reads then s.flagBlock b.die b.num else s) s

/-- The halvings after a conversion, with the comparison where the threshold has fallen. -/
def State.tempFlags (s : State) : State :=
  let before := s.flash.upkeep.halvings
  let now := halvingsAt (signed10 s.temp.value) before
  let s := s.onFlash (fun fl => { fl with upkeep := { fl.upkeep with halvings := now } })
  if before < now then s.thresholdFlags else s

/-- A conversion ends (R423, R424): TEMP, VALID, ALARM with its hysteresis, MIN and MAX. -/
def State.takeTemp (s : State) (v : Nat) : State :=
  let t := clampTemp (signed10 v)
  let hi := signed10 (s.rd Reg.POWER.TEMP_CFG.ALARM_HI)
  let hyst : Int := (s.rd Reg.POWER.TEMP_CFG.HYST : Nat)
  let alarm := if s.temp.alarm then !decide (t ≤ hi - hyst) else decide (hi < t)
  let rise := alarm && !s.temp.alarm
  let lo := if s.temp.fresh then t else min t (signed10 (s.rd Reg.POWER.TEMP_RANGE.MIN))
  let top := if s.temp.fresh then t else max t (signed10 (s.rd Reg.POWER.TEMP_RANGE.MAX))
  let s := { s with temp := { s.temp with value := encode10 t, valid := true, alarm := alarm, fresh := false } }
  let s := (s.wr Reg.POWER.TEMP_RANGE.MIN (encode10 lo)).wr Reg.POWER.TEMP_RANGE.MAX (encode10 top)
  let s := if rise then s.raise Evt.POWER.TEMP_ALARM else s
  (if alarm then s.relatchAlarm else s).tempFlags

/-! Patrol rounds (R269). -/

/-- A patrol round starts: one sample of every closed block; with none it ends at once. -/
def State.startPatrol (s : State) : State :=
  let l := (s.flash.blocks.filter (fun b => b.st == .closed && s.dieGood b.die)).map (fun b => (b.die, b.num))
  let s := s.onFlash (fun fl => { fl with upkeep := { fl.upkeep with patrol := l, patrolActive := !l.isEmpty } })
  if l.isEmpty then s.raise Evt.UPKEEP.PATROL_DONE else s

/-! Power-up recovery. -/

/-- Step 5: the wear record and the counts (R271, R295). DESIGN CHOICE: log entry 28. -/
def State.recoverCounts (s : State) (env : RecoveryIn) : State :=
  let s := s.onFlash (fun fl => { fl with wear := { fl.wear with copyA := env.wearA, copyB := env.wearB } })
  let s := if env.wearA && env.wearB then s else s.report Src.WEAR.RECORD_COPY
  let s := if env.wearA || env.wearB then s
    else (s.report Src.WEAR.RECORD_LOST).onFlash (fun fl => { fl with wear := { fl.wear with roWearLost := true } })
  s.onFlash (fun fl => { fl with
    recoveries := fl.recoveries + 1
    blocks := fl.blocks.map (fun (b : Block) =>
      let d := min (b.ckpt + 4096) (2 ^ 24)
      { b with erases := if b.st == .erased then b.erases + 1 else b.erases, reads := min d 0xFFFFFF, ckpt := d, due := none }) })

/-- Step 9: one checkpoint batch makes each block's count its D, and none is due (R271). An interrupted page has been settled. -/
def State.recoveryBatch (s : State) : State :=
  s.mapCopies.onFlash (fun fl => { fl with
    blocks := fl.blocks.map (fun (b : Block) => { b with reads := min b.ckpt 0xFFFFFF, due := none })
    pages := fl.pages.map (fun (p : Page) => { p with running := false }) })

/-- Mark a sector TORN (R314, R315). -/
def State.markTorn (s : State) (e : MapEntry) : State :=
  (((s.dirty e.slice (e.lba / 1024)).setEntry { e with loc := .torn }).bump Reg.REMOVAL.TORN_MARKED.COUNT).raise
    Evt.REMOVAL.TORN_SET

/-- The interrupted pages with caught sectors that do not decode are rebuilt where a version covers them (Table 12-5). Answers those
that are there. -/
def State.rebuildCaught (s : State) (env : RecoveryIn) (l : List MapEntry) : State × List (Nat × Nat × Nat) :=
  let bad := (l.filterMap (fun e => match e.loc with
    | .at d b p _ =>
      if !env.noRecord.contains (d, b, p) && env.badPages.contains (d, b, p) && (s.coveringVersion d b p).isSome &&
          !((s.page? d b p).map (fun y => y.passed)).getD false then some (d, b, p) else none
    | .torn => none
    | .lost => none)).eraseDups
  bad.foldl (fun (a : State × List (Nat × Nat × Nat)) e =>
    let r := a.1.rebuild e.1 e.2.1 e.2.2 true
    (r.1, if r.2 then a.2 ++ [e] else a.2)) (s, [])

/-- The outcome of one sector of a WRITE that was In flight (Table 12-5); `rebuilt` lists the pages that a rebuild has restored. -/
def State.settleCaught (s : State) (env : RecoveryIn) (rebuilt : List (Nat × Nat × Nat)) (e : MapEntry) : State :=
  match e.loc with
  | .torn => s
  | .lost => s
  | .at d b p _ =>
    let above := match s.entry e.slice e.lba with
      | some o => decide (o.seq < e.seq)
      | none => true
    if env.noRecord.contains (d, b, p) || !above || !(s.slice e.slice).cfg.exist || !decide (e.lba < (s.slice e.slice).cfg.cap)
    then s
    else
      let passed := match s.page? d b p with
        | some y => y.passed
        | none => false
      if passed || !env.badPages.contains (d, b, p) || rebuilt.contains (d, b, p) then
        (s.dirty e.slice (e.lba / 1024)).setEntry e
      else s.markTorn e

/-- The sectors in the order of their commit sequences. -/
def insertBySeq (e : MapEntry) : List MapEntry → List MapEntry
  | [] => [e]
  | x :: l => if e.seq < x.seq then e :: x :: l else x :: insertBySeq e l

/-- Who bears the programs of power-up recovery: no requester of Table 9-1. -/
def recoveryBearer : Bearer := { who := 0x44, q := none, cls := .steady, weight := 0 }

/-- Step 7 (R287) for one superblock that was open: exposed pages that fail decode are rebuilt and moved, stripes with a page
whose program had not passed take a new version, the superblock closes, and the next of its kind opens (R274). -/
def State.recoverSb (s : State) (env : RecoveryIn) (i : Nat) : State :=
  match s.sb? i with
  | none => s
  | some x =>
    let torn := s.flash.pages.filter (fun p => p.running && (x.memberOf p.die p.block).isSome)
    let l := s.sbL x
    let s : State := torn.foldl (fun (s : State) p =>
      if s.sbShot x ≠ 1 then s
      else (rangeFrom (p.page - p.page % l) (p.page % l)).foldl (fun (s : State) j =>
        if env.badPages.contains (p.die, p.block, j) then
          let r := s.rebuild p.die p.block j true
          if r.2 then State.moveOut recoveryBearer r.1 p.die p.block j else r.1
        else s) s) s
    let s : State := torn.foldl (fun (s : State) p =>
      match x.memberOf p.die p.block with
      | some k =>
        let t := s.stripeOf x k p.page
        s.programVersion i t ((s.stripeDone x t).filter (fun j =>
          !env.badPages.contains ((x.member j).1, (x.member j).2, t - l * j)))
      | none => s) s
    (s.closeSb i).openSb x.host

/-- Step 6: the interrupted pages that stand are moved and their blocks flagged (Table 12-5). -/
def State.moveInterrupted (s : State) (l : List MapEntry) : State :=
  l.foldl (fun (s : State) e =>
    match e.loc with
    | .at d b p _ =>
      let passed := match s.page? d b p with
        | some y => y.passed
        | none => true
      if passed || !s.pageValid d b p then s else (State.moveOut recoveryBearer s d b p).flagBlock d b
    | .torn => s
    | .lost => s) s

/-- Trim what lies at or beyond a Slice's capacity (R404). -/
def State.trimBeyond (s : State) : State :=
  s.onMap (fun m => { m with entries := m.entries.filter (fun e => decide (e.lba < (s.slice e.slice).cfg.cap)) })

/-- Step 10: the pages of pinned Slices are loaded (R188). -/
def State.loadPins (s : State) : State :=
  (rangeFrom 0 64).foldl (fun (s : State) i =>
    if (s.slice i).st == .active && (s.slice i).cfg.pin then
      let s : State := (s.flash.map.onFlash.filter (fun p => p.slice == i)).foldl (fun (s : State) p => s.makeResident p.slice p.idx) s
      (s.setSlice i (fun sl => { sl with pinState := .pinned })).raise Evt.SLICE.PIN_READY i
    else s) s

/-- Recovery has run since power-on. -/
def State.markRecovered (s : State) : State :=
  { s with power := { s.power with recovered := true } }

/-- Steps 5 to 10 of Table 12-7. -/
def State.recoverFlash (s : State) (env : RecoveryIn) : State :=
  let s := s.formatFlash
  let s : State := if s.flash.wear.format == .formatted then s.recoverCounts env else s
  let s : State := s.flash.cutErases.foldl (fun (s : State) e => s.retire e.1 e.2) s
  let s := (s.onFlash (fun fl => { fl with cutErases := [] })).wr Reg.REMOVAL.TORN_MARKED.COUNT 0
  let gone := (s.flash.dies.filter (fun x => !x.present && !x.failed)).map (fun x => x.id)
  let s : State := gone.foldl (fun (s : State) d => s.failDie d) s
  let s := s.restoreTrims.trimBeyond
  let s : State := env.lostMaps.foldl (fun (s : State) p =>
    if s.mapCopied p.1 p.2 then s.mapLost p.1 p.2 else s) s
  let caught := s.flash.caught.foldl (fun l e => insertBySeq e l) []
  let r := s.rebuildCaught env caught
  let s : State := caught.foldl (fun (s : State) e => s.settleCaught env r.2 e) r.1
  let s := s.onFlash (fun fl => { fl with caught := [] })
  let opens := (s.flash.superblocks.filter (fun x => x.st == .open)).map (fun x => x.id)
  let s : State := opens.foldl (fun (s : State) i => s.recoverSb env i) s
  let s := (s.moveInterrupted caught).writeBackAll
  let s := s.recoveryBatch.takeTemp env.temp
  let s := s.thresholdFlags.loadPins.startPatrol
  let r := s.computeReserve
  let s := s.onFlash (fun fl => { fl with upkeep := { fl.upkeep with reserve := r } })
  let s := s.wr Reg.UPKEEP.FREE_TARGET.BLOCKS (r + 2 * s.flash.dies.length)
  s.markRecovered.releaseAll.flashSettle

end Sys2Proof.Machine
end

