-- ==== Sys2Proof/Machine/Images.lean ====
section
/-!
DEFINITION. Firmware slots, the image checks and the choice of what starts (chapter 16: R387–R401, R407, R481). Slots
are 0 main A, 1 main B, 2 microcode A, 3 microcode B.
-/
namespace Sys2Proof.Machine

/-- An empty slot. -/
def FwSlot.empty : FwSlot := ⟨.empty, [], false⟩

/-- Slot `i`. -/
def State.fwSlot (s : State) (i : Nat) : FwSlot := s.fw.slots.getD i FwSlot.empty

/-- Change slot `i`. -/
def State.setFwSlot (s : State) (i : Nat) (f : FwSlot → FwSlot) : State :=
  { s with fw := { s.fw with slots := s.fw.slots.modify i f } }

/-- The size of a slot in bytes (R387). -/
def slotSize (i : Nat) : Nat := if i < 2 then 2097152 else 262144

/-- The two slots of a target, 0 main or 1 microcode. -/
def targetSlots (target : Nat) : List Nat := if target = 0 then [0, 1] else [2, 3]

/-- Is a 64-byte unit staged? -/
def FwSlot.staged (sl : FwSlot) (u : Nat) : Bool := storeRead sl.units u != 0

/-- A byte of a slot's image. -/
def FwSlot.byte (sl : FwSlot) (i : Nat) : Nat := byteField (storeRead sl.units (i / 64) - 1) (i % 64) 8

/-- Bytes of a slot's image. -/
def FwSlot.bytes (sl : FwSlot) (a n : Nat) : List Nat := (rangeFrom a n).map sl.byte

/-- A little-endian field of a slot's image. -/
def FwSlot.le (sl : FwSlot) (a n : Nat) : Nat := ofBytesLE (sl.bytes a n)

/-! Header fields (Table 16-2). -/
def FwSlot.imageLen (sl : FwSlot) : Nat := sl.le 8 4
def FwSlot.payloadLen (sl : FwSlot) : Nat := sl.le 12 4
def FwSlot.version (sl : FwSlot) : Nat := sl.le 16 4
def FwSlot.mcIf (sl : FwSlot) : Nat := sl.le 28 2
def FwSlot.setFmt (sl : FwSlot) : Nat := sl.le 30 2
def FwSlot.setReadMin (sl : FwSlot) : Nat := sl.le 32 2
def FwSlot.payloadDigest (sl : FwSlot) : Nat := sl.le 48 32

/-- Check 1 of Table 16-3: the header units and every unit of the image are staged. -/
def FwSlot.complete (sl : FwSlot) (i : Nat) : Bool :=
  (rangeFrom 0 4).all sl.staged && decide (sl.imageLen ≤ slotSize i) &&
    (rangeFrom 0 (ceilDiv sl.imageLen 64)).all sl.staged

/-- Check 3: the header. -/
def FwSlot.headerGood (sl : FwSlot) (i : Nat) : Bool :=
  let kind := sl.byte 6
  sl.bytes 0 4 == [0x4C, 0x4D, 0x44, 0x31] && sl.le 4 2 == 0x100 && kind == (if i < 2 then 1 else 2) &&
  sl.payloadLen != 0 && sl.imageLen == 256 + 64 * ceilDiv sl.payloadLen 64 + 128 && sl.mcIf != 0 &&
  (if kind = 1 then sl.setFmt != 0 && decide (1 ≤ sl.setReadMin ∧ sl.setReadMin ≤ sl.setFmt)
   else sl.setFmt == 0 && sl.setReadMin == 0) &&
  sl.le 34 2 == 1 && sl.byte 36 == 1 && sl.byte 7 == 0 && (sl.bytes 37 11).all (fun b => b == 0) &&
  (sl.bytes 177 79).all (fun b => b == 0)

/-- The programmed, unrevoked key slot whose digest is that of the image's PUBKEY (R393). -/
def State.keyFor (s : State) (sl : FwSlot) : Option Nat :=
  let d := ofBytesLE (sha256 (sl.bytes 80 97))
  (rangeFrom 0 4).find? (fun k =>
    match s.fuses.keysSensed[k]? with
    | some ks => ks.programmed && !ks.revoked && ks.digest == d
    | none => false)

/-- Check 6: the signature over the header (R392). DESIGN CHOICE: log entry 6. -/
def FwSlot.signed (sl : FwSlot) : Bool :=
  let at_ := sl.imageLen - 128
  Config.ecdsaVerifies (ofBytesBE (sl.bytes 81 96)) (ofBytesBE (sha256 (sl.bytes 0 256)))
    (ofBytesBE (sl.bytes at_ 48)) (ofBytesBE (sl.bytes (at_ + 48) 48))

/-- CHECK: the first failing check of 1 to 7 of Table 16-3, or 0. `readable`: every unit reads back from one of the
two copies (check 2). -/
def State.checkSlot (s : State) (i : Nat) (readable : Bool) : Nat :=
  let sl := s.fwSlot i
  if !sl.complete i then 0x01
  else if !readable then 0x02
  else if !sl.headerGood i then 0x03
  else if (s.keyFor sl).isNone then 0x04
  else if ofBytesLE (sha256 (sl.bytes 256 sl.payloadLen)) ≠ sl.payloadDigest then 0x05
  else if !sl.signed then 0x06
  else if !(sl.bytes 20 8).any (fun b => b == s.fuses.step && b != 0) then 0x07
  else 0

/-- REJECT (R395): the slot's flag in cell 20, reason and slot in cell 21, the count of cell 22, the event. -/
def State.rejectSlot (s : State) (i reason : Nat) : State :=
  let s := s.cellBit 20 i true
  let s := s.setCell 21 (reason + 256 * i)
  let s := s.raiseCell 22
  (s.setFwSlot i (fun sl => { sl with st := .rejected })).raise Evt.FIRMWARE.REJECTED

/-- Is the slot's rejection flag set? -/
def State.flagged (s : State) (i : Nat) : Bool := bitAt (s.cell 20) i

/-! Settings (R389, R401, R481). -/

/-- The settings copy in force: the valid copy with the higher sequence. -/
def Firmware.settings (fw : Firmware) : Option Settings :=
  match fw.copyA, fw.copyB with
  | some a, some b => some (if b.seq > a.seq then b else a)
  | some a, none => some a
  | none, b => b

/-- The shipped settings: Slice 0 over all usable capacity, steady, weight 16 (R4, R481). -/
def State.shippedCfgs (s : State) : List (Nat × SliceCfg) :=
  [(0, { exist := true, cap := s.flash.usable, cls := 1, weight := 16, dieCap := 0, enc := false, xtsKey := 0,
         bindKey := 0, pin := false })]

/-- The persisted configuration of the Slices that exist. -/
def State.currentCfgs (s : State) : List (Nat × SliceCfg) :=
  (rangeFrom 0 64).filterMap (fun i => if (s.slice i).cfg.exist then some (i, (s.slice i).cfg) else none)

/-- Load Slice configurations: an existing Slice is ACTIVE, every other FREE (R169). A binding and a lock that a core reset has left
stay with their Slice. -/
def State.loadCfgs (s : State) (cfgs : List (Nat × SliceCfg)) : State :=
  { s with slices := (rangeFrom 0 64).map (fun i =>
      match cfgs.find? (fun e => e.1 == i) with
      | some e =>
        let sl := s.slice i
        { Slice.free with
          st := .active, cfg := e.2, owner := sl.owner, lock := sl.lock
          pinState := if !e.2.pin then .off else if sl.pinState == .off then .loading else sl.pinState }
      | none => Slice.free) }

/-- The sleep record in force: the valid copy with the higher sequence (R414). -/
def State.sleepRecord (s : State) : Option SleepRecord :=
  match s.sleepA, s.sleepB with
  | some a, some b => some (if b.seq > a.seq then b else a)
  | some a, none => some a
  | none, b => b

/-- The first stored write after a wake marks the sleep record in force consumed (R414). -/
def State.consumeRecord (s : State) : State :=
  if !s.power.fromWake then s else
  let f (r : Option SleepRecord) : Option SleepRecord :=
    if r == s.sleepRecord then r.map (fun x => { x with consumed := true }) else r
  { s with sleepA := f s.sleepA, sleepB := f s.sleepB }

/-- Store the Slices' configuration durably: in probation to the shadow (R403), otherwise over the settings copy not in
force with the next sequence (R389). DEDUCED: log entry 19. -/
def State.persist (s : State) : State :=
  let s := s.consumeRecord
  if s.probation then
    { s with fw := { s.fw with shadow := s.fw.shadow.map (fun e => (e.1, { e.2 with cfgs := s.currentCfgs })) } }
  else
    match s.fw.settings with
    | none => s
    | some st =>
      let n : Settings := { st with seq := st.seq + 1, cfgs := s.currentCfgs }
      if s.fw.copyA == some st then { s with fw := { s.fw with copyB := some n } }
      else { s with fw := { s.fw with copyA := some n } }

/-- Checks 8 to 11 of Table 16-3 against the settings in force, or 0 (R401, R481). DESIGN CHOICE: log entry 7. -/
def State.settingsCheck (s : State) (sl : FwSlot) : Nat :=
  match s.fw.settings with
  | none => 0
  | some st =>
    if st.fmt > sl.setFmt then 0x08
    else if st.fmt < sl.setReadMin then 0x09
    else if !Config.contentChecks sl.payloadDigest st.fmt then 0x0A
    else if !Config.migrates sl.payloadDigest st.fmt then 0x0B
    else 0

/-- Request a core reset; a request that meets another merges with it (R354, R355). -/
def State.requestReset (s : State) (system : Bool) (source : Nat) (sender : Option Nat) : State :=
  let r : ResetReq :=
    match s.power.resetReq with
    | none => { system := system, source := source, sender := sender }
    | some r => { system := r.system || system, source := source,
                  sender := match sender with
                    | none => r.sender
                    | x => x }
  { s with power := { s.power with
      resetReq := some r, drain := if s.power.resetReq.isNone then 0 else s.power.drain } }

/-! What starts. -/

/-- The image fields of letter C (R410). -/
def State.imageRegs (s : State) (mainVer expectIf mcVer mcIf : Nat) : State :=
  let s := s.wr Reg.FIRMWARE.MAIN_VERSION.VERSION mainVer
  let s := s.wr Reg.FIRMWARE.IFACE.MC_IF_EXPECT expectIf
  let s := s.wr Reg.FIRMWARE.MC_VERSION.VERSION mcVer
  s.wr Reg.FIRMWARE.IFACE.MC_IF mcIf

/-- A Slice whose settings are not loaded: FREE, with the binding and the lock that a core reset leaves (R161, R184). -/
def Slice.unloaded (sl : Slice) : Slice := { Slice.free with owner := sl.owner, lock := sl.lock }

/-- Minimal mode: no settings are loaded and every bank reads FREE (R409). -/
def State.enterMinimal (s : State) : State :=
  ({ s with fw := { s.fw with run := none }, slices := s.slices.map Slice.unloaded }).imageRegs 0 0 0 0

/-- The microcode that a started main image loads (R397): the slot, or none where the check fails or there is no such
slot; a failing check rejects the slot. -/
def State.loadMc (s : State) (slot : Option Nat) (unreadable : List Nat) : State × Option Nat :=
  match slot with
  | none => (s, none)
  | some i =>
    if (s.fwSlot i).units.isEmpty then (s, none)
    else
      let reason := s.checkSlot i (!unreadable.contains i)
      if reason = 0 then (s, some i) else (s.rejectSlot i reason, none)

/-- Mark the running pair PROBATION (Table 16-1). -/
def State.markProbation (s : State) (main : Nat) (mc : Option Nat) : State :=
  let mark (s : State) (i : Nat) : State :=
    s.setFwSlot i (fun sl => if sl.st == .confirmed then sl else { sl with st := .probation })
  match mc with
  | some m => mark (mark s main) m
  | none => mark s main

/-- START_MAIN (R396, R397, R401, R402, R408). A confirmed image that finds no valid settings is rejected, for minimal mode (Table 16-5). The
first start of a main image on the card formats it (R296). -/
def State.startMain (s : State) (slot : Nat) (probation fallback fromCell : Bool) (unreadable : List Nat) : State :=
  let s := s.formatFlash
  let sl := s.fwSlot slot
  let mcSlot := if fromCell then some (2 + bit01 (bitAt (s.cell 23) 2)) else s.fw.boot.map (fun b => b.mc)
  let r := s.loadMc mcSlot unreadable
  let s := r.1
  let mc := r.2
  let mcImage := (mc.map s.fwSlot).getD FwSlot.empty
  let mcIf := if mc.isSome then mcImage.mcIf else 0
  let safeIf := mc.isNone || mcIf != sl.mcIf
  let run : RunImage := { main := slot, mc := mc, probation := probation, safeIf := safeIf, fallback := fallback,
                          key := (s.keyFor sl).getD 0 }
  let started (s : State) : State :=
    let s := { s with fw := { s.fw with run := some run } }
    let s := s.imageRegs sl.version sl.mcIf (if safeIf then 0 else mcImage.version) (if safeIf then 0 else mcIf)
    if safeIf then s.raise Evt.FIRMWARE.SAFE_INTERFACE else s
  if !probation && s.fw.settings.isNone then (s.rejectSlot slot 0x0A).enterMinimal
  else if !probation then started { s with fw := { s.fw with shadow := none } }
  else
    let kept := match s.fw.shadow with
      | some e => decide (e.1 = slot ∧ e.2.fmt = sl.setFmt)
      | none => false
    if kept then ((started s).markProbation slot mc).raise Evt.FIRMWARE.PROBATION_STARTED
    else
      let reason := s.settingsCheck sl
      if reason ≠ 0 then
        ({ (s.rejectSlot slot reason) with fw := { (s.rejectSlot slot reason).fw with run := none } }).requestReset
          false 5 none
      else
        let cfgs := match s.fw.settings with
          | some st => st.cfgs
          | none => s.shippedCfgs
        let shadow : Settings := { fmt := sl.setFmt, seq := 0, cfgs := cfgs }
        ((started { s with fw := { s.fw with shadow := some (slot, shadow) } }).markProbation slot mc).raise
          Evt.FIRMWARE.PROBATION_STARTED

/-- The candidates of BOOT_SELECT, as (slot, probation, taken from cell 23) (R396). -/
def State.candidates (s : State) (cold : Bool) : List (Nat × Bool × Bool) :=
  let confirmed := match s.fw.boot with
    | some b => [(b.main, false, false)]
    | none => []
  if cold then
    confirmed ++ (match s.fw.boot with
      | some b => (match b.prev with
        | some p => [(p, true, false)]
        | none => [])
      | none => [])
  else if bitAt (s.cell 23) 0 then
    (bit01 (bitAt (s.cell 23) 1), bitAt (s.cell 23) 3, true) :: confirmed
  else confirmed

/-- Try the candidates in order; none left is minimal mode (R396). -/
def State.tryCandidates (unreadable : List Nat) : Nat → List (Nat × Bool × Bool) → State → State
  | _, [], s => s.enterMinimal
  | n, (slot, prob, fromCell) :: l, s =>
    if s.flagged slot then State.tryCandidates unreadable (n + 1) l s
    else
      let reason := s.checkSlot slot (!unreadable.contains slot)
      if reason = 0 then
        let s := if bit01 (bitAt (s.cell 23) 1) = slot then s else s.setCell 23 0
        s.startMain slot prob (decide (0 < n)) fromCell unreadable
      else State.tryCandidates unreadable (n + 1) l (s.rejectSlot slot reason)

/-- The slot states that a cold start finds: those the boot record names, the others STAGED or EMPTY. -/
def State.coldSlots (s : State) : State :=
  let named (i : Nat) (sl : FwSlot) : FwSlot :=
    let st : SlotState := match s.fw.boot with
      | some b =>
        if b.main = i ∨ b.mc = i then .confirmed else if b.prev = some i && !sl.renewed then .previous
        else if sl.units.isEmpty then .empty else .staged
      | none => if sl.units.isEmpty then .empty else .staged
    { sl with st := st }
  { s with fw := { s.fw with slots := s.fw.slots.mapIdx named } }

/-- BOOT_SELECT (R396). `cold`: power-on, system reset or wake. A cold start abandons a shadow (R404). -/
def State.bootSelect (s : State) (cold : Bool) (unreadable : List Nat) : State :=
  let s := if cold then
    (({ s with fw := { s.fw with shadow := none } }.coldSlots).setCell 20 0).setCell 23 0 else s
  State.tryCandidates unreadable 0 (s.candidates cold) s

end Sys2Proof.Machine
end

