-- ==== Sys2Proof/Machine/Startup.lean ====
section
/-!
DEFINITION. Power-on, system reset, core reset and start-up (chapter 14, R320–R324, R412, R420–R422, R477).
-/
namespace Sys2Proof.Machine

/-! What a reset clears. -/

/-- `RESET.CAUSE` and `PREV_CAUSE` at a reset of level C or above (R368). DEDUCED: log entry 24. -/
def State.setCause (s : State) (level source : Nat) : State :=
  let s := s.wr Reg.RESET.PREV_CAUSE.LEVEL (s.rd Reg.RESET.CAUSE.LEVEL)
  let s := s.wr Reg.RESET.PREV_CAUSE.SOURCE (s.rd Reg.RESET.CAUSE.SOURCE)
  (s.wr Reg.RESET.CAUSE.LEVEL level).wr Reg.RESET.CAUSE.SOURCE source

/-- State outside the registers that power-on and system reset clear alike (Table 14-5): the link returns to ID mode,
commands, rings, bindings, locks, Epochs and nonces go, the map is rebuilt by recovery. -/
def State.dropVolatile (s : State) : State :=
  { s.flashLost with
    link := Link.reset, cmds := [], descs := [], attn := [], seqs := [], origs := [],
    slices := List.replicate 64 Slice.free, shelf := Shelf.reset, esc := Escalation.reset, temp := Temperature.reset,
    fw := { s.fw with run := none },
    power := { s.power with startup := .held, resetReq := none, drain := 0, recovered := false } }

/-- Bits of a target that read as programmed after its pulses. -/
def Fuses.blow (f : Fuses) (t : FuseTarget) (took : Nat) : Fuses :=
  match t with
  | .entry e c => { f with map := storeWrite f.map e (storeRead f.map e ||| (c &&& took)) }
  | .seal => { f with sealBlown := f.sealBlown || bitAt took 0 }
  | .key k d => { f with keys := f.keys.modify k (fun ks =>
      { ks with digest := ks.digest ||| (d &&& took), programmed := ks.programmed || bitAt took 256 }) }
  | .revoke k => { f with keys := f.keys.modify k (fun ks => { ks with revoked := ks.revoked || bitAt took 0 }) }

/-- A fuse programming operation that loses its power leaves its bits in doubt. DESIGN CHOICE: log entry 8. -/
def State.cutFuse (s : State) : State :=
  match s.fuses.busy with
  | none => s
  | some t =>
    { s with fuses := { s.fuses.blow t (Config.cutPulse s.draws) with busy := none, pulse := 0 }
             draws := s.draws + 1 }

/-- What the loss of the core's supply destroys beside the registers: an option commit under way leaves its copy
invalid, fuse programming is cut short. -/
def State.coreOff (s : State) : State :=
  let s := s.cutFuse
  { s with opt := { s.opt with commit := none, staging := [], inForce := [] } }

/-- A start from the power-on detector (R320 step 1, R361, R412, R420): the Crust completes pending carries, counts the
reset where the start is one, the fuses are sensed, every field of levels P, S, C and B takes its reset value. -/
def State.powerOnStart (s : State) (source : Option Nat) (wake crustRestart : Bool) : State :=
  let carry := s.carryPending
  let s := (s.completeCarry resetCells).completeCarry removalCells
  let s : State := match source with
    | some c => s.countReset c
    | none => s
  let s := s.coreOff.dropVolatile
  let s := { s with
    regs := regClear s.regs clearedByPowerOn
    fuses := { s.fuses with mapSensed := s.fuses.map, keysSensed := s.fuses.keys, sealSensed := s.fuses.sealBlown }
    tap := Tap.reset
    power := { s.power with st := .active, armed := false, brownArmed := true, fromWake := wake,
                            crustRestart := crustRestart, vholdOk := false, removal := none, testMode := false } }
  let s : State := match source with
    | some c => s.setCause 3 c
    | none => s
  (if carry then s.raise Evt.RESET.CARRY_COMPLETED else s).endEdge

/-- A system reset (R356–R358, R377): the Crust counts it at the assert edge, `DEBUG.PREV_SAFE` takes the cause of the
Safe state, levels S, C and B are cleared but on the DEBUG page, whose header keeps its values and its parity (R386), an option commit under way finishes by the memory's own timing. -/
def State.systemReset (s : State) (source : Nat) : State :=
  let carry := s.carryPending
  let s := ((s.completeCarry resetCells).completeCarry removalCells).countReset source
  let cause := s.rd Reg.ESCALATE.SAFE_CAUSE.KIND + 2 ^ 8 * s.rd Reg.ESCALATE.SAFE_CAUSE.PAGE +
    2 ^ 16 * s.rd Reg.ESCALATE.SAFE_CAUSE.BANK + 2 ^ 24 * s.rd Reg.ESCALATE.SAFE_CAUSE.BIT
  let debug := s.esc.hdrBad.filter (fun e => e.1 == 0x27)
  let s := s.dropVolatile
  let s := { s with esc := { s.esc with hdrBad := debug } }
  let o := s.opt
  let o := match o.commit with
    | some (true, m) => { o with copyB := m }
    | some (false, m) => { o with copyA := m }
    | none => o
  let s := { s with
    regs := regClear s.regs clearedBySystem
    opt := { o with commit := none, staging := [], inForce := [] }
    power := { s.power with fromWake := false, crustRestart := false, testMode := false } }
  let s := (s.wr Reg.DEBUG.PREV_SAFE.CAUSE cause).setCause 2 source
  (if carry then s.raise Evt.RESET.CARRY_COMPLETED else s).endEdge

/-! Release and the option loader. -/

/-- Codes that Table 14-8 permits for a Fuse map entry (R360, R362). A reserved code in the entry of a ball on which the entry has
no effect (R69) is reported like any other. DEDUCED: log entry 58. -/
def fusePermitted (e code : Nat) : Bool :=
  let k := e % 21
  if e < 336 then
    if k = 15 then code == 0 || code == 1
    else if 16 ≤ k ∧ k ≤ 19 then code == 0 || code == 2 || code == 5
    else if k = 20 then code == 0 || code == 3 || code == 5
    else decide (code ≤ 5)
  else if e = 359 then decide (code ≤ 2)
  else decide (code ≤ 5)

/-- The code applied at a ball: an entry that is not permitted is applied as 0b000 (R362). -/
def State.fuseCode (s : State) (e : Nat) : Nat :=
  let c := storeRead s.fuses.mapSensed e
  if fusePermitted e c then c else 0

/-- Take a copy of the option store, or the defaults, in force (R364, R365). -/
def State.applyOptions (s : State) (m : Store) (copy : Nat) (defaults otherValid : Bool) : State :=
  let s := { s with opt := { s.opt with inForce := m } }
  let s := s.wr Reg.OPTION.IN_FORCE.COPY copy
  let s := s.wr Reg.OPTION.IN_FORCE.DEFAULTS (bit01 defaults)
  let s := s.wr Reg.OPTION.IN_FORCE.ADMIN_ORIG (storeRead m 10)
  let s := s.wr Reg.OPTION.IN_FORCE.MODE (storeRead m 11)
  let s := s.wr Reg.OPTION.SEQ_IN_FORCE.SEQ (if defaults then 0 else copySeq m)
  let s := s.wr Reg.OPTION.OTHER.VALID (bit01 otherValid)
  (s.wr Reg.SHELF.SLEEP_CFG.SLEEP_EN (bit01 (bitAt (storeRead m 11) 1))).freshChannels

/-- The option loader (R364). -/
def State.optionLoader (s : State) : State :=
  let a := s.opt.copyA
  let b := s.opt.copyB
  match copyValid a, copyValid b with
  | true, true => if copySeq b > copySeq a then s.applyOptions b 1 false true else s.applyOptions a 0 false true
  | true, false => (s.applyOptions a 0 false false).report Src.OPTION.COPY_BAD
  | false, true => (s.applyOptions b 1 false false).report Src.OPTION.COPY_BAD
  | false, false => (s.applyOptions optDefaults 0 true false).report Src.OPTION.STORE_LOST

/-- The release of the domains (R353, R362, R365, R380, R477). -/
def State.release (s : State) (testEn : Bool) : State :=
  let s := { s with power := { s.power with
    startup := .loaded, testEn := testEn, testMode := testEn && !s.fuses.sealSensed } }
  let bad := s.fuses.mapSensed.any (fun e => !fusePermitted e.1 e.2)
  let s := if bad then s.report Src.OPTION.FUSE_CODE else s
  let s := s.optionLoader
  s.writeAlert s.alertAsserting

/-! Ready. -/

/-- The card presents ready once DET_N has been sampled low and start-up has ended (R79): the high ready level in ID
mode; in fast mode the idle code 0xB5, which needs no change of state. -/
def State.presentReady (s : State) : State :=
  if s.power.armed && s.power.startup == .ready && s.link.phase == .idNotReady then
    { s with link := { s.link with phase := .idReady } } else s

/-- Has the COMPLETION of the SLEEP_COMMIT that ended OK been acknowledged in fast mode, or answered in ID mode? From that edge
the entry to SLEEP runs (R154, R413). -/
def State.commitAcked (s : State) : Bool :=
  s.shelf.committed && s.cmds.all (fun c => c.opcode != opCommit) && s.link.txQueue.all (fun f => f.opcode != opCommit) &&
    s.link.unacked.all (fun f => f.opcode != opCommit)

/-- Does the card present ready (`LINK.STATE.READY`)? Not while a core reset drains or the entry to SLEEP runs (R354, R413), nor
in RETURNING (R94). -/
def State.ready (s : State) : Bool :=
  s.power.startup == .ready && s.power.resetReq.isNone && !s.commitAcked &&
    ((s.link.fast && s.link.phase != .returning) || s.link.phase == .idReady || s.link.phase == .switching)

/-- The ready level on UP0_P in ID mode: low for not ready (R79), and low in steps 3 and 4 of the voltage switch (R81). -/
def State.readyLevel (s : State) : Bool := !s.link.fast && s.ready && s.link.switchStep != .confirm

/-! Recovery. -/

/-- Step 4 of Table 12-7: LAST_PHASE and the Crust's removal state; cell 16 is written once (R319), and not in minimal
mode (R322). -/
def State.readRemoval (s : State) : State :=
  let c := s.cell 16
  let pend := bitAt c 8
  let done := bitAt c 9
  let ph := s.cell 17
  let s := if pend && done then
      let s := s.wr Reg.REMOVAL.LAST_PHASE.SOURCE (bitsOf ph 0 2)
      let s := s.wr Reg.REMOVAL.LAST_PHASE.RB_TIMEOUT (bitsOf ph 2 1)
      let s := s.wr Reg.REMOVAL.LAST_PHASE.WRITES (bitsOf ph 3 1)
      let s := s.wr Reg.REMOVAL.LAST_PHASE.PROGRAMS (bitsOf ph 4 1)
      s.wr Reg.REMOVAL.LAST_PHASE.CH_RESET (s.cell 18)
    else s
  let s := s.wr Reg.REMOVAL.CRUST.LAST_VALID (bit01 pend)
  let s := s.wr Reg.REMOVAL.CRUST.LAST_COMPLETE (bit01 (pend && done))
  let s := if s.minimal then s
    else s.setCell 16 (clearBits (if pend && !done then clearBits c 0xFF ||| satAdd (c % 256) 1 255 else c) 0x300)
  let s := if pend && done then s.raise Evt.REMOVAL.REMOVAL_RECORDED else s
  let s := if pend && !done then s.report Src.REMOVAL.INCOMPLETE else s
  let s := if pend && done && bitAt ph 2 then s.report Src.REMOVAL.RB_TIMEOUT else s
  if bitAt c 15 then s.raise Evt.REMOVAL.CRUST_LOST else s

/-- The Card address comes back from Crust cell 19 at a wake, in minimal mode too: the Crust alone holds it (R139, R421). -/
def State.restoreAddress (s : State) : State :=
  if !s.power.fromWake || s.power.crustRestart then s
  else (s.wr Reg.SHELF.ADDR.CARD_ADDR (s.cell 19 % 4096)).wr Reg.SHELF.ADDR.ASSIGNED (bitsOf (s.cell 19) 12 1)

/-- SLEEP_RECORD_RESTORE (R421, R422): Epochs, bindings, locks and the declaration come back from the record in force; after loss
of the Crust, or without an unconsumed record, nothing does. -/
def State.restoreSleep (s : State) : State :=
  if !s.power.fromWake then s else
  let s : State := match s.sleepRecord with
    | some r =>
      if r.consumed || s.power.crustRestart then s.report Src.POWER.SLEEP_RECORD
      else
        let s := { s with origs := r.origs }
        let s : State := r.owners.foldl (fun s e => s.setSlice e.1 (fun sl =>
          if sl.st == .active then { sl with owner := some e.2 } else sl)) s
        let s : State := r.locks.foldl (fun s e => s.setSlice e.1 (fun sl =>
          if sl.st == .active then { sl with lock := some e.2 } else sl)) s
        s.wr Reg.CLOCK.DECL_FAST.DECL_KHZ r.declKhz
    | none => s.report Src.POWER.SLEEP_RECORD
  s.raise Evt.POWER.WOKE

/-- The configurations that a started image loads: the shadow in probation, the settings otherwise (R403, R405). -/
def State.loadSettings (s : State) : State :=
  let cfgs := if s.probation then (s.fw.shadow.map (fun e => e.2.cfgs)).getD []
    else (s.fw.settings.map (fun x => x.cfgs)).getD []
  s.loadCfgs cfgs

/-- Steps 4 to 10 of Table 12-7 under a started image, which run once per start (R322). -/
def State.recover (s : State) (env : RecoveryIn) : State :=
  let s := s.readRemoval.endEdge.restoreAddress
  if s.minimal then s
  else
    (s.loadSettings.recoverFlash env).endEdge.restoreSleep

/-! Core reset. -/

/-- Is nothing left to drain: no command In flight, no Slice reset or block soft reset under way (R354)? -/
def State.drained (s : State) : Bool :=
  s.cmds.isEmpty && s.slices.all (fun sl => sl.st != .resetting) &&
  (rangeFrom 0 0x29).all (fun p => s.rd (resetActive p 0) == 0)

/-- The halt of R354: C fields and nonces are cleared, an ARMED round ends, every channel is marked for
reconfiguration, and the Crust counts the reset. -/
def State.coreHalt (s : State) (source : Nat) : State :=
  let s := s.wr Reg.RESET.DRAIN.CCLK (min s.power.drain (ones 32))
  let s := { s with
    regs := regClear s.regs clearedByCore
    origs := s.origs.map (fun (o : Orig) => { o with nonce := none })
    shelf := { s.shelf with armedBy := none }
    power := { s.power with startup := .halted, resetReq := none, drain := 0 } }
  let s := s.wr Reg.SHELF.SLEEP_STAT.STATE 0
  ((s.markReconf.countReset source).setCause 1 source)

end Sys2Proof.Machine
end

