-- ==== Sys2Proof/Machine/FirmwareCmds.lean ====
section
/-!
DEFINITION. FW_STAGE, FW_ACTIVATE and FW_CONFIRM after their decode (R398–R400, R405).
-/
namespace Sys2Proof.Machine

/-- The staging slot of a target: the slot that is neither CONFIRMED nor PROBATION, the first where both are so
(R398). DEDUCED: log entry 23. -/
def State.stagingSlot (s : State) (target : Nat) : Option Nat :=
  (targetSlots target).find? (fun i => (s.fwSlot i).st != .confirmed && (s.fwSlot i).st != .probation)

/-- Has the target a slot in PROBATION? -/
def State.targetProbation (s : State) (target : Nat) : Bool :=
  (targetSlots target).any (fun i => (s.fwSlot i).st == .probation)

/-- A FW_STAGE with OFFSET 0 discards the slot's content on its decode edge (R398). -/
def State.discardSlot (s : State) (i : Nat) : State :=
  (s.setFwSlot i (fun _ => ⟨.staged, [], true⟩)).cellBit 20 i false

/-- Record `n` units of 64 bytes from unit `u` (R398). -/
def stageUnits (units : Store) (u : Nat) : Nat → Nat → Store
  | 0, _ => units
  | n + 1, data => stageUnits (storeWrite units u (data % 2 ^ 512 + 1)) (u + 1) n (data / 2 ^ 512)

/-- The frames of a FW_STAGE one after another: 64 units each, the rest in the last. -/
def stageFrames (units : Store) (u n : Nat) : List Nat → Store
  | [] => units
  | f :: fs => stageFrames (stageUnits units u (min n 64) f) (u + 64) (n - 64) fs

/-- FW_STAGE (R398): its data phase has ended; every unit is programmed into both copies and recorded, once VHOLD_OK reads 1 (R310)
and its descriptor is not held (R217). -/
def execFwStage (q : Nat) (s : State) : Answer :=
  (s.onCmd q opStage .ready (fun c =>
    if !s.power.vholdOk || (s.desc? q).any (fun d => d.st == .held) then s else
    match c.slice with
    | some i =>
      let s := s.setFwSlot i (fun sl =>
        { sl with
          st := if sl.st == .empty then .staged else sl.st
          units := stageFrames sl.units (c.field 4 32 / 64) (c.field 8 32 / 64) c.payload })
      s.complete q stOk
    | none => s.complete q stOk)).done

/-- Cell 23 of an activation (R400, Table 16-4). -/
def State.startRequest (s : State) (slot : Nat) : Nat :=
  let main := if slot < 2 then slot else match s.fw.run with
    | some r => r.main
    | none => ((s.fw.boot.map (fun b => b.main)).getD 0)
  let confirmedMc := (s.fw.boot.map (fun b => b.mc)).getD 2
  let mc := if 2 ≤ slot then slot else match s.fw.run with
    | some r => r.mc.getD confirmedMc
    | none => confirmedMc
  1 + 2 * (main % 2) + 4 * (mc % 2) + 8

/-- FW_ACTIVATE (R394, R395, R400). `readable`: every unit of the slot reads back from one of its two copies. -/
def execFwActivate (q : Nat) (readable : Bool) (s : State) : Answer :=
  (s.onCmd q opActivate .decoded (fun c =>
    let t := c.field 0 8
    let staging := s.cmds.any (fun d => d.opcode == opStage && d.working && d.field 0 8 == t)
    if staging || s.targetProbation t || s.power.resetReq.isSome then s.complete q stConflict
    else
    match s.stagingSlot t with
    | none => s.complete q stConflict
    | some i =>
      let reason := s.checkSlot i readable
      if reason ≠ 0 then (s.rejectSlot i reason).complete q stImageRejected
      else
        let s := s.setCell 23 (s.startRequest i)
        let s := s.setFwSlot i (fun sl => { sl with st := .probation })
        (s.requestReset false 5 none).complete q stOk)).done

/-- The slot states after a confirmation: those the new record names, and PREVIOUS for the microcode slot that was confirmed before
(Table 16-6); the others that were named before STAGED. -/
def confirmedStates (b : BootRecord) (i : Nat) (sl : FwSlot) : FwSlot :=
  if b.main = i ∨ b.mc = i then { sl with st := .confirmed, renewed := false }
  else if b.prev = some i then (if sl.renewed then sl else { sl with st := .previous })
  else if 2 ≤ i ∧ sl.st = .confirmed then { sl with st := .previous }
  else if sl.st == .confirmed || sl.st == .previous || sl.st == .probation then { sl with st := .staged }
  else sl

/-- The steps of R405 after the decode: the shadow becomes both settings copies, the boot record names the running
pair, cell 23 is cleared. -/
def State.confirm (s : State) (run : RunImage) (shadow : Settings) : State :=
  let seq := ((s.fw.settings.map (fun x => x.seq)).getD 0)
  let old := s.fw.boot
  let b : BootRecord :=
    { seq := (old.map (fun x => x.seq)).getD 0 + 1, main := run.main,
      mc := run.mc.getD ((old.map (fun x => x.mc)).getD 2),
      prev := match old with
        | some o => if o.main = run.main then o.prev else some o.main
        | none => none
      copyB := false }
  let fw := { s.fw with
    boot := some b
    copyA := some { shadow with seq := if s.fw.copyA == s.fw.settings then seq + 2 else seq + 1 }
    copyB := some { shadow with seq := if s.fw.copyA == s.fw.settings then seq + 1 else seq + 2 }
    shadow := none
    run := some { run with probation := false }
    slots := s.fw.slots.mapIdx (confirmedStates b) }
  ({ s with fw := fw }.setCell 23 0).raise Evt.FIRMWARE.CONFIRMED

/-- FW_CONFIRM (R405): its programs wait until VHOLD_OK reads 1 (R310). -/
def execFwConfirm (q : Nat) (s : State) : Answer :=
  (s.onCmd q opConfirm .decoded (fun _ =>
    let other := s.cmds.any (fun d => d.opcode == opConfirm && d.working && d.q != q)
    match s.fw.run, s.fw.shadow with
    | some r, some e =>
      if !r.probation || r.safeIf || other then s.complete q stConflict
      else if !s.power.vholdOk then s
      else (s.confirm r e.2).complete q stOk
    | _, _ => s.complete q stConflict)).done

end Sys2Proof.Machine
end

