-- ==== Sys2Proof/Machine/Queue.lean ====
section
/-!
DEFINITION. Stamping and the rings (R13, R113, R191–R199), the decoder's choice (R193, R195, R196), the checks of Table 5-4
and of Table 3-4 up to check 5 (R31, R57, R58, R78, R120, R121).
-/
namespace Sys2Proof.Machine

/-! Stamping. -/

/-- The submission ring that a command enters (R192, R193): a Slice's, 64 for the card's, none. -/
def State.ringFor (s : State) (orig opcode : Nat) (bcast : Bool) : Option Nat :=
  if noRing opcode then none
  else if bcast then some 64
  else match s.boundSlice orig with
    | some i => if isDataOp opcode || !s.isAdmin orig then some i else some 64
    | none => some 64

/-- A command as it is stamped. -/
def newCmd (q orig tag opcode fields : Nat) (bcast idMode : Bool) (ring : Option Nat) (payload : List Nat) : Cmd :=
  { q := q, orig := orig, tag := tag, opcode := opcode, fields := fields, bcast := bcast, idMode := idMode, ring := ring,
    phase := .queued, wanted := 0, payload := payload, progress := 0, done := 0, steps := 0, abortedBy := [], status := 0,
    result := 0, resultUnits := 0, upSent := false, slice := none, seqNo := 0, popped := false, snap := [], rings := [],
    erases := 0, moves := 0, awaits := [] }

/-- A push lands: the submission ring's high-water mark and watermark (R208, R220). -/
def State.pushed (s : State) (ring before : Nat) : State :=
  let after := s.sqLevel ring
  let s := if ring < 64 then
      s.wr (Reg.QUEUE.HWM.SQ_HWM.inBank ring) (max (s.rd (Reg.QUEUE.HWM.SQ_HWM.inBank ring)) after)
    else s
  s.submitRose ring before

/-- A SLEEP_COMMIT of the Administrator that names the ARMED round: COMMITTING from the edge of its stamp (R154). -/
def State.commitStamp (s : State) (c : Cmd) : State :=
  if c.opcode == opCommit && s.isAdmin c.orig && s.rd Reg.SHELF.SLEEP_STAT.STATE == 2 &&
      c.field 0 16 == s.rd Reg.SHELF.SLEEP_STAT.ROUND
  then { (s.wr Reg.SHELF.SLEEP_STAT.STATE 3) with shelf := { s.shelf with committing := some c.q } }
  else s

/-- The stamp of an accepted command frame and its push (R13, R113, R192–R198, R153). One that completes QUEUE_FULL or BAD_OPCODE
has entered no ring, so its completion posts as one of a command without a ring does (R131). DESIGN CHOICE: log entry 39. -/
def State.stamp (s : State) (orig tag opcode fields : Nat) (bcast idMode : Bool) (payload : List Nat := []) : State :=
  let q := (s.rd Reg.LINK.ORDER_SEQ.LAST + 1) % 2 ^ 32
  let s := s.wr Reg.LINK.ORDER_SEQ.LAST q
  let s := if s.rd Reg.SHELF.SLEEP_STAT.STATE = 2 ∧ s.shelf.armedBy ≠ some orig then s.latchWake 1 else s
  let ring := if opcodes.contains opcode then s.ringFor orig opcode bcast else none
  let full := match ring with
    | some r => decide (s.sqDepth r ≤ s.sqLevel r)
    | none => false
  let c := newCmd q orig tag opcode fields bcast idMode (if full then none else ring) payload
  let before := match ring with
    | some r => s.sqLevel r
    | none => 0
  let s := { s with cmds := s.cmds ++ [c] }
  if !opcodes.contains opcode then s.complete q stBadOpcode
  else if full then s.complete q stQueueFull
  else
    let s := s.commitStamp c
    match ring with
    | some r => s.pushed r before
    | none => s

/-- Does the card know the pair (R115)? -/
def State.known (s : State) (orig tag : Nat) : Bool :=
  s.cmds.any (fun c => c.orig == orig && c.tag == tag) ||
    s.link.unacked.any (fun f => f.ftype == .completion && f.orig == orig && f.tag == tag)

/-- The opcodes served as a broadcast (R114). -/
def bcastOp (o : Nat) : Bool :=
  o == opIdentify || o == opAssign || o == opHello || o == opPropose || o == opCommit

/-- The first `n` bits of the card's serial equal those of PREFIX, bytes 4 to 15 of the fields (R135). -/
def State.prefixMatches (s : State) (fields n : Nat) : Bool :=
  (rangeFrom 0 n).all (fun i =>
    bitAt s.fuses.serial (95 - i) == bitAt (byteField fields (4 + i / 8) 8) (7 - i % 8))

/-- Does a broadcast select this card (Table 6-1)? -/
def State.selected (s : State) (opcode fields : Nat) : Bool :=
  if opcode = opIdentify then
    s.rd Reg.SHELF.ADDR.ASSIGNED == 0 && decide (byteField fields 0 8 ≤ 96) &&
      s.prefixMatches fields (byteField fields 0 8)
  else if opcode = opAssign then byteField fields 0 96 == s.fuses.serial
  else bcastOp opcode

/-- Is a SLEEP_COMMIT stamped whose entry to SLEEP has not ended (R154, R155)? -/
def State.sleepBound (s : State) : Bool := s.shelf.committing.isSome || s.shelf.committed

/-! The decoder. -/

/-- The Slice that a card-ring command names in its byte 0. -/
def Cmd.names (c : Cmd) (i : Nat) : Bool :=
  (c.opcode == opDestroy || c.opcode == opUnbind || c.opcode == opLock || c.opcode == opUnlock || c.opcode == opBind) &&
    c.field 0 8 == i

/-- Is a command an ordering point of Slice `i` (R195)? A REGWRITE of the Administrator that covers the Slice's CAPACITY is one until
it has landed, since its data alone says whether it lowers (R171). DESIGN CHOICE: log entry 63. -/
def State.orders (s : State) (c : Cmd) (i : Nat) : Bool :=
  (c.ring == some i && c.isBarrier) || ((c.opcode == opUnbind || c.opcode == opDestroy) && c.field 0 8 == i) ||
    (c.opcode == opRegwrite && c.field 0 11 / 32 == 6 && s.isAdmin c.orig && c.field 3 6 == i &&
      decide (c.field 0 11 % 32 ≤ 10 ∧ 9 < c.field 0 11 % 32 + c.field 2 8))

/-- Is the DMA wrapper closed, or does the DMA take no new descriptor (R195, R217)? -/
def State.dmaClosed (s : State) : Bool :=
  !s.bit (enableBit 0x08 0) || s.bit (isolateBit 0x08 0) || s.bit (resetActive 0x08 0)

/-- The Slices in the RESETTING state hold their own ring's commands, and a card-ring command that names one. -/
def State.heldByReset (s : State) (c : Cmd) : Bool :=
  (rangeFrom 0 64).any (fun i => (s.slice i).st == .resetting && (c.ring == some i || c.names i))

/-- Is the command at the head of its ring eligible (R195, R196)? `before` are the commands stamped earlier. -/
def State.eligible (s : State) (c : Cmd) (before : List Cmd) (r : Nat) : Bool :=
  decide (s.execLevel r + s.aqCompl r < 32) &&
  !before.any (fun d => !d.done? && (d.opcode == opDeclare || (d.opcode == opHello && d.orig == c.orig) ||
    (decide (r < 64) && s.orders d r))) &&
  !s.heldByReset c &&
  !(isRegOp c.opcode && before.any (fun d => isRegOp d.opcode && d.phase == .queued)) &&
  !(c.needsDesc && s.dmaClosed)

/-- The ring that an ATTN_FETCH of an Originator reads, with the card ring first for the Administrator (R205). -/
def State.fetchRings (s : State) (orig : Nat) : List Nat :=
  if s.isAdmin orig then
    match s.boundSlice orig with
    | some i => [64, i]
    | none => [64]
  else match s.boundSlice orig with
    | some i => [i]
    | none => []

/-- Is another ATTN_FETCH reading one of the rings that `c` reads (R193)? -/
def State.fetchHeld (s : State) (c : Cmd) : Bool :=
  c.opcode == opFetch && s.cmds.any (fun d => d.opcode == opFetch && d.working && d.q != c.q &&
    d.rings.any (fun r => (s.fetchRings c.orig).contains r))

/-- Is a command held by a HELLO of its Originator, stamped earlier, that waits to record its Epoch (R145)? -/
def State.helloHeld (s : State) (c : Cmd) : Bool :=
  (s.earlier c.q).any (fun d => d.opcode == opHello && d.orig == c.orig && d.phase == .waiting)

/-- The first command of no ring that waits and is not held. R145 holds every later command of an Originator whose HELLO waits, and
R193 has the commands of no ring decoded at once: the hold of R145 is kept. DESIGN CHOICE: log entry 62. -/
def State.popFree (s : State) : Option Cmd :=
  s.cmds.find? (fun c => c.ring.isNone && c.phase == .queued && !s.fetchHeld c && !s.helloHeld c)

/-- The eligible ring head of lowest ORDER_SEQ: the list stands in stamp order. -/
def State.popRing (s : State) (before : List Cmd) : List Cmd → Option Cmd
  | [] => none
  | c :: l =>
    let head : Bool := match c.ring with
      | some r => c.phase == .queued && !before.any (fun d => d.ring == some r && d.phase == .queued) &&
          s.eligible c before r
      | none => false
    if head then some c else State.popRing s (before ++ [c]) l

/-- What the decoder pops on a CCLK edge. -/
def State.popped (s : State) : Option Cmd :=
  match s.popFree with
  | some c => some c
  | none => s.popRing [] s.cmds

/-! The checks of Table 5-4. -/

/-- The commands of R31 (gate D). -/
def gateD (o : Nat) : Bool :=
  o == opRead || o == opWrite || o == opTrim || o == opBarrier || o == opVerify || o == opRest || o == opCreate ||
    o == opDestroy || o == opStage || o == opActivate || o == opSelftest

/-- The commands that ID mode serves (R78). -/
def idServed (o : Nat) : Bool :=
  o == opNop || o == opIdentify || o == opAssign || o == opSwitch || o == opDeclare || o == opHello || o == opPropose ||
    o == opCommit || o == opReset || o == opRegread || o == opRegwrite

/-- Gate M. -/
def gateM (o : Nat) : Bool :=
  isDataOp o || o == opRest || o == opCreate || o == opBind || o == opUnbind || o == opLock || o == opUnlock ||
    o == opSliceReset || o == opDestroy || o == opConfirm || o == opSelftest

/-- Gate S. -/
def gateS (o : Nat) : Bool :=
  o == opWrite || o == opTrim || o == opRest || o == opCreate || o == opDestroy || o == opStage || o == opActivate ||
    o == opConfirm || o == opSelftest

/-- Gate L. -/
def gateL (o : Nat) : Bool := o == opWrite || o == opTrim || o == opRest || o == opCreate || o == opDestroy

/-- Gate Y. -/
def gateY (o : Nat) : Bool :=
  o == opWrite || o == opTrim || o == opCreate || o == opDestroy || o == opStage || o == opActivate || o == opConfirm

/-- The Slice that a data command reaches: its ring's, while the sender still owns it (R160, R168, R174). -/
def State.dataSlice (s : State) (c : Cmd) : Option Nat :=
  match c.ring with
  | some r => if r < 64 ∧ (s.slice r).owner = some c.orig then some r else none
  | none => none

/-- Is the Slice locked against an Originator (R181)? -/
def Slice.lockedAgainst (sl : Slice) (orig : Nat) : Bool :=
  match sl.lock with
  | some l => l.orig != orig
  | none => false

/-- Check 5: counts and lengths. -/
def Cmd.badLength (c : Cmd) : Bool :=
  if c.opcode = opRead ∨ c.opcode = opWrite ∨ c.opcode = opVerify then decide (256 < c.count)
  else if c.opcode = opStage then c.field 8 32 == 0 || decide (1048576 < c.field 8 32)
  else if c.opcode = opCreate then c.field 8 40 == 0
  else false

/-- The owner of the Slice that byte 0 names, or the Administrator (Who: O, A). -/
def State.ownerOrAdmin (s : State) (c : Cmd) : Bool :=
  s.isAdmin c.orig || (decide (c.field 0 8 < 64) && (s.slice (c.field 0 8)).owner == some c.orig)

/-- Check 6: column Who of Table 5-5, with R159 for a card without an Administrator. ABORT judges its sender once it has
found its target (R127). -/
def State.permitted (s : State) (c : Cmd) : Bool :=
  let o := c.opcode
  if isDataOp o then (s.dataSlice c).isSome
  else if o = opDeclare ∨ o = opRest then s.isAdmin c.orig || (s.noAdmin && (s.boundSlice c.orig).isSome)
  else if o = opPropose ∨ o = opCommit ∨ o = opReset ∨ o = opCreate ∨ o = opDestroy ∨ o = opStage ∨ o = opActivate ∨
      o = opConfirm ∨ o = opSelftest then s.isAdmin c.orig
  else if o = opUnbind ∨ o = opLock ∨ o = opUnlock ∨ o = opSliceReset then s.ownerOrAdmin c
  else if o = opFetch then !(s.fetchRings c.orig).isEmpty
  else true

/-- Does a Slice number name a Slice that is FREE or DESTROYING? -/
def State.absent (s : State) (i : Nat) : Bool := (s.slice i).st == .free || (s.slice i).st == .destroying

/-- Check 7: field values and ranges. -/
def State.outOfRange (s : State) (c : Cmd) : Bool :=
  let o := c.opcode
  let i := c.field 0 8
  if isDataOp o then
    match s.dataSlice c with
    | some r => o != opBarrier && c.count != 0 && decide ((s.slice r).cfg.cap < c.lba + c.count)
    | none => false
  else if o = opIdentify then decide (96 < i)
  else if o = opAssign then c.field 0 96 != s.fuses.serial
  else if o = opSwitch then !c.idMode || c.field 0 2 == 3 || bitsOf (c.field 0 8) 2 2 == 3
  else if o = opDeclare then decide (c.field 0 32 < 1000) || decide (3200000 < c.field 0 32)
  else if o = opReset then decide (1 < i)
  else if o = opCreate then
    decide (63 < i) || decide (2 < c.field 16 8) || decide (1 < c.field 18 8) || (c.field 16 8 == 1 && c.field 17 8 == 0)
  else if o = opBind then decide (63 < i) || decide (1 < c.field 1 8) || s.absent i
  else if o = opLock then decide (63 < i) || s.absent i
  else if o = opUnbind ∨ o = opUnlock ∨ o = opSliceReset then decide (63 < i)
  else if o = opDestroy then
    decide (63 < i) || (bitAt (c.field 1 8) 0 && (s.slice i).cfg.exist && !(s.slice i).cfg.enc)
  else if o = opStage then
    decide (1 < i) || c.field 4 32 % 64 != 0 || c.field 8 32 % 64 != 0 ||
      decide (slotSize (2 * i) < c.field 4 32 + c.field 8 32) || s.targetProbation i ||
      s.cmds.any (fun d => d.opcode == opActivate && d.working && d.field 0 8 == i)
  else if o = opActivate then decide (1 < i)
  else if o = opFetch then decide (64 < i)
  else if o = opSelftest then decide (5 < i)
  else false

/-- Checks 3 to 12 of Table 5-4: the first status that fails, or OK. DEDUCED: log entry 48. -/
def State.checks (s : State) (c : Cmd) : Nat :=
  let o := c.opcode
  if gateD o && !s.declared then stUndeclared
  else if c.idMode && !idServed o then stNeedsFast
  else if c.badLength then stBadLength
  else if !s.permitted c then stNotOwner
  else if s.outOfRange c then stOutOfRange
  else if gateM o && s.minimal then stNoFirmware
  else if gateS o && s.safe then stSafeState
  else if gateL o && s.safeIf then stFwLimited
  else if gateY o && s.readOnly then stReadOnly
  else if (o == opWrite || o == opTrim) && (match s.dataSlice c with
    | some r => (s.slice r).lockedAgainst c.orig
    | none => false) then stLocked
  else stOk

/-! The checks of Table 3-4. -/

/-- Page, index, count and bank of a register command (Table 5-5, R42). -/
def Cmd.regPage (c : Cmd) : Nat := c.field 0 11 / 32
def Cmd.regIndex (c : Cmd) : Nat := c.field 0 11 % 32
def Cmd.regCount (c : Cmd) : Nat := c.field 2 8

/-- Does the range of a register command hold index `i`? -/
def Cmd.covers (c : Cmd) (i : Nat) : Bool := decide (c.regIndex ≤ i ∧ i < c.regIndex + c.regCount)

/-- The bank that a register command reaches (R54). -/
def State.regBank (s : State) (c : Cmd) : Option Nat :=
  if !banked c.regPage then some 0
  else if s.isAdmin c.orig then some (c.field 3 6)
  else s.boundSlice c.orig

/-- Is a register Administrator-write (R53)? CAPACITY, QOS, MAP, AUTH and BIND_KEY of SLICE, DEPTH of QUEUE. -/
def adminWrite (page index : Nat) : Bool :=
  (page == 6 && (index == 9 || index == 10 || index == 11 || index == 15 || index == 16 ||
    decide (17 ≤ index ∧ index ≤ 24))) || (page == 7 && index == 9)

/-- Check 3: may the sender reach the page and bank (R54, R57, R53, R159)? -/
def State.regPermitted (s : State) (c : Cmd) : Bool :=
  let page := c.regPage
  if s.isAdmin c.orig then true
  else if page = 0 then c.opcode == opRegread
  else if banked page then
    (s.boundSlice c.orig).isSome &&
      (c.opcode == opRegread || (rangeFrom 0 32).all (fun i => !(c.covers i && adminWrite page i)))
  else false

/-- Checks 1 to 5 of Table 3-4. In factory test mode without firmware the boot ROM serves writes of the OPTION and TEST
pages (R477). -/
def State.regChecks (s : State) (c : Cmd) : Nat :=
  if c.regCount = 0 ∨ 32 < c.regCount then stBadLength
  else if 0x28 < c.regPage ∨ 32 < c.regIndex + c.regCount then stOutOfRange
  else if !s.regPermitted c then stNotOwner
  else if c.opcode = opRegread then stOk
  else if s.minimal && !(s.ftm && (c.regPage == 0x23 || c.regPage == 0x28)) then stNoFirmware
  else if c.regPage = 0x28 ∧ !s.ftm then stNotSealed
  else stOk

/-- The checks that run at the decode of a command. -/
def State.decodeChecks (s : State) (c : Cmd) : Nat := if isRegOp c.opcode then s.regChecks c else s.checks c

/-! ATTN_FETCH and data phases. -/

/-- Fast-mode DATA_DN frames that a command asks for (Table 5-3). -/
def Cmd.frames (c : Cmd) : Nat :=
  if c.opcode = opWrite then c.count
  else if c.opcode = opStage then ceilDiv (c.field 8 32) 4096
  else if c.opcode = opRegwrite then 1
  else 0

/-- Ask the host for a command's data (R15, R117). -/
def State.dataReq (s : State) (c : Cmd) : State :=
  let c := { c with phase := .asking, wanted := c.frames }
  (s.setCmd c.q (fun _ => c)).enqueue (upFrame s c .dataReq c.frames 0 0)

/-- LOST of the rings that a fetch reads (R206). -/
def State.ringsLost (s : State) (rings : List Nat) : Bool := rings.any (fun r => s.rd (lostBit r) == 1)

/-- Entries on the rings that a fetch reads. -/
def State.ringsLevel (s : State) (rings : List Nat) : Nat := sumBy s.aqLevel rings

/-- The completion fields of an ATTN_FETCH: LEVEL after the removal, LOST (R206). -/
def State.fetchResult (s : State) (rings : List Nat) : Nat :=
  s.ringsLevel rings + 256 * bit01 (s.ringsLost rings)

/-- Held completions find room after a removal (R131). -/
def State.postDeferred (s : State) : State :=
  s.cmds.foldl (fun (s : State) c => if c.phase == .deferred && decide (s.aqCompl (s.homeRing c) < 64)
    then s.placeCompletion c else s) s

/-- The edge on which an ATTN_FETCH's up data phase ends: the entries it sent leave the rings that it reads, then held completions
are posted on them (R125, R205, R207). A level that stood at its watermark before the edge has not crossed it (R208). -/
def State.fetchEnd (s : State) (q : Nat) : State :=
  match s.cmd? q with
  | some c =>
    if c.opcode == opFetch && c.phase == .upData then
      let before := s
      let s := { s with attn := s.attn.filter (fun e => !(e.sending && c.rings.contains e.ring)) }
      let s := (s.complete q stOk (s.fetchResult c.rings)).postDeferred
      c.rings.foldl (fun (s : State) r => s.attnRose r (before.aqLevel r)) s
    else s
  | none => s

/-- The edge on which a command's down data phase ends: a WRITE takes its Forced upkeep (R263). -/
def State.dataEnd (s : State) (q : Nat) : State :=
  match s.cmd? q with
  | some c =>
    let forced := c.opcode == opWrite && decide (1 ≤ c.count) && s.rd Reg.UPKEEP.DEBT_HARD.STEPS != 0 &&
      decide (s.rd Reg.UPKEEP.DEBT_HARD.STEPS ≤ s.flash.upkeep.debt) && s.bit (enableBit 0x0D 0) && !s.safe
    let s := s.setCmd q (fun c => { c with phase := .ready, steps := 0, erases := 2 * bit01 forced, moves := 6 * bit01 forced })
    let s := if c.opcode = opWrite then s.scanJob (some q) else s
    s.setDesc q (fun d => { d with st := if d.st == .held then .held else .active, before := .active, offset := 0, next := 0 })
  | none => s

/-- A DATA_DN frame reaches its command (R117); an ABORT takes effect between the data frames of a WRITE or FW_STAGE, and after
the last of a FW_STAGE (Table 5-8): the data of the expected index is taken, anything else is stray, a frame with
another card's ADDR too. Its OPCODE is not compared, since R117 names TAG and index alone. DESIGN CHOICE: log entry 35. -/
def State.takeData (s : State) (addr orig tag index payload : Nat) : State :=
  let hit := s.cmds.find? (fun c => c.orig == orig && c.tag == tag && c.phase == .data)
  match hit with
  | some c =>
    if index = c.payload.length ∧ addr = s.rd Reg.SHELF.ADDR.CARD_ADDR then
      let s := s.setCmd c.q (fun c => { c with payload := c.payload ++ [payload] })
      let s := s.setDesc c.q (fun d => { d with offset := d.offset + 1, next := d.next + 1 })
      if !c.abortedBy.isEmpty && (c.opcode == opStage || (c.opcode == opWrite && decide (index + 1 < c.wanted)))
      then s.endCmd c.q stAborted
      else if index + 1 = c.wanted then s.dataEnd c.q else s
    else s.tally Reg.LINKERR.STRAY.COUNT
  | none => s.tally Reg.LINKERR.STRAY.COUNT

end Sys2Proof.Machine
end

