-- ==== Sys2Proof/Machine/Link.lean ====
section
/-!
DEFINITION. The link layer (R106–R112), acceptance of command frames (R113–R115), link loss (R93, R110, R130, R131),
training and the voltage switch (R81, R82, R91, R92), the return to ID mode (R94).
-/
namespace Sys2Proof.Machine

/-- Change the link. -/
def State.onLink (s : State) (f : Link → Link) : State := { s with link := f s.link }

/-! Link loss. -/

/-- Does a command need a down data phase that has not ended (Table 5-9)? -/
def Cmd.downOpen (c : Cmd) : Bool :=
  decide (1 ≤ (if c.opcode = opRegwrite then c.regCount else c.frames)) &&
    (c.opcode == opWrite || c.opcode == opStage || c.opcode == opRegwrite) &&
    (c.phase == .queued || c.phase == .decoded || c.phase == .asking || c.phase == .data)

/-- Has a command an up data phase that has not ended (Table 5-9)? -/
def Cmd.upOpen (c : Cmd) : Bool :=
  !c.done? && ((c.opcode == opRead && c.count != 0) || (c.opcode == opRegread && c.regCount != 0) ||
    (c.opcode == opFetch && c.field 0 8 != 0))

/-- End a command ABORTED_LINK. -/
def State.endLink (s : State) (q : Nat) : State := (s.endCmd q stAbortedLink).tally Reg.LINKERR.ABORTED_LINK.COUNT

/-- The units of completion fields of a command with an up data phase that ends ABORTED_LINK: Table 5-5 names them without a
condition for ATTN_FETCH alone (R119). -/
def lostUnits (opcode : Nat) : Nat := if opcode = opFetch then 1 else 0

/-- The command that an unacknowledged COMPLETION belongs to, In flight again from the loss edge (R24, R130): with its
own status, or ABORTED_LINK where it had an up data phase. -/
def reopened (f : UpFrame) : Cmd :=
  { newCmd f.q f.orig f.tag f.opcode 0 false false f.ring [] with
    phase := .settled, status := if f.hadUp then stAbortedLink else f.status,
    result := if f.hadUp then 0 else f.payload, resultUnits := if f.hadUp then lostUnits f.opcode else f.units,
    upSent := f.hadUp }

/-- Put a command back in stamp order: before the first that was stamped later, modulo 2^32. -/
def insertStamped (c : Cmd) : List Cmd → List Cmd
  | [] => [c]
  | d :: l => if wrapSub d.q c.q 32 < 2 ^ 31 then c :: d :: l else d :: insertStamped c l

/-- The frame that a COMPLETION becomes at a loss (R130): one that was ever sent keeps RETX = 1, a replacement has RETX = 0. -/
def resettled (sent : Bool) (f : UpFrame) : UpFrame :=
  if f.hadUp then { f with status := stAbortedLink, units := lostUnits f.opcode, payload := 0, retx := false, retries := 0 }
  else { f with retx := sent || f.retx, retries := 0 }

/-- Settle an unacknowledged or unsent COMPLETION at the loss edge: the command is In flight and owes its frame. -/
def State.reopen (s : State) (f : UpFrame) : State :=
  let s := if f.hadUp then s.tally Reg.LINKERR.ABORTED_LINK.COUNT else s
  if (s.cmd? f.q).isSome then s.setCmd f.q (fun c => if f.hadUp then
    { c with status := stAbortedLink, result := 0, resultUnits := lostUnits c.opcode } else c)
  else { s with cmds := insertStamped (reopened f) s.cmds }

/-- The link-loss rule (R130, Table 5-9): kept COMPLETIONs first, then the others; every DATA_UP, PROGRESS and DATA_REQ
frame is dropped; an ATTN_FETCH removes nothing. -/
def State.linkLoss (s : State) : State :=
  let l := s.link
  let kept := l.unacked.filter (fun f => f.ftype == .completion)
  let waiting := l.txQueue.filter (fun f => f.ftype == .completion)
  let s := s.onLink (fun l => { l with
    unacked := []
    txQueue := []
    nakAt := none
    nakSent := 0
    nakDue := false
    hunting := false
    ackDue := false
    idleHc := 0 })
  let s : State := (kept ++ waiting).foldl (fun (s : State) f => s.reopen f) s
  let s := { s with attn := s.attn.map (fun (e : AttnEntry) => { e with sending := false }) }
  let frames := (kept.filter (fun f => !f.hadUp)).map (resettled true) ++ (kept.filter (fun f => f.hadUp)).map (resettled true) ++
    waiting.map (resettled false)
  let s := if s.link.phase == .returning then s else s.onLink (fun l => { l with txQueue := frames })
  let open_ := s.cmds.filter (fun c => c.downOpen || c.upOpen)
  open_.foldl (fun (s : State) c => s.endLink c.q) s

/-- An ARMED round ends (R152). -/
def State.disarm (s : State) : State :=
  if s.rd Reg.SHELF.SLEEP_STAT.STATE = 2 then
    { (s.wr Reg.SHELF.SLEEP_STAT.STATE 0) with shelf := { s.shelf with armedBy := none } }
  else s

/-- The card declares the link lost (R93, R110). -/
def State.loseLink (s : State) : State :=
  if s.link.phase != .up then s else
    let s := (s.onLink (fun l => { l with phase := .lost, aligned := false, lockRun := [0, 0, 0, 0] })).tally
      Reg.LINKERR.LOSSES.BUDGET
    (s.raise Evt.LINK.LINK_LOST).disarm.linkLoss

/-- LINK_RETRY_MAX. -/
def State.retryMax (s : State) : Nat := s.rd Reg.LINK.RETRY.LINK_RETRY_MAX

/-- Replay every unacknowledged frame with RETX = 1; a replay beyond the budget loses the link (R109, R110). -/
def State.replay (s : State) : State :=
  if s.link.phase != .up || s.link.unacked.isEmpty then s
  else if s.link.unacked.any (fun f => decide (s.retryMax < f.retries + 1)) then s.loseLink
  else
    let s := s.onLink (fun l => { l with
      unacked := l.unacked.map (fun (f : UpFrame) => { f with retx := true, retries := f.retries + 1 })
      idleHc := 0 })
    (s.link.unacked.foldl (fun (s : State) f => s.transmit f) s).tally Reg.LINKERR.REPLAYS.COUNT s.link.unacked.length

/-- The oldest unacknowledged frames that an ACKSEQ acknowledges (R106). -/
def ackedFrames (ackSeq : Nat) : List UpFrame → List UpFrame
  | [] => []
  | f :: l =>
    let d := wrapSub ackSeq f.lseq 8
    if 1 ≤ d ∧ d ≤ 32 then f :: ackedFrames ackSeq l else []

/-- Take the acknowledgement of a header, then its NAK (R106, R109). -/
def State.takeAck (s : State) (h : LinkHdr) : State :=
  if !h.ackv then s else
    let a := ackedFrames h.ackSeq s.link.unacked
    let s := s.onLink (fun l => { l with unacked := l.unacked.drop a.length, idleHc := if a.isEmpty then l.idleHc else 0 })
    let s : State := a.foldl (fun (s : State) f => if f.ftype == .dataUp then s.fetchEnd f.q else s) s
    if h.nak then s.replay else s

/-- A discarded frame calls for a NAK in the next header that the card begins: no second one for the same expected value until a
copy of that frame has arrived with RETX = 1 (R107); the NAK that passes the budget loses the link (R110). -/
def State.nak (s : State) (lseq : Nat) (retx : Bool) : State :=
  let l := s.link
  let again := l.nakAt == some l.rxExpected
  if again && !(lseq == l.rxExpected && retx) then s
  else
    let n := if again then l.nakSent + 1 else 1
    let s := s.tally Reg.LINKERR.NAK_SENT.COUNT
    let s := s.onLink (fun l => { l with nakAt := some l.rxExpected, nakSent := n, nakDue := true })
    if s.retryMax < n then s.loseLink else s

/-- The receiver's judgement of a good sequenced frame (R107): accepted, or not. -/
def State.receive (s : State) (h : LinkHdr) : State × Bool :=
  let s := s.takeAck h
  if s.link.phase != .up then (s, false)
  else
    let d := wrapSub s.link.rxExpected h.lseq 8
    if d = 0 then
      (s.onLink (fun l => { l with
        rxExpected := (l.rxExpected + 1) % 256
        nakAt := none
        nakSent := 0
        nakDue := false
        ackDue := true }), true)
    else if d ≤ 32 then (s.onLink (fun l => { l with ackDue := true }), false)
    else (s.nak h.lseq h.retx, false)

/-! Command credit and acceptance. -/

/-- The credit of a frame that is not stamped returns at once (R112). -/
def State.credit (s : State) : State :=
  s.onLink (fun l => { l with cmdLimit := (l.cmdLimit + 1) % 65536, linkctlDue := true })

/-- A CMD frame that is acknowledged and not stamped, counted as stray. -/
def State.stray (s : State) : State := (s.tally Reg.LINKERR.STRAY.COUNT).credit

/-- A command frame that arrives after SLEEP_COMMIT was stamped latches wake-pending (R155). -/
def State.refuseForSleep (s : State) : State := s.latchWake 1

/-- Is a frame addressed to this card (R113)? -/
def State.mine (s : State) (f : CmdIn) : Bool :=
  s.rd Reg.SHELF.ADDR.ASSIGNED == 1 && f.addr == s.rd Reg.SHELF.ADDR.CARD_ADDR

/-- An accepted CMD frame (R112–R115, R89, R134, R144, R155). The spec states no order among the reasons for which a frame is not
stamped: sleep entry comes first, since R155 treats every frame alike, then the idle code 0x4A, then the frame's address, its
credit, its ORIG, a known pair, a broadcast that is not served. DESIGN CHOICE: log entry 39. -/
def State.takeCommand (s : State) (f : CmdIn) : State :=
  let room := (s.link.cmdLimit + 65536 - s.link.cmdCount) % 65536
  let s := s.onLink (fun l => { l with cmdCount := (l.cmdCount + 1) % 65536 })
  if s.sleepBound then s.stray.refuseForSleep
  else if !s.ready then (s.bump Reg.LINK.ID_ERRORS.DROPPED).credit
  else if !f.bcast && !s.mine f then s.stray
  else if room = 0 ∨ 1024 < room then s.stray
  else if f.orig = 0xFF then s.stray
  else if s.known f.orig f.tag then (s.tally Reg.LINKERR.DUP_DROPPED.COUNT).credit
  else if f.bcast && !bcastOp f.opcode then s.stray
  else if f.bcast && !s.selected f.opcode f.fields then (s.bump Reg.SHELF.COUNTS.BCAST_SKIPPED).credit
  else s.stamp f.orig f.tag f.opcode f.fields f.bcast false

/-- The CMD frames that were accepted while COMPLETIONs were owed are stamped once the last of those has been sent (R130). -/
def State.admitHeld (s : State) : State :=
  if s.link.owed.isEmpty && s.link.phase == .up then
    s.link.held.foldl (fun (s : State) f => s.takeCommand f) (s.onLink (fun l => { l with held := [] }))
  else s

/-- An accepted CMD frame joins those that wait behind owed COMPLETIONs (R130). -/
def State.acceptCommand (s : State) (f : CmdIn) : State := s.onLink (fun l => { l with held := l.held ++ [f] })

/-! Training. -/

/-- The configured down lanes. -/
def State.downLanes (s : State) : Nat := widthLanes (s.rd Reg.LINK.STATE.DOWN_W)

/-- Is a down lane locked: two consecutive error-free TSD blocks (R91)? -/
def Link.locked (l : Link) (lane : Nat) : Bool := decide (2 ≤ l.lockRun.getD lane 0)

/-- Enter TRAINING from where the card stands (R91, R92). Lanes that are locked stay locked as a retrain begins: R91 names a block
in error as what unlocks one. DESIGN CHOICE: log entry 53. -/
def Link.train (l : Link) : Link :=
  if l.phase == .up || l.phase == .fastWait || l.phase == .lost then { l with trainedFrom := l.phase, phase := .training }
  else l

/-- A TSD block on a configured lane, good when its bytes are those of Table 4-7 with the lane's number; `inSlot`: the blocks of
all lanes begin in one slot (R91). Any block on a configured lane, one in error too, takes a card in FAST_WAIT, UP or LOST to
TRAINING, and ends the receiver's wait for an idle code (R105). DESIGN CHOICE: log entry 53. -/
def State.takeTsd (s : State) (lane : Nat) (bytes : List Nat) (inSlot : Bool) : State :=
  if !s.link.fast || s.link.phase == .returning || decide (s.downLanes ≤ lane) then s
  else
    let n := s.downLanes
    let good := bytes == tsdBlock lane
    s.onLink (fun l =>
      let l := { l.train with hunting := false }
      let l := { l with lockRun := l.lockRun.modify lane (fun k => if good then min 2 (k + 1) else 0) }
      { l with aligned := inSlot && (rangeFrom 0 n).all l.locked })

/-- LOCK of a TSU block: bit l for a locked down lane, bit 4 ALIGNED; a card in LOST sends 0x00 (R90, R93). -/
def Link.lockByte (l : Link) : Nat :=
  if l.phase == .lost then 0
  else sumBy (fun i => if l.locked i then 2 ^ i else 0) (rangeFrom 0 4) + 16 * bit01 l.aligned

/-- The TSU block that the card sends at the next grid point of an up lane, where it sends them (R91, R93). -/
def State.upBlock (s : State) (lane : Nat) : Option (List Nat) :=
  if (s.link.phase == .fastWait || s.link.phase == .training || s.link.phase == .lost) &&
      decide (lane < widthLanes (s.rd Reg.LINK.STATE.UP_W))
  then some (tsuBlock lane s.link.lockByte) else none

/-- The idle code between the card's frames in UP and RETURNING (R88, R94). -/
def State.idleCode (s : State) : Nat := if s.ready then 0xB5 else 0x4A

/-- A restart of the link state (R111, R112, R130). -/
def State.restartLink (s : State) : State :=
  s.onLink (fun l => { l with
    txLseq := 0
    rxExpected := 0
    nakAt := none
    nakSent := 0
    cmdLimit := (1024 + 65536 - s.cmds.length) % 65536
    cmdCount := 0
    linkctlDue := true
    held := []
    owed := (l.txQueue.filter (fun f => f.ftype == .completion)).map (fun f => f.q) })

/-- The card's answer to TSE: one TSE block on every configured up lane (R91). -/
def State.answerTse (s : State) : State :=
  (rangeFrom 0 (widthLanes (s.rd Reg.LINK.STATE.UP_W))).foldl (fun (s : State) l => s.emit (.block l (tseBlock l))) s

/-- Did the host send one TSE block on every configured down lane (Table 4-7)? -/
def State.tseGood (s : State) (blocks : List (List Nat)) : Bool := blocks == (rangeFrom 0 s.downLanes).map tseBlock

/-- The TSE that ends training (R91); the link is UP, and restarted where training began from FAST_WAIT or LOST (R111). -/
def State.takeTse (s : State) (blocks : List (List Nat)) (inSlot : Bool) : State :=
  if s.link.phase == .training && s.link.aligned && inSlot && s.tseGood blocks then
    let s := s.answerTse.onLink (fun l => { l with phase := .up, firstCtl := true, linkctlDue := true, idleHc := 0 })
    let s := (s.bump Reg.LINK.LINKUPS.TRAININGS).raise Evt.LINK.LINK_UP
    if s.link.trainedFrom == .up then s else s.restartLink
  else s

/-- The host's LINKCTL: its acknowledgement, and, as the first frame after training, RESTART (R111). Acknowledgements of a
numbering that the restart ends are not taken. -/
def State.takeLinkctl (s : State) (h : LinkHdr) (restart : Bool) : State :=
  if s.link.phase != .up then s
  else if !s.link.firstCtl then s.takeAck h
  else
    let restarted := s.link.trainedFrom != .up
    let s := s.onLink (fun l => { l with firstCtl := false })
    let s := if restart then s.tally Reg.LINKERR.LOSSES.RESTART else s
    if restarted then (if restart then s else s.takeAck h)
    else if restart then s.disarm.linkLoss.restartLink
    else
      let s := s.takeAck h
      if h.ackv && h.nak then s else s.replay

/-! The return to ID mode and the voltage switch. -/

/-- The host asks for ID mode, from UP, TRAINING or LOST (R94). -/
def State.beginReturn (s : State) : State :=
  if s.link.fast && (s.link.phase == .up || s.link.phase == .training || s.link.phase == .lost) then
    let s := s.onLink (fun l => { l with phase := .returning, aligned := false, lockRun := [0, 0, 0, 0], owed := [], held := [] })
    (s.tally Reg.LINKERR.LOSSES.RESTART).disarm.linkLoss
  else s

/-- A change of the dividers: no count in CCLK or FCLK spans it, so one that runs starts again at 0 (R23). DEDUCED: log entry
54. -/
def State.changeDividers (s : State) : State :=
  { s.onFlash (fun fl => { fl with
      dies := fl.dies.map (fun (x : Die) => { x with watchdog := 0 })
      chans := fl.chans.map (fun (c : Chan) => { c with beat := 0 }) }) with
    esc := { s.esc with count := 0, readback := 0 } }

/-- The first edge on which nothing is In flight: dividers bypassed, pads in ID mode (R23, R94); the channels need
reconfiguration (R338). DOWN_W and UP_W keep the widths that were last in force, since only a SWITCH or a reset changes them.
DESIGN CHOICE: log entry 53. -/
def State.endReturn (s : State) : State :=
  if s.link.phase == .returning && s.cmds.isEmpty then
    let s := { s.changeDividers with link := Link.reset }
    (s.raise Evt.LINK.RETURNED_ID).newFrequency.presentReady
  else s

/-- Cancel the handshake: back in ID mode with nothing else changed (R82). -/
def State.cancelSwitch (s : State) : State :=
  if s.link.phase == .switching then
    s.onLink (fun l => { l with phase := .idReady, switchStep := .none, switchHc := 0 })
  else s

/-- Step 5 of Table 4-4: the 16th confirm edge. The kept response is discarded (R77), the dividers engage (R23), the
channels need reconfiguration (R338). -/
def State.enterFast (s : State) : State :=
  if s.link.phase == .switching && s.link.switchStep == .confirm then
    let w := s.link.wantW
    let s := s.onLink (fun l => { Link.reset with phase := .fastWait, fast := true, wantW := l.wantW })
    let s := (s.wr Reg.LINK.STATE.DOWN_W (w % 4)).wr Reg.LINK.STATE.UP_W (w / 4)
    (s.bump Reg.LINK.LINKUPS.SWITCHES).changeDividers.newFrequency
  else s

/-- Regulation was not reported in 65,536 HC (R82). -/
def State.timeoutSwitch (s : State) : State := s.cancelSwitch.report Src.LINK.SWITCH_TIMEOUT

/-! ID mode. -/

/-- Does a frame repeat the command whose response is kept (R77)? -/
def Link.repeats (l : Link) (orig tag opcode : Nat) : Bool :=
  match l.idResponse with
  | some r => r.orig == orig && r.tag == tag && r.opcode == opcode
  | none => false

/-- The card sends its kept response again (R77). -/
def State.answerAgain (s : State) : State :=
  match s.link.idResponse with
  | some r => s.emit (.response r.bytes)
  | none => s

/-- An ID-mode command frame (R71–R78, R134, R144, R155). The handshake of a switch is cancelled by its start bit, and the
frame is then received as a command (R82); a repeat of the SWITCH itself is answered from the kept response, and the handshake
does not start again. A frame with a bad CRC counts in CRC_ERR alone, whenever it arrives. DESIGN CHOICE: log entry 55. -/
def State.takeIdFrame (s : State) (b : List Nat) : State :=
  if s.link.fast then s
  else
    let s := s.cancelSwitch.onLink (fun l => { l with idPartial := false })
    let f := idCmdOf b
    if !idCrcGood b then s.bump Reg.LINK.ID_ERRORS.CRC_ERR
    else
      let s := if s.sleepBound then s.refuseForSleep else s
      if !f.bcast && !s.mine f then s
      else if !s.cmds.isEmpty || !s.ready then s.bump Reg.LINK.ID_ERRORS.DROPPED
      else if s.sleepBound then s
      else if f.orig = 0xFF ∨ 192 < idLen b then s
      else if f.bcast && !bcastOp f.opcode then s
      else if s.link.repeats f.orig f.tag f.opcode then s.answerAgain
      else if f.bcast && !s.selected f.opcode f.fields then s.bump Reg.SHELF.COUNTS.BCAST_SKIPPED
      else s.stamp f.orig f.tag f.opcode f.fields f.bcast true [idDataOf b]

/-! Progress. -/

/-- PROGRESS_INTERVAL in CCLK (R36). -/
def State.progressInterval (s : State) : Nat := 2 ^ s.rd Reg.CLOCK.PROGRESS_CFG.INTERVAL_LOG2

/-- One CCLK edge of a command's progress count: at a multiple of the interval one PROGRESS frame is queued, unless one is
queued, the link is in ID mode or lost, or the command's status is fixed (R36, R129). -/
def State.progressEdge (s : State) (q : Nat) : State :=
  match s.cmd? q with
  | none => s
  | some c =>
    let s := s.setCmd q (fun c => { c with progress := c.progress + 1 })
    let queued := s.link.txQueue.any (fun f => f.ftype == .progress && f.q == q)
    let carries := s.link.phase == .up || s.link.phase == .training
    if (c.progress + 1) % s.progressInterval = 0 ∧ !c.done? ∧ carries ∧ !queued then s.enqueue (upFrame s c .progress q 0 0)
    else s

end Sys2Proof.Machine
end

