-- ==== Sys2Proof/Machine/Package.lean ====
section
/-!
DEFINITION. The package (R428–R432): the names of the balls, the channel blocks and the centre square, the supply domain of each
signal ball, and the Fuse map entry of a ball (R360).
-/
namespace Sys2Proof.Machine

/-- What a ball carries (Tables 18-4, 18-5); `n` is a channel, `q` a quartet, `p` says the P ball of a pair. -/
inductive BallFn where
  | dq (n i : Nat) | dqsT (n : Nat) | dqsC (n : Nat) | reT (n : Nat) | reC (n : Nat)
  | weN (n : Nat) | ale (n : Nat) | cle (n : Nat) | wpN (n : Nat) | ceN (n i : Nat) | rbN (n : Nat)
  | zq (q : Nat) | detN | clk (p : Bool) | dn (i : Nat) (p : Bool) | up (i : Nat) (p : Bool) | alert (p : Bool)
  | rstN | testEn | holdsw
  | tck | tms | tdi | tdo | trstN
  | vhold | vbak | vcc | vccq | vcore | gnd
deriving DecidableEq, Repr

/-- The row letters in index order (Table 18-2): row 1 is A. -/
def rowNames : List String :=
  ["A", "B", "C", "D", "E", "F", "G", "H", "J", "K", "L", "M", "N", "P", "T", "U", "V", "W", "Y",
    "AA", "AB", "AC", "AD", "AE", "AF"]

/-- The name of the ball in a row and column (R429). -/
def ballName (row col : Nat) : String := rowNames.getD (row - 1) "" ++ toString col

/-- The channel block of a position in the outer band, with the depth and the place in it (Table 18-3). -/
def blockPlace (row col : Nat) : Option (Nat × Nat × Nat) :=
  if row ≤ 5 ∧ col ≤ 20 then some ((col - 1) / 5, row - 1, (col - 1) % 5)
  else if 21 ≤ col ∧ row ≤ 20 then some (4 + (row - 1) / 5, 25 - col, (row - 1) % 5)
  else if 21 ≤ row ∧ 6 ≤ col then some (8 + (25 - col) / 5, 25 - row, (25 - col) % 5)
  else if col ≤ 5 ∧ 6 ≤ row then some (12 + (25 - row) / 5, col - 1, (25 - row) % 5)
  else none

/-- The function at depth `d` and place `a` of channel `n`'s block (Table 18-4). -/
def blockFn (n d a : Nat) : BallFn :=
  match d, a with
  | 0, 0 => .gnd
  | 0, a => .dq n (a - 1)
  | 1, 0 => .dqsT n
  | 1, 1 => .dqsC n
  | 1, 4 => .vccq
  | 1, a => .dq n (a + 2)
  | 2, 0 => .reT n
  | 2, 1 => .reC n
  | 2, 4 => .gnd
  | 2, a => .dq n (a + 4)
  | 3, 0 => .weN n
  | 3, 1 => .ale n
  | 3, 2 => .cle n
  | 3, 3 => .wpN n
  | 3, _ => .vccq
  | _, 4 => .rbN n
  | _, a => .ceN n a

/-- The function of a ball of the centre square (Table 18-5). -/
def centreFn (row col : Nat) : BallFn :=
  let supply : BallFn :=
    if (row = 9 ∨ row = 19) ∧ 7 ≤ col ∧ col ≤ 19 ∧ col % 2 = 1 then .vcc
    else if 11 ≤ row ∧ row ≤ 17 ∧ row % 2 = 1 ∧ (col = 7 ∨ col = 19) then .vcc
    else if 10 ≤ row ∧ row ≤ 16 ∧ 10 ≤ col ∧ col ≤ 16 ∧ (row + col) % 2 = 1 then .vcore
    else .gnd
  match row, col with
  | 6, 7 => .zq 0
  | 11, 20 => .zq 1
  | 20, 7 => .zq 2
  | 14, 6 => .zq 3
  | 6, 8 => .detN
  | 6, 10 => .clk true
  | 6, 11 => .clk false
  | 6, 13 => .alert true
  | 6, 14 => .alert false
  | 6, 16 => .rstN
  | 6, 17 => .testEn
  | 6, 18 => .holdsw
  | 20, 9 => .tck
  | 20, 10 => .tms
  | 20, 11 => .tdi
  | 20, 12 => .tdo
  | 20, 13 => .trstN
  | 20, 15 => .vhold
  | 20, 16 => .vhold
  | 20, 18 => .vbak
  | 7, c => if 8 ≤ c ∧ c ≤ 18 ∧ c % 3 ≠ 1 then .dn ((c - 8) / 3) (c % 3 == 2) else supply
  | 8, c => if 8 ≤ c ∧ c ≤ 18 ∧ c % 3 ≠ 1 then .up ((c - 8) / 3) (c % 3 == 2) else supply
  | _, _ => supply

/-- The ball in a row and column, both 1 to 25; A1 is unpopulated (R428, R430, R431). -/
def ballFn (row col : Nat) : Option BallFn :=
  if row = 0 ∨ 25 < row ∨ col = 0 ∨ 25 < col ∨ (row = 1 ∧ col = 1) then none
  else match blockPlace row col with
    | some (n, d, a) => some (blockFn n d a)
    | none => some (centreFn row col)

/-- The rail that powers a ball's driver and receiver (Table 18-7). -/
inductive PadSupply where
  | vccq | vsys | none
deriving DecidableEq, Repr

/-- The pad supply of a ball; a supply ball has none. -/
def BallFn.padSupply : BallFn → PadSupply
  | .dq _ _ | .dqsT _ | .dqsC _ | .reT _ | .reC _ | .weN _ | .ale _ | .cle _ | .wpN _ | .ceN _ _ | .rbN _ | .zq _ => .vccq
  | .detN | .clk _ | .dn _ _ | .up _ _ | .alert _ | .rstN | .testEn | .holdsw | .tck | .tms | .tdi | .tdo | .trstN => .vsys
  | .vhold | .vbak | .vcc | .vccq | .vcore | .gnd => .none

/-- A signal ball? -/
def BallFn.signal (f : BallFn) : Bool := f.padSupply != .none

/-- The Fuse map entry of a ball (R360), which numbers its boundary cells too (R451). -/
def BallFn.entry : BallFn → Option Nat
  | .dq n i => some (21 * n + i)
  | .dqsT n => some (21 * n + 8)
  | .dqsC n => some (21 * n + 9)
  | .reT n => some (21 * n + 10)
  | .reC n => some (21 * n + 11)
  | .weN n => some (21 * n + 12)
  | .ale n => some (21 * n + 13)
  | .cle n => some (21 * n + 14)
  | .wpN n => some (21 * n + 15)
  | .ceN n i => some (21 * n + 16 + i)
  | .rbN n => some (21 * n + 20)
  | .detN => some 336
  | .clk p => some (if p then 337 else 338)
  | .dn i p => some (339 + 2 * i + (if p then 0 else 1))
  | .up i p => some (347 + 2 * i + (if p then 0 else 1))
  | .alert p => some (if p then 355 else 356)
  | .rstN => some 357
  | .testEn => some 358
  | .holdsw => some 359
  | .zq _ | .tck | .tms | .tdi | .tdo | .trstN => none
  | .vhold | .vbak | .vcc | .vccq | .vcore | .gnd => none

end Sys2Proof.Machine
end

