-- ==== Sys2Proof/Machine/Balls.lean ====
section
/-!
DEFINITION. What the card shows on its balls: the Fuse map reset states of the channel balls (R307, R309, R360–R362, R416),
the up lanes between frames (R69, R305, R416), HOLDSW (R440), the backup charger (R443), the DET_N pull-up (R67), the ALERT pair (R97, R416, R446)
and what boundary scan makes of them (R449, R451, R452).
-/
namespace Sys2Proof.Machine

/-- What a ball shows: a driven level, high impedance, a weak pull, or what the clocked logic drives there. -/
inductive BallLevel where
  | low | high | float | weakLow | weakHigh | logic
deriving DecidableEq, Repr

/-- The class default of entry `e` (Table 14-8): HOLDSW and, by their places among the 21 balls of a channel, the channel balls. -/
def fuseDefault (e : Nat) : BallLevel :=
  if e = 359 then .low
  else
    let k := e % 21
    if k < 9 ∨ k = 11 then .weakLow
    else if k = 9 then .weakHigh
    else if k = 10 ∨ k = 12 then .high
    else if k = 13 ∨ k = 14 ∨ k = 15 then .low
    else if k < 20 then .high
    else .weakHigh

/-- What a Fuse map code makes of a ball (Table 14-7). -/
def fuseLevel (e code : Nat) : BallLevel :=
  match code with
  | 1 => .low
  | 2 => .high
  | 3 => .float
  | 4 => .weakLow
  | 5 => .weakHigh
  | _ => fuseDefault e

/-- The reset state of the ball of entry `e`, a code that is not permitted applied as 0b000 (R362). -/
def State.resetState (s : State) (e : Nat) : BallLevel := fuseLevel e (s.fuseCode e)

/-! Boundary scan. -/

/-- Does the card only read the ball of an entry: RB_N, DET_N, CLK, DN, RST_N and TEST_EN (Table 18-7)? -/
def inputOnly (e : Nat) : Bool := (e < 336 && e % 21 == 20) || (336 ≤ e && e ≤ 346) || e == 357 || e == 358

/-- Has an absent channel the ball of an entry (R2)? -/
def State.entryAbsent (s : State) (e : Nat) : Bool := decide (e < 336) && !s.chanPresent (e / 21)

/-- What boundary scan drives at the ball of an entry, where EXTEST, CLAMP or HIGHZ has it (R449, R451); a removal takes every ball back
(R452). -/
def State.scanned (s : State) (e : Nat) : Option BallLevel :=
  let cells : Option BallLevel :=
    if inputOnly e then none
    else if s.entryAbsent e || !bitAt s.tap.boundary (3 * e + 2) then some .float
    else some (if bitAt s.tap.boundary (3 * e + 1) then .high else .low)
  if s.power.st != .active || !s.ftm then none
  else match s.tap.instr with
    | .extest => cells
    | .clamp => cells
    | .highz => if inputOnly e then none else some .float
    | .sample => none
    | .idcode => none
    | .bypass => none

/-- Ball `k` of channel `n` in the order of R360: its reset state while a reset of level P or S is asserted and on an unpopulated or
absent channel (R361), high impedance in SLEEP, OFF and once the removal sequence has ended (R307, R309, R416), otherwise what the
channel's sequencer drives. -/
def State.channelBall (s : State) (n k : Nat) : BallLevel :=
  match s.power.st with
  | .off => .float
  | .sleep => .float
  | .removed => .float
  | .removing => if (s.chanProfile n).isSome then .logic else s.resetState (21 * n + k)
  | .active =>
    match s.scanned (21 * n + k) with
    | some l => l
    | none => if s.power.startup == .held || (s.chanProfile n).isNone then s.resetState (21 * n + k) else .logic

/-- Is the active level of HOLDSW low: its Fuse map code makes its inactive level high (R440)? -/
def State.holdswActiveLow (s : State) : Bool := s.resetState 359 == .high

/-- HOLDSW (R440): the inactive level from the Fuse map sense onward, the active level from removal step 0 to removal step 9; unpowered
without VSYS. -/
def State.holdsw (s : State) : BallLevel :=
  let level (v : Bool) : BallLevel := if v then .high else .low
  match s.power.st with
  | .off => .float
  | .removing => level (!s.holdswActiveLow)
  | .active => (s.scanned 359).getD (level s.holdswActiveLow)
  | .sleep => level s.holdswActiveLow
  | .removed => level s.holdswActiveLow

/-- The ball of up lane `i`, its P ball where `p`: in ID mode UP0_P shows the ready level between frames and the others float (R69), in
fast mode the configured lanes carry symbols and the others stand at static differential low (R86); frozen by a removal they all do,
UP0_P low in ID mode (R305); without the core rail they float (R416). -/
def State.upBall (s : State) (i : Nat) (p : Bool) : BallLevel :=
  let lane := s.link.fast && decide (i < widthLanes (s.rd Reg.LINK.STATE.UP_W))
  let still : BallLevel := if p then .low else .high
  let first := i == 0 && p
  match s.power.st with
  | .off => .float
  | .sleep => .float
  | .removed => .float
  | .removing => if s.link.fast then still else if first then .low else .float
  | .active =>
    match s.scanned (347 + 2 * i + (if p then 0 else 1)) with
    | some l => l
    | none =>
      if s.link.fast then (if lane then .logic else still)
      else if first then (if s.readyLevel then .high else .low) else .float

/-- Does the charger of VBAK run (R443): in ACTIVE and STILL only? -/
def State.charges (s : State) : Bool := s.power.st == .active

/-- Is the DET_N pull-up on (R67, R324): not in SLEEP and OFF? -/
def State.detPull (s : State) : Bool := s.power.st != .sleep && s.power.st != .off

/-- Is ALERT asserted, where its drivers drive at all: as the Crust latch holds it, and while the Crust holds no level, as the clocked
logic last wrote it since the release of its domain, quiet before that, and undriven in SLEEP (R97, R416, R446)? -/
def State.alertShown (s : State) : Option Bool :=
  if s.power.st == .off then none
  else if s.power.vbak then some s.alertLatch
  else if s.power.st == .sleep then none
  else some (s.esc.written != 0)

/-- The levels that the latch drives at ALERT_P and ALERT_N: the host's pull-downs hold undriven lines low (R97). -/
def State.alertPads (s : State) : Bool × Bool :=
  match s.alertShown with
  | some true => (false, true)
  | some false => (true, false)
  | none => (false, false)

/-- The levels at the balls ALERT_P and ALERT_N: under EXTEST, CLAMP and HIGHZ those of their output cells in place of the latch's (R451). -/
def State.alertBalls (s : State) : Bool × Bool :=
  ((s.scanned 355).elim s.alertPads.1 (fun l => l == .high), (s.scanned 356).elim s.alertPads.2 (fun l => l == .high))

/-- What is sensed at the pair (R381): the levels of a foreign driver that ALERT_READBACK has reported, or the balls'. -/
def State.alertSensed (s : State) : Bool × Bool := s.esc.pads.getD s.alertBalls

/-- What the card shows at a ball; its inputs float, and a supply or analog ball shows nothing. -/
def State.ballLevel (s : State) (f : BallFn) : Option BallLevel :=
  match f with
  | .detN => some (if s.detPull then .weakHigh else .float)
  | .clk _ => some .float
  | .dn _ _ => some .float
  | .up i p => some (s.upBall i p)
  | .alert p =>
    let l := if p then s.alertBalls.1 else s.alertBalls.2
    some (if s.alertShown.isNone then .float else if l then .high else .low)
  | .rstN => some .float
  | .testEn => some .float
  | .holdsw => some s.holdsw
  | f => match f.entry with
    | some e => some (s.channelBall (e / 21) (e % 21))
    | none => none

end Sys2Proof.Machine
end

