-- ==== Sys2Proof/Machine/Power.lean ====
section
/-!
DEFINITION. Supplies, start-up, resets and removal: the rows of power, reset and removal. A row whose event cannot
happen in the present state (an edge of a supply that is already there, a release of a reset that is not asserted)
leaves the state as it is.
-/
namespace Sys2Proof.Machine

/-- POWER_ON (R320, R361, R412): VCC rises past the power-on detector. -/
def execPowerOn (s : State) : Answer :=
  if s.power.st == .off then .next (s.powerOnStart (some 0) false false) else .next s

/-- RESET_RELEASE (R353, R365, R477): the domains release on HCLK edges and the option loader runs; TEST_EN is sampled
on the edge on which the HCLK domain releases. DESIGN CHOICE: log entry 40. -/
def execResetRelease (testEn : Bool) (s : State) : Answer :=
  if s.power.st == .active && s.power.startup == .held then .next (s.release testEn) else .next s

/-- POWER_UP_RECOVERY (R320, R335, R396, R421, R79). A main image that rejects its own probation has requested a core
reset (R402); recovery then waits for it. What a started image recovers is programmed once VHOLD_OK reads 1 (Table 12-7, R310). -/
def execPowerUpRecovery (env : RecoveryIn) (s : State) : Answer :=
  if s.power.st == .active && s.power.startup == .loaded && s.power.resetReq.isNone then
    let before := s
    let s := (s.identify env).bootSelect true env.unreadable
    if s.power.resetReq.isSome then s.done
    else if !s.minimal && !s.power.vholdOk then .next before
    else
      let s := s.recover env
      ({ s with power := { s.power with startup := .ready } }.presentReady).done
  else .next s

/-- DET_N_ARM (R68, R301): the first HCLK edge that samples DET_N low. -/
def execDetNArm (s : State) : Answer :=
  if s.clocked then ({ s with power := { s.power with armed := true } }.presentReady).done else .next s

/-- RST_N (R352): sensed while the core rail is up, ignored by the removal sequencer and while a reset of level P or S
is asserted already. -/
def execRstN (s : State) : Answer :=
  if s.clocked then .next (s.systemReset 2) else .next s

/-- LINK_SYSTEM_RESET (R351): the reset that RESET requested asserts once its COMPLETION has been acknowledged in fast
mode, or its response has been sent in ID mode. -/
def execLinkSystemReset (s : State) : Answer :=
  match s.power.resetReq with
  | some r =>
    let sent := match r.sender with
      | some q => (s.cmd? q).isNone && s.link.unacked.all (fun f => f.q != q)
      | none => true
    if s.clocked && r.system && sent then .next (s.systemReset r.source) else .next s
  | none => .next s

/-- CORE_RESET_HALT (R354): the edge after the drain has ended. -/
def execCoreResetHalt (s : State) : Answer :=
  match s.power.resetReq with
  | some r => if s.clocked && !r.system && s.drained then (s.coreHalt r.source).done else .next s
  | none => .next s

/-- CORE_RESET_RESTART (R354, R396, R397, R401, R402): after 16 CCLK the firmware core restarts and the card presents
ready again. An image that starts on a card that has not recovered yet runs recovery in full first (R322); one that starts on a
recovered card loads the settings again. -/
def execCoreResetRestart (env : RecoveryIn) (s : State) : Answer :=
  if s.clocked && s.power.startup == .halted && s.power.resetReq.isNone then
    let before := s
    let s := s.bootSelect false env.unreadable
    if s.power.resetReq.isSome then s.done
    else if !s.power.recovered && !s.minimal && !s.power.vholdOk then .next before
    else
      let s := if !s.power.recovered then s.recover env else if s.minimal then s else s.loadSettings
      let s := { s with power := { s.power with startup := .ready } }
      (s.raise Evt.RESET.CORE_RESTARTED).presentReady.done
  else .next s

/-! Removal. -/

/-- REMOVAL_TRIGGER (R301–R306): a qualified trigger freezes the card and resets the dies at work. -/
def execRemovalTrigger (detN brownOut : Bool) (s : State) : Answer :=
  let det := detN && s.power.armed
  let brown := brownOut && s.power.brownArmed
  if s.power.st == .active && (det || brown) then
    let channels := sumBy (fun n => if s.opRunning n then 2 ^ n else 0) (rangeFrom 0 16)
    let r : Removal := { detN := det, brownOut := brown, channels := channels,
                         writes := s.cmds.any (fun c => c.opcode == opWrite), programs := s.programRunning }
    let s := s.cellBit 16 8 true
    .next { s with power := { s.power with st := .removing, removal := some r } }
  else .next s

/-- The phase code of R308, in the layout of LAST_PHASE (Table 12-10). -/
def phaseCode (r : Removal) (rbTimeout : Bool) : Nat :=
  bit01 r.detN + 2 * bit01 r.brownOut + 4 * bit01 rbTimeout + 8 * bit01 r.writes + 16 * bit01 r.programs

/-- The record of step 6 (R308): the removal count, the source count cell, the two phase code cells, the removal
state cell. -/
def State.recordRemoval (s : State) (r : Removal) (rbTimeout : Bool) : State :=
  let s := s.increment48 removalCells
  let c := s.cell 15
  let s := s.setCell 15 (satAdd (c % 256) (bit01 r.detN) 255 + 256 * satAdd (c / 256) (bit01 r.brownOut) 255)
  let s := (s.setCell 17 (phaseCode r rbTimeout)).setCell 18 r.channels
  let c := s.cell 16 ||| 0x200
  s.setCell 16 (if rbTimeout then clearBits c 0x7C00 ||| (satAdd (bitsOf c 10 5) 1 31 <<< 10) else c)

/-- REMOVAL_RB_WAIT_END (R306–R309): step 3 ends, by RB_N or by its window, and steps 4 to 9 follow. -/
def execRemovalRbWaitEnd (rbHigh : Bool) (s : State) : Answer :=
  match s.power.st, s.power.removal with
  | .removing, some r =>
    let s := s.recordRemoval r (!rbHigh)
    .next { s with power := { s.power with st := .removed, removal := none } }
  | _, _ => .next s

/-- REMOVAL_RESTART (R324): VCC and DET_N have held steady, and the card starts as at power-on. -/
def execRemovalRestart (s : State) : Answer :=
  if s.power.st == .removed then .next (s.powerOnStart (some 1) false false) else .next s

/-! Supplies. -/

/-- HOLD_DROOP (R310): VHOLD_OK falls; the fault is one while HCLK runs and no trigger is present. -/
def execHoldDroop (s : State) : Answer :=
  let fell := s.power.vholdOk
  let s := { s with power := { s.power with vholdOk := false } }
  if s.clocked && fell then (s.report Src.REMOVAL.HOLD_DROOP).done else .next s

/-- VHOLD_OK (R310): the comparator rises to 1. -/
def execVholdOk (s : State) : Answer :=
  if s.power.st == .active then .next { s with power := { s.power with vholdOk := true } } else .next s

/-- VCC_LOSS (R412): any state to OFF. The frozen or cut work is what recovery finds. -/
def execVccLoss (s : State) : Answer :=
  if s.power.st == .off then .next s
  else
    let s := s.cutFuse
    .next { s with power := { s.power with st := .off, armed := false, brownArmed := false, vholdOk := false,
                                           removal := none } }

/-- VBAK_LOSS (R139, R416, R418, R444, R446): VBAK falls below the detector's level. The Crust loses its cells and the Card address
in them, performs no cell write and latches no wake cause from here. DESIGN CHOICE: log entry 12. -/
def execVbakLoss (s : State) : Answer := .next { s with power := { s.power with vbak := false }, crust := [] }

/-- CRUST_POWER_ON (R319, R420, R444): VBAK rises past the detector: the cells are cleared, CRUST_LOST is set and
CRUST_RESTART latched; a sleeping card asserts ALERT and starts a wake that
restores nothing (R422). -/
def execCrustPowerOn (s : State) : Answer :=
  if s.power.vbak then .next s
  else
    let s := { s with power := { s.power with vbak := true }, crust := [(16, 0x8000)] }
    let s := s.latchWake 4
    if s.power.st == .sleep then .next ((s.writeAlert 4).powerOnStart none true true)
    else .next (if s.clocked then s.writeAlert s.alertAsserting else s)

/-! Block reset, isolation and enable (R48–R50). -/

/-- Do writes to BLOCK_CTRL of a page start a soft reset? On the SLICE page SOFT_RST is the Slice's reset (R56), a row
of its own. -/
def softResets (page : Nat) : Bool := page != 6 && (pageClass page == .engine || pageClass page == .counters)

/-- What the closing of a block's wrapper does: the DMA's holds every descriptor (R217); map fetches that it cuts off are taken back and
asked for again (R272), upkeep steps and verification reads are taken again from their start (R273, R299), the transfers of a channel end
and their steps are presented again (R347), and codewords leave the soft decoders for their FIFO copies (R348). -/
def State.closeWrapper (s : State) (page : Nat) : State :=
  if page = 0x08 then
    { s with descs := s.descs.map (fun (d : Desc) =>
        if d.st == .held || d.st == .ending then d else { d with before := d.st, st := .held }) }
  else if page = 0x0C then
    s.onFlash (fun fl => { fl with dies := fl.dies.map (fun (x : Die) =>
      x.withdraw (fun r => r.work.mapPage?.isSome) (fun _ => false)) })
  else if page = 0x0D then s.cutSteps (fun r => r.work == .forced || (r.work == .other && r.who != 65))
  else if page = 0x0E then s.cutSteps (fun r => r.work == .other && r.who == 65)
  else if page = 0x20 then
    s.onFlash (fun fl => { fl with words := fl.words.map (fun (w : Codeword) => { w with decoder := none }) })
  else if 0x10 ≤ page ∧ page ≤ 0x1F then
    ((s.chanDies (page - 0x10)).map (fun x => x.id)).foldl (fun (s : State) d => s.cutOff d) s
  else s

/-- What the opening does: held descriptors resume, parked or active as their page is resident (R214, R217). -/
def State.openWrapper (s : State) (page : Nat) : State :=
  if page = 0x08 then
    { s with descs := s.descs.map (fun (d : Desc) => if d.st == .held then { d with st := d.before } else d) }
  else s

/-- The first two steps of R49: the wrapper closes, fields of letter B are cleared, RESET_ACTIVE reads 1; a channel's
soft reset asks for reconfiguration (R338). -/
def State.softReset (s : State) (page : Nat) : State :=
  if !softResets page || s.chanAbsent page || s.bit (resetActive page 0) then s
  else
    let s := s.closeWrapper page
    let s := { s with regs := regClear s.regs (clearedByPage page) }
    let s := if page = 0x0A then { s with flash := { s.flash with arb := [] } } else s
    let s := if 0x10 ≤ page ∧ page ≤ 0x1F then
        { s with flash := { s.flash with
            chans := mapIf (fun c => c.id == page - 0x10) (fun c => { c with reconf := true }) s.flash.chans } }
      else s
    s.wr (resetActive page 0) 1

/-- The last step of R49: the wrapper opens unless ISOLATE is 1, RESET_ACTIVE falls, held register commands are
served. On a channel's page it waits until every die of the channel is idle (Table 14-6). -/
def State.softResetEnd (s : State) (page : Nat) : State :=
  if s.bit (resetActive page 0) && (page < 0x10 || 0x1F < page || s.channelIdle (page - 0x10)) then
    let s := s.wr (resetActive page 0) 0
    if s.bit (isolateBit page 0) then s.wr (isolatedBit page 0) 1 else s.openWrapper page
  else s

/-- A write of ISOLATE on a page of class E (R50). -/
def State.isolate (s : State) (page : Nat) (on : Bool) : State :=
  if pageClass page != .engine || s.chanAbsent page then s
  else
    let s := s.wr (isolateBit page 0) (bit01 on)
    let s := s.wr (isolatedBit page 0) (bit01 on)
    if on then s.closeWrapper page else if s.bit (resetActive page 0) then s else s.openWrapper page

/-- A write of ENABLE on a page of class E (R50). -/
def State.enable (s : State) (page : Nat) (on : Bool) : State :=
  if pageClass page != .engine || s.chanAbsent page then s else s.wr (enableBit page 0) (bit01 on)

/-- A write of a header register writes its parity bit anew (R47). -/
def State.freshParity (s : State) (page bank index : Nat) : State :=
  { s with esc := { s.esc with hdrBad := s.esc.hdrBad.filter (fun e => e != (page, bank, index)) } }

/-- BLOCK_SOFT_RESET (R49, R56). -/
def execBlockSoftReset (page : Nat) (s : State) : Answer :=
  if s.clocked then ((s.softReset page).freshParity page 0 1).done else .next s

/-- BLOCK_SOFT_RESET_END (R49, R359, R62). -/
def execBlockSoftResetEnd (page : Nat) (s : State) : Answer :=
  if s.clocked then (s.softResetEnd page).done else .next s

/-- BLOCK_ISOLATE (R50, R217). -/
def execBlockIsolate (page : Nat) (on : Bool) (s : State) : Answer :=
  if s.clocked then ((s.isolate page on).freshParity page 0 1).done else .next s

/-- BLOCK_ENABLE (R50). -/
def execBlockEnable (page : Nat) (on : Bool) (s : State) : Answer :=
  if s.clocked then ((s.enable page on).freshParity page 0 1).done else .next s

end Sys2Proof.Machine
end

