-- ==== Sys2Proof/Machine/HeaderWrite.lean ====
section
/-!
DEFINITION. Writes to the common page header (R44–R51, R63) and what they post and escalate (R46, R371).
-/
namespace Sys2Proof.Machine

/-- Bits that went from 0 to 1. -/
def rose (before after : Nat) : Nat := clearBits after before

/-- Attention for enables that a landed REGWRITE changed from 0 to 1 while the sticky bit reads 1, judged on the values
that the write left (R46, R371): `s0` before the write, `s` after it. -/
def State.postEnables (s0 s : State) (page bank : Nat) : State :=
  let b := bankOf page bank
  let fe := rose (s0.rd (faultEnable page b)) (s.rd (faultEnable page b))
  let ae := rose (s0.rd (attnEnable page b)) (s.rd (attnEnable page b))
  let s := (rangeFrom 0 16).foldl (fun s i =>
    if bitAt fe i && bitAt (s.rd (faultSticky page b)) i && bitsOf (s.rd (faultAction page b)) (2 * i) 2 == 1
    then s.post (s.stickyEntry .fault page b i) else s) s
  (rangeFrom 0 32).foldl (fun s i =>
    if bitAt ae i && bitAt (s.rd (attnSticky page b)) i then s.post (s.stickyEntry .event page b i) else s) s

/-- A W1C of a watermark's WM_CROSS bit clears its crossing count (R209); a crossing on the same edge leaves it at 1 (R63). -/
def State.clearCrossings (s : State) (w : Watermark) (met : Bool) : State :=
  s.wr w.crossings (if met then min 1 (s.rd w.crossings) else 0)

/-- A write of FAULT_STICKY (index 3), FAULT_ENABLE (4), FAULT_ACTION (5), ATTN_STICKY (6) or ATTN_ENABLE (7). `met` are the sticky
bits that the hardware sets on the same edge: the clear leaves them at 1 (R63). The row of that event has set the bit, and posted
attention where it was 0 before. DESIGN CHOICE: log entry 56. -/
def State.writeHeader (s : State) (page bank index value met : Nat) : State :=
  let b := bankOf page bank
  let s := s.freshParity page b index
  if index = 3 then s.wr (faultSticky page b) (clearBits (s.rd (faultSticky page b)) (clearBits value met))
  else if index = 4 then s.wr (faultEnable page b) value
  else if index = 5 then s.wr (faultAction page b) value
  else if index = 6 then
    let s := s.wr (attnSticky page b) (clearBits (s.rd (attnSticky page b)) (clearBits value met))
    if page = 7 ∨ page = 8 then
      let ring := if page = 7 then b else 64
      let s := if bitAt value 0 then s.clearCrossings (sqMark ring) (bitAt met 0) else s
      if bitAt value 1 then s.clearCrossings (aqMark ring) (bitAt met 1) else s
    else s
  else if index = 7 then s.wr (attnEnable page b) value
  else s

/-- A write of one header register as a landed REGWRITE of its own. -/
def State.landHeader (s : State) (page bank index value met : Nat) : State :=
  if s.reaches page bank then State.postEnables s (s.writeHeader page bank index value met) page bank else s

/-- ENABLE_WRITE (R46, R371): a write of FAULT_ENABLE, FAULT_ACTION or ATTN_ENABLE. -/
def execEnableWrite (page bank index value : Nat) (s : State) : Answer :=
  if s.clocked && (index == 4 || index == 5 || index == 7) then (s.landHeader page bank index value 0).done else .next s

/-- FAULT_HANDLING (R371, R372, R63): the W1C of a sticky bit, or a write of EN 0 or of a milder action; `met` are the sources that
err on the same edge. -/
def execFaultHandling (page bank index value met : Nat) (s : State) : Answer :=
  if s.clocked && (index == 3 || index == 4 || index == 5) then (s.landHeader page bank index value met).done else .next s

/-- WM_CROSS_CLEAR (R209, R63): `mask` bit 0 clears WM_CROSS_SQ, bit 1 WM_CROSS_AQ, each with its count; `met` are
those that a crossing on the same edge has set: the bit stays 1 and the count is 1. -/
def execWmCrossClear (ring mask met : Nat) (s : State) : Answer :=
  if s.clocked then
    (if ring < 64 then s.landHeader 7 ring 6 (mask % 4) met else s.landHeader 8 0 6 (mask % 4) met).done
  else .next s

end Sys2Proof.Machine
end

