-- ==== Sys2Proof/Machine/FaultRows.lean ====
section
/-!
DEFINITION. Faults, escalation, injection and the ALERT pair: the rows of chapter 15.
-/
namespace Sys2Proof.Machine

/-- Is `bit` an assigned source of the page (Table 15-1)? -/
def assignedSource (page bit : Nat) : Bool := decide (bit < 16) && bitAt (Reg.faultMask page) bit

/-- Is a map page dirty in the cache (R246)? -/
def State.mapDirty (s : State) (i idx : Nat) : Bool :=
  s.flash.map.cache.any (fun p => p.slice == i && p.idx == idx && p.dirty)

/-- An uncorrectable error in a cached map page (R249): the cache gives it up; a dirty one stands as failed until the next
power-on or system reset. -/
def State.mapError (s : State) (i idx : Nat) : State :=
  let bad := s.mapDirty i idx
  s.onMap (fun m => { m with
    cache := m.cache.filter (fun p => !(p.slice == i && p.idx == idx))
    failed := if bad then m.failed ++ [(i, idx)] else m.failed })

/-- An uncorrectable error in the parity buffer of a stripe discards the buffer (R280). -/
def State.bufferError (s : State) (i t : Nat) : State :=
  s.onFlash (fun fl => { fl with
    versions := mapIf (fun v => v.sb == i && v.stripe == t) (fun v => { v with cached := false }) fl.versions })

/-- What an error spoils where it is found: a cached map page, a parity buffer, a scratch word, which then reads 0 (R249, R280,
R386). DEDUCED: log entry 51. -/
def State.errorAt (s : State) (page bit : Nat) : Option (Nat × Nat) → State
  | none => s
  | some (a, b) =>
    if page = 0x0C ∧ bit = 0 then s.mapError a b
    else if page = 0x0E ∧ bit = 0 then s.bufferError a b
    else if page = 0x27 ∧ bit = 0 ∧ a < 8 then s.wr (Reg.DEBUG.SCRATCH.DATA.plus a) 0
    else s

/-- Does the error take the card to the Safe state whatever its enable and action hold: MAP_ECC in a dirty page (R249)? -/
def State.errorForced (s : State) (page bit : Nat) (place : Option (Nat × Nat)) : Bool :=
  decide (page = 0x0C ∧ bit = 0) && place.any (fun p => s.mapDirty p.1 p.2)

/-- FAULT_SOURCE_ERROR (R370, R371): a source errs. `place` says where: the map page (Slice, index) of MAP_ECC, the stripe
(superblock, stripe) of PARITY_BUF_ECC, the scratch word of SCRATCH_PARITY. -/
def execFaultSourceError (page bank bit : Nat) (place : Option (Nat × Nat)) (s : State) : Answer :=
  if s.clocked && assignedSource page bit && s.reaches page bank then
    ((s.report (page, bit) bank (s.errorForced page bit place)).errorAt page bit place).done
  else .next s

/-- GRACE_EXPIRY (R372): the CCLK edge on which COUNT reaches FAULT_GRACE while an escalation is pending. -/
def execGraceExpiry (s : State) : Answer :=
  if s.clocked && s.escPending then
    { s with esc := { s.esc with count := max s.esc.count (s.rd Reg.ESCALATE.FAULT_GRACE.CCLK) } }.done
  else .next s

/-- HDR_PARITY (R47): the mismatch stands until the register is written again. -/
def execHdrParity (page bank index : Nat) (s : State) : Answer :=
  if s.clocked && decide (page ≤ 0x28) && !s.chanAbsent page && (index == 1 || index == 4 || index == 5 || index == 7) then
    let x := (page, bankOf page bank, index)
    { s with esc := { s.esc with hdrBad := if s.esc.hdrBad.contains x then s.esc.hdrBad else x :: s.esc.hdrBad } }.done
  else .next s

/-- STAGE_ECC (R219, Table 8-4): the Safe state on the edge of detection; then a READ or VERIFY ends UNCORRECTABLE at
OFFSET, a WRITE or FW_STAGE SAFE_STATE. -/
def execStageEcc (q : Nat) (s : State) : Answer :=
  if s.clocked then
    let s := s.report Src.DMA.STAGE_ECC
    match s.cmd? q, s.desc? q with
    | some c, some d =>
      if c.opcode = opRead ∨ c.opcode = opVerify then (s.endCmd q stUncorrectable d.offset).done
      else (s.endCmd q stSafeState).done
    | _, _ => s.done
  else .next s

/-- ALERT_READBACK (R381): the pads have read these levels for 4,096 consecutive CCLK edges. -/
def execAlertReadback (padP padN : Bool) (s : State) : Answer :=
  if s.clocked then
    if (padP, padN) == s.alertPads then .next { s with esc := { s.esc with pads := none, readback := 0 } }
    else
      let s := { s with esc := { s.esc with pads := some (padP, padN), readback := 4096 } }
      (s.report Src.ESCALATE.ALERT_READBACK).done
  else .next s

/-- FAULT_GRACE_WRITE (R373): governs from the next edge; COUNT is not restarted. -/
def execFaultGraceWrite (value : Nat) (s : State) : Answer :=
  if s.clocked then (s.wr Reg.ESCALATE.FAULT_GRACE.CCLK value).done else .next s

/-- ALERT_CONTROL_WRITE (R379, R380): the mask bits ignore writes under the faults-only restriction. -/
def execAlertControlWrite (mask : Nat) (force : Bool) (s : State) : Answer :=
  if s.clocked then
    let s := if s.faultsOnly then s else s.wr Reg.ESCALATE.ALERT_MASK.MASK mask
    (s.wr Reg.ESCALATE.ALERT_CTRL.FORCE (bit01 force)).done
  else .next s

/-- Does PAGE and BIT name a source that can be injected (R383)? -/
def injectable (page bit : Nat) : Bool :=
  decide (1 ≤ page ∧ page ≤ 0x27) && (assignedSource page bit || bit == 31)

/-- The injection of R383 and R384: the source reports as its detector would, or the parity of BLOCK_CTRL is
inverted. -/
def State.inject (s : State) (page bank bit : Nat) : State :=
  if !injectable page bit || s.chanAbsent page then s
  else if bit = 31 then
    let x := (page, bankOf page bank, 1)
    { s with esc := { s.esc with hdrBad := if s.esc.hdrBad.contains x then s.esc.hdrBad.erase x else x :: s.esc.hdrBad } }
  else s.report (page, bit) bank

/-- INJECT (R383, R384): in factory test mode only; a PAGE and BIT that name no source are rejected with nothing written. -/
def execInject (page bank bit : Nat) (s : State) : Answer :=
  if s.clocked && s.ftm && injectable page bit then
    let s := (s.wr Reg.TEST.INJECT.PAGE page).wr Reg.TEST.INJECT.BANK bank
    ((s.wr Reg.TEST.INJECT.BIT bit).inject page (bank % 64) bit).done
  else .next s

/-- WAKE_FORCE (Table 17-4). -/
def execWakeForce (s : State) : Answer := if s.clocked then (s.latchWake 3).done else .next s

/-- WAKE_CAUSE_CLEAR (R418, R63): the Administrator's W1C of `POWER.WAKE.CAUSES`; `met` are the causes that arose on the same
edge, which stay. -/
def execWakeCauseClear (mask met : Nat) (s : State) : Answer :=
  if s.clocked then (s.clearWake (clearBits mask met)).done else .next s

/-- CRUST_LOST_CLEAR (R319, R325): a Crust cell write. -/
def execCrustLostClear (s : State) : Answer := if s.clocked then (s.cellBit 16 15 false).done else .next s

end Sys2Proof.Machine
end

