-- ==== Sys2Proof/Machine/Provision.lean ====
section
/-!
DEFINITION. The option store's registers (R366), fuse programming (R479), the grant watchdog's stop (R478) and the test
access port (R449–R452).
-/
namespace Sys2Proof.Machine

/-! The option store. -/

/-- STAGE.LOAD (R366): the copy in force, or the defaults, into the staging buffer. -/
def State.stageLoad (s : State) : State := { s with opt := { s.opt with staging := s.opt.inForce } }

/-- May the staged copy be committed (R366)? -/
def State.commitAccepted (s : State) : Bool :=
  copyValid s.opt.staging && reservedClear s.opt.staging &&
    copySeq s.opt.staging == s.rd Reg.OPTION.SEQ_IN_FORCE.SEQ + 1

/-- COMMIT.GO (R366): REJECTED, or the staged copy is being written over the copy that is not in force. DEDUCED: log entry 22. -/
def State.commitGo (s : State) : State :=
  if s.opt.commit.isSome then s
  else if s.commitAccepted then
    let toB := s.rd Reg.OPTION.IN_FORCE.COPY == 0
    let o := if toB then { s.opt with copyB := [] } else { s.opt with copyA := [] }
    let s := (s.wr Reg.OPTION.COMMIT.RESULT 0).wr Reg.OPTION.OTHER.VALID 0
    { s with opt := { o with commit := some (toB, s.opt.staging) } }
  else (s.wr Reg.OPTION.COMMIT.RESULT 2).raise Evt.OPTION.COMMIT_DONE

/-- The memory's write ends and the copy is read back (R366). -/
def State.commitDone (s : State) (good : Bool) : State :=
  match s.opt.commit with
  | none => s
  | some (toB, m) =>
    let o := if good then (if toB then { s.opt with copyB := m } else { s.opt with copyA := m })
      else s.opt
    let s := { s with opt := { o with commit := none } }
    let s := s.wr Reg.OPTION.OTHER.VALID (bit01 good)
    (s.wr Reg.OPTION.COMMIT.RESULT (if good then 1 else 3)).raise Evt.OPTION.COMMIT_DONE

/-- OPTION_STAGE_LOAD (R366). -/
def execOptionStageLoad (s : State) : Answer := if s.clocked then s.stageLoad.done else .next s

/-- OPTION_COMMIT (R366). -/
def execOptionCommit (s : State) : Answer := if s.clocked then s.commitGo.done else .next s

/-- OPTION_COMMIT_DONE (R366, R469). `good`: the read-back equals the staged copy. -/
def execOptionCommitDone (good : Bool) (s : State) : Answer :=
  if s.clocked then (s.commitDone good).done else .next s

/-! Fuses (R479, R480). -/

/-- Is a target in the state that Table 21-1 requires? -/
def State.fuseReady (s : State) (t : FuseTarget) : Bool :=
  match t with
  | .entry e c => storeRead s.fuses.map e == 0 && c != 0
  | .seal => !s.fuses.sealBlown
  | .key k _ => match s.fuses.keys[k]? with
    | some ks => !ks.programmed
    | none => false
  | .revoke k => match s.fuses.keys[k]? with
    | some ks => ks.programmed && !ks.revoked
    | none => false

/-- The 1 bits of a number. -/
def popcount (x : Nat) : Nat := count (bitAt x) (rangeFrom 0 256)

/-- Fuse bits that a target blows (Table 21-1). -/
def FuseTarget.bits : FuseTarget → Nat
  | .entry _ c => popcount c
  | .seal => 1
  | .key _ d => popcount d + 1
  | .revoke _ => 1

/-- Does the target belong to FUSE_PROG? -/
def FuseTarget.fuseProg : FuseTarget → Bool
  | .entry _ _ => true
  | .seal => true
  | .key _ _ => false
  | .revoke _ => false

/-- RESULT of the target's register. -/
def FuseTarget.result (t : FuseTarget) : Field :=
  if t.fuseProg then Reg.TEST.FUSE_PROG.RESULT else Reg.TEST.KEY_PROG.RESULT

/-- A write of GO (R479): REJECTED with nothing programmed, or the pulses begin, 256 HC for each bit. `both`: GO landed
in both registers on the same edge. A GO to a register whose own operation runs has no effect. -/
def State.fuseGo (s : State) (t : FuseTarget) (confirm : Nat) (both : Bool) : State :=
  let own := match s.fuses.busy with
    | some b => b.fuseProg == t.fuseProg
    | none => false
  if own then s
  else if !s.ftm || s.link.fast || confirm != 0x5A || s.fuses.busy.isSome || both || !s.fuseReady t then
    s.wr t.result 2
  else
    { (s.wr t.result 0) with fuses := { s.fuses with busy := some t, pulse := 256 * t.bits } }

/-- The sense after the last pulse: DONE when every bit reads as programmed, VERIFY_FAIL otherwise. -/
def State.fuseDone (s : State) (good : Bool) : State :=
  match s.fuses.busy with
  | none => s
  | some t =>
    let took := if good then ones 257 else Config.cutPulse s.draws
    let s := { s with fuses := { s.fuses.blow t took with busy := none, pulse := 0 }
                      draws := if good then s.draws else s.draws + 1 }
    s.wr t.result (if good then 1 else 3)

/-- The digest in KEY_DIGEST_0–7. -/
def State.keyDigest (s : State) : Nat :=
  sumBy (fun k => s.rd (Reg.TEST.KEY_DIGEST.DATA.plus k) * 2 ^ (32 * k)) (rangeFrom 0 8)

/-- FUSE_PROGRAM: FUSE_PROG with GO and SEAL 0 (R479). -/
def execFuseProgram (entry code confirm : Nat) (s : State) : Answer :=
  if s.clocked && s.ftm && decide (entry ≤ 359) then
    let s := (s.wr Reg.TEST.FUSE_PROG.ENTRY entry).wr Reg.TEST.FUSE_PROG.CODE code
    let s := (s.wr Reg.TEST.FUSE_PROG.SEAL 0).wr Reg.TEST.FUSE_PROG.CONFIRM confirm
    (s.fuseGo (.entry entry (code % 8)) (confirm % 256) false).done
  else .next s

/-- TEST_SEAL: FUSE_PROG with GO and SEAL 1 (R479). -/
def execTestSeal (confirm : Nat) (s : State) : Answer :=
  if s.clocked && s.ftm then
    let s := (s.wr Reg.TEST.FUSE_PROG.SEAL 1).wr Reg.TEST.FUSE_PROG.CONFIRM confirm
    (s.fuseGo .seal (confirm % 256) false).done
  else .next s

/-- The fields that a write of KEY_PROG lands beside GO. -/
def State.keyFields (s : State) (slot revoke confirm : Nat) : State :=
  ((s.wr Reg.TEST.KEY_PROG.SLOT slot).wr Reg.TEST.KEY_PROG.REVOKE revoke).wr Reg.TEST.KEY_PROG.CONFIRM confirm

/-- KEY_PROGRAM: KEY_PROG with GO and REVOKE 0 (R479). -/
def execKeyProgram (slot confirm : Nat) (s : State) : Answer :=
  if s.clocked && s.ftm then ((s.keyFields slot 0 confirm).fuseGo (.key (slot % 4) s.keyDigest) (confirm % 256) false).done
  else .next s

/-- KEY_REVOKE: KEY_PROG with GO and REVOKE 1 (R479). -/
def execKeyRevoke (slot confirm : Nat) (s : State) : Answer :=
  if s.clocked && s.ftm then ((s.keyFields slot 1 confirm).fuseGo (.revoke (slot % 4)) (confirm % 256) false).done
  else .next s

/-- FUSE_PROGRAM_DONE (R479): once the last pulse has ended. -/
def execFuseProgramDone (good : Bool) (s : State) : Answer :=
  if s.clocked then (s.fuseDone good).done else .next s

/-- WD_STOP (R478, R485). -/
def execWdStop (on : Bool) (s : State) : Answer :=
  if s.clocked && s.ftm then (s.wr Reg.TEST.WD_CTRL.STOP (bit01 on)).done else .next s

/-! The test access port. -/

/-- Is the port powered: VSYS and VCORE present (R449)? -/
def State.tapPowered (s : State) : Bool := s.power.st == .active || s.power.st == .removing

/-- Put an instruction in force; EXTEST, HIGHZ and CLAMP act as BYPASS outside factory test mode (Table 18-11). -/
def State.tapSelect (s : State) (i : TapInstr) (captured : Nat) : State :=
  let controls := i == .extest || i == .highz || i == .clamp
  if !s.tapPowered then s
  else if controls && !s.ftm then { s with tap := { s.tap with instr := .bypass, captured := 0 } }
  else { s with tap := { s.tap with instr := i, captured := captured } }

/-- IDCODE (R450). -/
def State.idCode (s : State) : Nat := (s.fuses.step % 16) <<< 28 ||| s.fuses.part <<< 12 ||| 0x6E5 <<< 1 ||| 1

/-- EXTEST (R449, R451): the balls follow the boundary register. -/
def execExtest (s : State) : Answer := .next (s.tapSelect .extest s.tap.boundary)

/-- The cells of the balls of present channels and of the other balls (R451). -/
def State.presentCells (s : State) : Nat :=
  sumBy (fun e => if s.entryAbsent e then 0 else 7 * 2 ^ (3 * e)) (rangeFrom 0 360)

/-- SAMPLE/PRELOAD (R449, R451): the 1,080 cells are captured, those of absent channels as 0, and the boundary register is loaded. -/
def execSamplePreload (levels : Nat) (s : State) : Answer :=
  if s.tapPowered then
    .next { s with tap := { instr := .sample, boundary := levels % 2 ^ 1080, captured := (levels % 2 ^ 1080) &&& s.presentCells } }
  else .next s

/-- IDCODE (R449, R450). -/
def execIdcode (s : State) : Answer := .next (s.tapSelect .idcode s.idCode)

/-- HIGHZ (R449, R451). -/
def execHighz (s : State) : Answer := .next (s.tapSelect .highz 0)

/-- CLAMP (R449, R451). -/
def execClamp (s : State) : Answer := .next (s.tapSelect .clamp 0)

/-- BYPASS (R449): the one-bit register. -/
def execBypass (s : State) : Answer := .next (s.tapSelect .bypass 0)

/-- TRST_N (R449): Test-Logic-Reset selects IDCODE. -/
def execTrstN (s : State) : Answer :=
  if s.tapPowered then .next { s with tap := { s.tap with instr := .idcode, captured := s.idCode } } else .next s

end Sys2Proof.Machine
end

