-- ==== Sys2Proof/Machine/Aes.lean ====
section
/-!
DEFINITION. What an encrypted Slice keeps on flash and in the settings store (R173): AES-256 (FIPS 197) from its field arithmetic,
XTS over one sector (IEEE 1619) and the key wrap (RFC 3394), and the tag of a codeword (R341, R344).
-/
namespace Sys2Proof.Machine

/-! The field of 256 elements and the cipher. A block is a list of 16 bytes, column by column. -/

/-- Multiply by x modulo x^8 + x^4 + x^3 + x + 1. -/
def timesX (a : Nat) : Nat := if a < 128 then 2 * a else (2 * a) ^^^ 0x11B

/-- The product of two field elements, by the bits of the second from the lowest. -/
def fieldMul : Nat → Nat → Nat → Nat
  | 0, _, _ => 0
  | n + 1, a, b => (if b % 2 = 1 then a else 0) ^^^ fieldMul n (timesX a) (b / 2)

/-- The inverse, as the power 254: seven factors, each the square of the one before. 0 goes to 0. -/
def fieldInv (a : Nat) : Nat :=
  let sq (x : Nat) : Nat := fieldMul 8 x x
  ((rangeFrom 0 6).foldl (fun (e : Nat × Nat) _ => (sq e.1, fieldMul 8 e.2 (sq e.1))) (sq a, sq a)).2

/-- A byte turned left by `n`. -/
def turnLeft (n b : Nat) : Nat := (b * 2 ^ n) % 256 + b / 2 ^ (8 - n)

/-- The byte substitution: the inverse, then the affine map. -/
def subByte (b : Nat) : Nat :=
  let i := fieldInv b
  (rangeFrom 0 5).foldl (fun x n => x ^^^ turnLeft n i) 0x63

/-- Bytes added without carry. -/
def addBytes (a b : List Nat) : List Nat := List.zipWith (fun x y => x ^^^ y) a b

/-- Row `r` of each column moves `r` columns on. -/
def shiftRows (b : List Nat) : List Nat := (rangeFrom 0 16).map (fun i => b.getD ((i + 4 * (i % 4)) % 16) 0)

/-- Each column times 2, 3, 1, 1 turned from row to row. -/
def mixColumns (b : List Nat) : List Nat :=
  (rangeFrom 0 16).map (fun i =>
    let at_ (k : Nat) : Nat := b.getD (i - i % 4 + (i + k) % 4) 0
    timesX (at_ 0) ^^^ timesX (at_ 1) ^^^ at_ 1 ^^^ at_ 2 ^^^ at_ 3)

/-- The next words of the key schedule of a 256-bit key, newest first: word `i` mixes the word before it and the eighth before it. -/
def keyWords : Nat → Nat → Nat → List (List Nat) → List (List Nat)
  | 0, _, _, w => w
  | n + 1, i, rcon, w =>
    let last := w.headD []
    let mixed : List Nat :=
      if i % 8 = 0 then addBytes ((last.drop 1 ++ last.take 1).map subByte) [rcon, 0, 0, 0]
      else if i % 8 = 4 then last.map subByte
      else last
    keyWords n (i + 1) (if i % 8 = 0 then timesX rcon else rcon) (addBytes (w.getD 7 []) mixed :: w)

/-- The fifteen round keys of a 32-byte key. -/
def roundKeys (key : List Nat) : List (List Nat) :=
  let first := ((rangeFrom 0 8).map (fun i => (key.drop (4 * i)).take 4)).reverse
  let all := (keyWords 52 8 1 first).reverse
  (rangeFrom 0 15).map (fun r => ((all.drop (4 * r)).take 4).flatten)

/-- One block under round keys: all rounds mix but the last. -/
def cipherRounds : List (List Nat) → List Nat → List Nat
  | [], b => b
  | [k], b => addBytes (shiftRows (b.map subByte)) k
  | k :: l, b => cipherRounds l (addBytes (mixColumns (shiftRows (b.map subByte))) k)

/-- AES-256 of one block. -/
def aes256 (keys : List (List Nat)) (b : List Nat) : List Nat :=
  match keys with
  | [] => b
  | k :: l => cipherRounds l (addBytes b k)

/-! XTS (R173): the data unit is one sector, the tweak the slice LBA. -/

/-- The blocks of a sector under the tweak of each, which the field of 2^128 elements doubles from block to block. -/
def xtsBlocks (keys : List (List Nat)) : Nat → Nat → Nat → List Nat
  | 0, _, _ => []
  | n + 1, tweak, data =>
    let t := bytesLE 16 tweak
    let next := if tweak < 2 ^ 127 then 2 * tweak else (2 * tweak - 2 ^ 128) ^^^ 0x87
    addBytes (aes256 keys (addBytes (bytesLE 16 data) t)) t ++ xtsBlocks keys n next (data / 2 ^ 128)

/-- A sector under a 512-bit key: the first half ciphers the blocks, the second the tweak. -/
def xtsSector (key : BitVec 512) (lba : Nat) (data : Nat) : List Nat :=
  let k := bytesLE 64 key.toNat
  let tweak := ofBytesLE (aes256 (roundKeys (k.drop 32)) (bytesLE 16 lba))
  xtsBlocks (roundKeys (k.take 32)) 256 tweak data

/-- The key of number `n`: the first of its draws whose halves differ (R173). DESIGN CHOICE: log entry 5. -/
def xtsKeyOf (n : Nat) : BitVec 512 :=
  (((rangeFrom 0 64).map (Config.xtsDraw n)).find? (fun k => k.toNat / 2 ^ 256 != k.toNat % 2 ^ 256)).getD 1

/-- The payload that a slot holds on flash: the sector, or its ciphertext where it is stored under a key (Table 13-7). -/
def Slot.payload (y : Slot) : List Nat := if y.key = 0 then bytesLE 4096 y.data.toNat else xtsSector (xtsKeyOf y.key) y.lba y.data.toNat

/-- The tag of a codeword: LBA, Slice or region, kind and a CRC-32C over the payload and the tag before it (Table 13-7). -/
def codewordTag (payload : List Nat) (lba region kind : Nat) : List Nat :=
  let head := bytesLE 5 lba ++ [region % 256, kind % 256] ++ List.replicate 5 0
  head ++ bytesLE 4 (crc32c (payload ++ head))

/-- The check of R344: the tag's CRC is good, and it names what the lookup expects. -/
def tagGood (payload tag : List Nat) (lba region kind : Nat) : Bool := tag == codewordTag payload lba region kind

/-! The key wrap of RFC 3394. -/

/-- One step of the wrap: the register with the next semiblock through the cipher, the step number added. -/
def wrapStep (keys : List (List Nat)) (e : List Nat × List (List Nat)) (t : Nat) : List Nat × List (List Nat) :=
  let b := aes256 keys (e.1 ++ e.2.headD [])
  (addBytes (b.take 8) (bytesLE 8 t).reverse, e.2.drop 1 ++ [b.drop 8])

/-- A key wrapped under a key-encryption key: six passes over its 64-bit parts. -/
def wrapKey (kek : BitVec 256) (key : BitVec 512) : List Nat :=
  let parts := (rangeFrom 0 8).map (fun i => ((bytesLE 64 key.toNat).drop (8 * i)).take 8)
  let r := (rangeFrom 1 48).foldl (wrapStep (roundKeys (bytesLE 32 kek.toNat))) (List.replicate 8 0xA6, parts)
  r.1 ++ r.2.flatten

/-- What a settings copy keeps of a Slice's key: it alone, wrapped under the die's key-encryption key, and nothing of a Slice in plaintext
(R173). -/
def SliceCfg.wrapped (c : SliceCfg) : Option (List Nat) := if c.xtsKey = 0 then none else some (wrapKey Config.wrapKek (xtsKeyOf c.xtsKey))

end Sys2Proof.Machine
end

