-- ==== Sys2Proof/Machine/SimpleCmds.lean ====
section
/-!
DEFINITION. NOP, IDENTIFY, ASSIGN_ADDRESS, SWITCH, HELLO, RESET, ABORT and SELFTEST, the declaration of the clock and shelf
sleep (chapters 2, 4, 5, 6, 14 and 21). A row runs on a command that its decode has passed (Table 5-4, checks 1 to 12) and
makes check 13 itself.
-/
namespace Sys2Proof.Machine

/-! NOP, identity, widths. -/

/-- NOP (Table 5-5): completes OK. -/
def execNop (q : Nat) (s : State) : Answer := (s.onCmd q opNop .decoded (fun _ => s.complete q stOk)).done

/-- The completion fields of IDENTIFY (Table 5-5, R137). -/
def State.identity (s : State) : Nat :=
  let assigned := s.rd Reg.SHELF.ADDR.ASSIGNED
  s.fuses.serial % 2 ^ 96 + 2 ^ 96 * (s.fuses.part % 2 ^ 16) + 2 ^ 112 * (s.fuses.step % 256) +
    2 ^ 120 * (1 - assigned) + 2 ^ 128 * (if assigned = 1 then s.rd Reg.SHELF.ADDR.CARD_ADDR else 0)

/-- IDENTIFY (R134, R137). -/
def execIdentify (q : Nat) (s : State) : Answer :=
  (s.onCmd q opIdentify .decoded (fun _ => s.complete q stOk s.identity)).done

/-- ASSIGN_ADDRESS (R138): the address is taken on the edge on which OK is fixed, and the answer carries it. -/
def execAssignAddress (q : Nat) (s : State) : Answer :=
  (s.onCmd q opAssign .decoded (fun c =>
    let s := (s.wr Reg.SHELF.ADDR.CARD_ADDR (c.field 12 12)).wr Reg.SHELF.ADDR.ASSIGNED 1
    ((s.bump Reg.SHELF.COUNTS.ASSIGNS).raise Evt.SHELF.ASSIGNED).complete q stOk)).done

/-- SWITCH (R80, Table 4-4): OK is sent; then the pads' supply comes on and regulation is awaited. -/
def execSwitch (q : Nat) (s : State) : Answer :=
  (s.onCmd q opSwitch .decoded (fun c =>
    let s := s.complete q stOk
    { s with link := { s.link with phase := .switching, switchStep := .regulate, switchHc := 0,
                                   wantW := c.field 0 4 } })).done

/-! The declaration of the clock. -/

/-- DECLARE_CLOCK (R28, R29): an ordering point for the whole card; it waits for the edge of its counts load. -/
def execDeclareClock (q : Nat) (s : State) : Answer :=
  (s.onCmd q opDeclare .decoded (fun _ => s.setCmd q (fun c => { c with phase := .waiting }))).done

/-- Every channel sequencer is idle and no die is suspended (R29). -/
def State.diesIdle (s : State) : Bool := s.flash.dies.all (fun x => !x.atWork)

/-- The NAND timing counts are computed for a new frequency in force (R29, R337). -/
def State.loadCounts (s : State) (khz : Nat) : State :=
  s.onFlash (fun fl => { fl with chans := fl.chans.map (fun (c : Chan) => { c with countKhz := khz }) })

/-- DECLARE_CLOCK_COUNTS_LOAD (R29, R337, R338): the declaration takes effect, and in fast mode the counts load, once every earlier
command has completed and the dies are idle; in fast mode every channel then needs reconfiguration. DECL_CHANGED is set where the
value in force changed, as Table 2-5 says, and not at every accepted declaration, as R29 can be read. DESIGN CHOICE: log entry
59. -/
def execDeclareClockCountsLoad (q : Nat) (s : State) : Answer :=
  (s.onCmd q opDeclare .waiting (fun c =>
    if !c.abortedBy.isEmpty then s.endCmd q stAborted
    else if (s.earlier q).isEmpty && s.diesIdle then
      let khz := c.field 0 32
      let changed := s.rd Reg.CLOCK.DECL_FAST.DECL_KHZ != khz
      let s := s.wr Reg.CLOCK.DECL_FAST.DECL_KHZ khz
      let s := if changed then s.raise Evt.CLOCK.DECL_CHANGED else s
      let s := if s.link.fast && changed then (s.loadCounts khz).newFrequency else s
      s.complete q stOk
    else s)).done

/-! HELLO. -/

/-- The entry of an Originator (R145); one that has sent no HELLO holds Epoch 0. -/
def State.orig (s : State) (o : Nat) : Orig :=
  (s.origs.find? (fun x => x.id == o)).getD { id := o, epoch := 0, helloSeen := false, nonce := none }

/-- Change an Originator's entry, the entries in order of their IDs. -/
def State.setOrig (s : State) (o : Nat) (f : Orig → Orig) : State :=
  { s with origs := s.origs.filter (fun x => decide (x.id < o)) ++ f (s.orig o) :: s.origs.filter (fun x => decide (o < x.id)) }

/-- The completion fields of HELLO: BOUND_SLICE, IS_ADMIN. -/
def State.helloResult (s : State) (o : Nat) : Nat := (s.boundSlice o).getD 0xFF + 256 * bit01 (s.isAdmin o)

/-- HELLO (R145): a lower Epoch is stale, an equal one changes nothing, a higher one or the first waits; `steps` notes a higher one. -/
def execHello (q : Nat) (s : State) : Answer :=
  (s.onCmd q opHello .decoded (fun c =>
    let o := s.orig c.orig
    let e := c.field 0 32
    if o.helloSeen && decide (e < o.epoch) then
      (s.raise Evt.SHELF.STALE_EPOCH).complete q stStaleEpoch (s.helloResult c.orig)
    else if o.helloSeen && e == o.epoch then s.complete q stOk (s.helloResult c.orig)
    else s.setCmd q (fun c => { c with phase := .waiting, steps := bit01 (decide (o.epoch < e)) }))).done

/-- Has every earlier command of the Originator completed and been acknowledged? -/
def State.quietBefore (s : State) (q o : Nat) : Bool :=
  (s.earlier q).all (fun d => d.orig != o) && s.link.unacked.all (fun f => f.orig != o || f.ftype != .completion)

/-- HELLO_EPOCH_RECORD (R145, R162, R184): the Epoch is recorded, an outstanding nonce is dropped, the locks held under an
older Epoch are released and posted. EPOCH_ADVANCED is set where the Epoch is higher than the one held (Table 6-7). -/
def execHelloEpochRecord (q : Nat) (s : State) : Answer :=
  (s.onCmd q opHello .waiting (fun c =>
    if s.quietBefore q c.orig then
      let e := c.field 0 32
      let s := s.setOrig c.orig (fun o => { o with epoch := e, helloSeen := true, nonce := none })
      let s := if c.steps = 1 then s.raise Evt.SHELF.EPOCH_ADVANCED else s
      let s : State := (rangeFrom 0 64).foldl (fun (s : State) i =>
        match (s.slice i).lock with
        | some l =>
          if l.orig = c.orig ∧ l.epoch < e then
            (s.setSlice i (fun sl => { sl with lock := none })).raise Evt.SLICE.LOCK_BROKEN i
          else s
        | none => s) s
      s.complete q stOk (s.helloResult c.orig)
    else s)).done

/-! Shelf sleep. -/

/-- Is an escalation pending or the Safe state in force: shelf sleep completes FAULT_PENDING (R373, Table 15-2, R419).
DEDUCED: log entry 15. -/
def State.faultPending (s : State) : Bool := s.escPending || s.safe

/-- A proposal ends VETOED: the reason replaces the last one, the veto is counted (R150, R151). -/
def State.veto (s : State) (q reason : Nat) : State :=
  let s := (s.wr Reg.SHELF.VETO.LAST_REASON reason).bump Reg.SHELF.VETO.VETOES
  (s.raise Evt.SHELF.VETO_SENT).complete q stVetoed

/-- SLEEP_PROPOSE (R150–R152): one at a time, in ORDER_SEQ order; a new one ends an ARMED round as its window opens. DEDUCED: log entry 16. -/
def execSleepPropose (q : Nat) (s : State) : Answer :=
  (s.onCmd q opPropose .decoded (fun _ =>
    if s.shelf.proposal.isSome || (s.earlier q).any (fun d => d.opcode == opPropose && !d.done?) then s
    else
      let reason := 4 * bit01 (s.rd Reg.SHELF.SLEEP_CFG.SLEEP_EN == 0) + 8 * bit01 s.faultsOnly
      if reason ≠ 0 then s.veto q reason
      else if s.faultPending then s.complete q stFaultPending
      else
        let s := (s.setCmd q (fun c => { c with phase := .waiting })).wr Reg.SHELF.SLEEP_STAT.STATE 1
        { s with shelf := { s.shelf with proposal := some q, window := 0, armedBy := none } })).done

/-- Is a command a HELLO of an Originator with a higher Epoch than the one held (its `steps` say so once it waits)? -/
def State.raisesEpoch (s : State) (c : Cmd) (o : Nat) : Bool :=
  c.opcode == opHello && c.orig == o && (c.steps == 1 || (c.phase == .queued && decide ((s.orig o).epoch < c.field 0 32)))

/-- The causes of R151 that a CCLK edge samples: bit 0 WAKE_CAUSE, bit 1 INFLIGHT. A later HELLO of the proposer with a higher
Epoch is no cause (Collisions of chapter 6). -/
def State.vetoCauses (s : State) (q : Nat) : Nat :=
  let by_ := ((s.cmd? q).map (fun c => c.orig)).getD 0xFF
  bit01 (s.cell 24 % 32 != 0) +
    2 * bit01 (!(s.earlier q).isEmpty || (s.later q).any (fun c => !s.raisesEpoch c by_))

/-- One edge of the veto window: the first cause closes it (R151). -/
def State.vetoEdge (s : State) : State :=
  match s.shelf.proposal with
  | none => s
  | some q =>
    let close (s : State) : State :=
      { (s.wr Reg.SHELF.SLEEP_STAT.STATE 0) with shelf := { s.shelf with proposal := none, window := 0 } }
    if s.faultPending then (close s).complete q stFaultPending
    else if s.vetoCauses q ≠ 0 then (close s).veto q (s.vetoCauses q)
    else s

/-- SLEEP_VETO (R151). -/
def execSleepVeto (s : State) : Answer := if s.clocked then s.vetoEdge.done else .next s

/-- CCLK of the veto window. -/
def State.vetoWindow (s : State) : Nat := 2 ^ s.rd Reg.SHELF.SLEEP_CFG.VETO_LOG2

/-- The last edge of the veto window (R151): a cause sampled on it closes the window, no cause arms the card. -/
def State.windowEnds (s : State) : State :=
  let s := s.vetoEdge
  match s.shelf.proposal with
  | some q =>
    let c : Option Cmd := s.cmd? q
    let s := s.wr Reg.SHELF.SLEEP_STAT.STATE 2
    let s := s.wr Reg.SHELF.SLEEP_STAT.ROUND ((c.map (fun (c : Cmd) => c.field 0 16)).getD 0)
    let s := { s with shelf := { s.shelf with proposal := none, window := 0, armedBy := c.map Cmd.orig } }
    s.complete q stOk
  | none => s

/-- VETO_WINDOW_END (R151): the window has lasted its CCLK. -/
def execVetoWindowEnd (s : State) : Answer := if s.clocked then s.windowEnds.done else .next s

/-- SLEEP_COMMIT (R154): the round it names was ARMED at its stamp, and it waits; otherwise STATE_CONFLICT, with an escalation
pending too. DEDUCED: log entry 15. -/
def execSleepCommit (q : Nat) (s : State) : Answer :=
  (s.onCmd q opCommit .decoded (fun _ =>
    if s.shelf.committing == some q then s.setCmd q (fun c => { c with phase := .waiting }) else s.complete q stConflict)).done

/-- SLEEP_COMMIT_COMPLETE (R154, R379): every earlier command has completed; from OK on ALERT shows WAKE whatever the mask.
DEDUCED: log entry 44. -/
def execSleepCommitComplete (q : Nat) (s : State) : Answer :=
  (s.onCmd q opCommit .waiting (fun _ =>
    if !(s.earlier q).all (fun d => d.done?) then s
    else if s.faultPending then
      let s := s.wr Reg.SHELF.SLEEP_STAT.STATE 0
      ({ s with shelf := { s.shelf with committing := none, armedBy := none } }).complete q stFaultPending
    else
      let s := { s with shelf := { s.shelf with committing := none, committed := true } }
      ({ s with esc := { s.esc with ignoreMask := true } }).complete q stOk)).done

/-! RESET. -/

/-- RESET (R351, R354, R355): refused in sealed mode; otherwise OK, and a reset of its LEVEL is requested. -/
def execReset (q : Nat) (s : State) : Answer :=
  (s.onCmd q opReset .decoded (fun c =>
    if !s.openMode then s.complete q stNotSealed
    else
      let system := c.field 0 8 == 1
      (s.requestReset system (if system then 3 else 4) (if system then some q else none)).complete q stOk)).done

/-! ABORT. -/

/-- Ranges of 4,096 sectors of a TRIM that have begun. -/
def Cmd.trimLast (c : Cmd) : Bool := decide (c.count ≤ c.done + 4096)

/-- May ABORT still end the command, which stands at a boundary of Table 5-8? A REGREAD or REGWRITE that has been decoded is past its
last boundary, as that table says of every other command; the Collisions of chapter 3 let an ABORT end one up to its first sample
or its landing. DESIGN CHOICE: log entry 60. -/
def State.abortable (s : State) (c : Cmd) : Bool :=
  let next := match s.desc? c.q with
    | some d => d.next
    | none => 0
  if c.done? then false
  else if c.phase == .queued then true
  else if c.opcode = opDeclare then true
  else if c.opcode = opRest then c.awaits.isEmpty
  else if c.opcode = opStage then true
  else if c.isBarrier then false
  else if c.opcode = opWrite then c.phase == .decoded || c.phase == .asking || c.phase == .data || decide (next < c.count)
  else if c.opcode = opRead ∨ c.opcode = opVerify then decide (next < c.count) || s.asks c.q
  else if c.opcode = opTrim then decide (c.done < c.count)
  else false

/-- The target of an ABORT: a command In flight of TGT_ORIG and TGT_TAG that is no ABORT (R127). -/
def State.abortTarget (s : State) (c : Cmd) : Option Cmd :=
  s.cmds.find? (fun d => d.orig == c.field 2 8 && d.tag == c.field 0 16 && d.opcode != opAbort)

/-- ABORT (R127, R128): its target is found. One that is not decoded yet, or waits behind an ordering point, ends ABORTED at once;
another takes note of the ABORT, which takes effect at its next boundary. The ABORT completes with its target. -/
def execAbort (q : Nat) (s : State) : Answer :=
  (s.onCmd q opAbort .decoded (fun c =>
    match s.abortTarget c with
    | none => s.complete q stNoSuch
    | some t =>
      if c.orig != t.orig && !s.isAdmin c.orig then s.complete q stNotOwner
      else
        let s := (s.setCmd q (fun c => { c with phase := .waiting })).setCmd t.q (fun t => { t with abortedBy := t.abortedBy ++ [q] })
        if t.phase == .queued then s.endCmd t.q stAborted else s)).done

/-- ABORT_TAKES_EFFECT (R128): at the target's next boundary. -/
def execAbortTakesEffect (q : Nat) (s : State) : Answer :=
  match s.cmd? q with
  | some c => if s.clocked && !c.abortedBy.isEmpty && s.abortable c then (s.abortNow c).done else .next s
  | none => .next s

/-! SELFTEST. -/

/-- The scopes that a SCOPE runs (Table 21-3), as RESULT bits. -/
def scopeBits (scope : Nat) : Nat :=
  if scope = 4 then 0b1101 else if scope = 5 then 0b1111 else 2 ^ scope

/-- One array read of one closed block of every present die (Table 21-3, scope 3). -/
def State.sampleDies (s : State) : State :=
  (s.goodDies.foldl (fun (s : State) x =>
    match s.flash.blocks.find? (fun b => b.die == x.id && b.st == .closed) with
    | some b => (s.countGrant 65 x.id 0).arrayRead x.id b.num
    | none => s) s).flashSettle

/-- RESULT (R483): only the scopes that ran can fail; without a failing die FIRST_DIE reads 0xFF and DIES_FAILED 0. -/
def selftestResult (scope findings : Nat) : Nat :=
  let bits := findings % 16 &&& scopeBits scope
  if bits / 4 = 0 then bits + 256 * 0xFF else bits + 256 * (bitsOf findings 8 16)

/-- SELFTEST (R482, R483). `findings` are what the tests find, laid out as RESULT. -/
def execSelftest (q findings : Nat) (s : State) : Answer :=
  (s.onCmd q opSelftest .decoded (fun c =>
    let scope := c.field 0 8
    if s.cmds.any (fun d => d.opcode == opSelftest && d.working && d.q != q) || ((scope == 1 || scope == 5) && !s.ftm) then
      s.complete q stConflict
    else
      let s := if bitAt (scopeBits scope) 3 then s.sampleDies else s
      s.complete q stOk (selftestResult scope findings))).done

end Sys2Proof.Machine
end

