-- ==== Sys2Proof/Machine/Slices.lean ====
section
/-!
DEFINITION. Slices: creation, binding, locks, reset, destruction and configuration (chapter 7, R158–R188). A row runs on a
command that its decode has passed and makes check 13 itself.
-/
namespace Sys2Proof.Machine

/-! Creation. -/

/-- The configuration that SLICE_CREATE asks for (R170): WEIGHT only counts for the steady class. -/
def Cmd.newCfg (c : Cmd) (key : Nat) : SliceCfg :=
  { exist := true, cap := c.field 8 40, cls := c.field 16 8, weight := if c.field 16 8 = 1 then c.field 17 8 else 0,
    dieCap := 0, enc := c.field 18 8 == 1, xtsKey := if c.field 18 8 = 1 then key else 0, bindKey := 0, pin := false }

/-- Unallocated capacity. -/
def State.unallocated (s : State) : Nat := s.flash.usable - s.allocated

/-- The counters of a Slice's banks. -/
def sliceCounters (i : Nat) : List Field :=
  [Reg.SLICE.COUNTS.RESETS.inBank i, Reg.SLICE.COUNTS.LOCK_REFUSED.inBank i, Reg.QUEUE.WM_STAT.SQ_COUNT.inBank i,
   Reg.QUEUE.WM_STAT.AQ_COUNT.inBank i, Reg.QUEUE.LOST.LOST_COUNT.inBank i]

/-- SLICE_CREATE (R170, R173, R403): the key of an encrypted Slice is stored in both settings copies. Their programs wait until VHOLD_OK
reads 1 (R310). DEDUCED: log entry 38. -/
def execSliceCreate (q : Nat) (s : State) : Answer :=
  (s.onCmd q opCreate .decoded (fun c =>
    let i := c.field 0 8
    let cfg := c.newCfg (s.keys + 1)
    if s.probation || (s.slice i).st != .free then s.complete q stConflict
    else if s.unallocated < cfg.cap then s.complete q stNoSpace
    else if !s.power.vholdOk then s
    else
      let s := if cfg.enc then { s with keys := s.keys + 1 } else s
      let s := s.setSlice i (fun _ => { Slice.free with st := .active, cfg := cfg })
      let s : State := (sliceCounters i).foldl (fun (s : State) f => s.wr f 0) s
      let s := if cfg.enc then s.persist.persist else s.persist
      (s.raise Evt.SLICETAB.SLICE_CREATED).complete q stOk)).done

/-! Binding. -/

/-- The checks of R162 but for OUT_OF_RANGE. -/
def State.bindConflict (s : State) (o i : Nat) : Bool :=
  (match (s.slice i).owner with
    | some x => x != o
    | none => false) ||
  (match s.boundSlice o with
    | some j => j != i
    | none => false) || s.bit (Reg.SLICE.AUTH.BLOCKED.inBank i)

/-- SLICE_BIND STEP 0 (R162): a fresh nonce, the sender's one outstanding nonce. -/
def execSliceBindChallenge (q : Nat) (s : State) : Answer :=
  (s.onCmd q opBind .decoded (fun c =>
    if c.field 1 8 ≠ 0 then s
    else
      let i := c.field 0 8
      if s.bindConflict c.orig i then s.complete q stConflict
      else
        let n := s.draws
        let s := { s with draws := n + 1 }
        (s.setOrig c.orig (fun o => { o with nonce := some (i, n) })).complete q stOk (Config.nonce n).toNat)).done

/-- The binding message (Table 7-1). -/
def State.bindMessage (s : State) (n i o : Nat) : List Nat :=
  [0x53, 0x51, 0x42, 0x31] ++ bytesLE 16 (Config.nonce n).toNat ++ bytesLE 12 s.fuses.serial ++ [i, o] ++
    bytesLE 4 (s.orig o).epoch ++ [0, 0]

/-- Does the MAC answer the nonce (R163, R164)? -/
def State.macGood (s : State) (c : Cmd) (n i : Nat) : Bool :=
  let key := (s.slice i).cfg.bindKey
  key == 0 || hmacSha256 (bytesLE 32 key) (s.bindMessage n i c.orig) == bytesLE 32 (c.field 32 256)

/-- SLICE_BIND STEP 1 (R163): its completion spends the nonce. -/
def execSliceBindAnswer (q : Nat) (s : State) : Answer :=
  (s.onCmd q opBind .decoded (fun c =>
    if c.field 1 8 ≠ 1 then s
    else
      let i := c.field 0 8
      match (s.orig c.orig).nonce with
      | none => s.complete q stConflict
      | some (j, n) =>
        let good := s.macGood c n i
        if j ≠ i ∨ s.bindConflict c.orig i then s.complete q stConflict
        else if good then
          let s := s.setSlice i (fun sl => { sl with owner := some c.orig })
          ((s.wr (Reg.SLICE.AUTH.FAILS.inBank i) 0).raise Evt.SLICE.BOUND i).complete q stOk
        else
          let f := Reg.SLICE.AUTH.FAILS.inBank i
          let n := min 16 (s.rd f + 1)
          let s := (s.wr f n).raise Evt.SLICE.AUTH_FAILED i
          let s := if n = 16 ∧ s.rd (Reg.SLICE.AUTH.BLOCKED.inBank i) = 0 then
              (s.wr (Reg.SLICE.AUTH.BLOCKED.inBank i) 1).raise Evt.SLICETAB.AUTH_BLOCKED
            else s
          s.complete q stAuthFailed)).done

/-- Is the Slice locked against the sender of a command (R181)? -/
def State.lockedTo (s : State) (i o : Nat) : Bool := (s.slice i).lockedAgainst o

/-- SLICE_UNBIND (R168, R181): an ordering point for the Slice once its checks pass. -/
def execSliceUnbind (q : Nat) (s : State) : Answer :=
  (s.onCmd q opUnbind .decoded (fun c =>
    let i := c.field 0 8
    if (s.slice i).owner.isNone || s.lockedTo i c.orig then s.complete q stConflict
    else s.setCmd q (fun c => { c with phase := .waiting }))).done

/-- Every command of Slice `i` stamped before `q` has completed. -/
def State.sliceQuiet (s : State) (q i : Nat) : Bool := (s.earlier q).all (fun d => d.ring != some i || d.done?)

/-- The owner goes: any lock it holds is released, with LOCK_BROKEN where the Administrator sent the command (R168, R184). -/
def State.unbind (s : State) (i sender : Nat) : State :=
  match (s.slice i).owner with
  | none => s
  | some o =>
    let held := match (s.slice i).lock with
      | some l => l.orig == o
      | none => false
    let s := s.setSlice i (fun sl => { sl with owner := none, lock := if held then none else sl.lock })
    let s := if held && s.isAdmin sender then s.raise Evt.SLICE.LOCK_BROKEN i else s
    s.raise Evt.SLICE.UNBOUND i

/-- SLICE_UNBIND_COMPLETE (R168). -/
def execSliceUnbindComplete (q : Nat) (s : State) : Answer :=
  (s.onCmd q opUnbind .waiting (fun c =>
    let i := c.field 0 8
    if s.sliceQuiet q i then (s.unbind i c.orig).complete q stOk else s)).done

/-! Locks. -/

/-- The lock taken, with its holder's epoch and its lease (R182, R183). -/
def State.takeLock (s : State) (c : Cmd) (i : Nat) : State :=
  let lease := c.field 4 32
  (s.setSlice i (fun sl => { sl with
    lock := some { orig := c.orig, epoch := (s.orig c.orig).epoch, lease := if lease = 0 then none else some lease } })).complete
    c.q stOk

/-- SLICE_LOCK (R182, R183). -/
def execSliceLock (q : Nat) (s : State) : Answer :=
  (s.onCmd q opLock .decoded (fun c =>
    let i := c.field 0 8
    match (s.slice i).lock with
    | some l =>
      if l.orig ≠ c.orig then
        (s.bump (Reg.SLICE.COUNTS.LOCK_REFUSED.inBank i)).complete q stLocked (l.orig + 2 ^ 32 * l.epoch)
      else s.takeLock c i
    | none => s.takeLock c i)).done

/-- SLICE_UNLOCK (R184). -/
def execSliceUnlock (q : Nat) (s : State) : Answer :=
  (s.onCmd q opUnlock .decoded (fun c =>
    let i := c.field 0 8
    let freed := s.setSlice i (fun sl => { sl with lock := none })
    match (s.slice i).lock with
    | none => s.complete q stConflict
    | some l =>
      if l.orig = c.orig then freed.complete q stOk
      else if s.isAdmin c.orig then (freed.raise Evt.SLICE.LOCK_BROKEN i).complete q stOk
      else s.complete q stConflict)).done

/-- LEASE_EXPIRED (R183): the edge on which the count reaches LEASE. HC counted on one CCLK edge: 8 in fast mode, 1 in ID
mode. -/
def State.hcPerTick (s : State) : Nat := if s.link.fast then 8 else 1

/-- A lease runs out. -/
def State.expireLease (s : State) (i : Nat) : State :=
  (s.setSlice i (fun sl => { sl with lock := none })).raise Evt.SLICE.LEASE_EXPIRED i

/-- LEASE_EXPIRED (R183). -/
def execLeaseExpired (slice : Nat) (s : State) : Answer :=
  match (s.slice slice).lock with
  | some l =>
    match l.lease with
    | some _ => if s.clocked then (s.expireLease slice).done else .next s
    | none => .next s
  | none => .next s

/-! Slice reset. -/

/-- Steps 1 to 3 of R179 for the commands of Slice `i` among `cs`: they end SLICE_RESET, descriptors are counted, the Slice's
requests are withdrawn, its banks' B fields cleared. The owner's ATTN_FETCH and register commands to its own banks end with
them (Table 7-4). -/
def State.endSlice (s : State) (i : Nat) (cs : List Cmd) : State :=
  let mine (c : Cmd) : Bool := (c.ring == some i || (c.opcode == opFetch && (s.slice i).owner == some c.orig &&
    !s.isAdmin c.orig)) && !c.done?
  let s : State := (cs.filter mine).foldl (fun (s : State) c =>
    let s := if (s.desc? c.q).isSome then s.bump Reg.DMA.WRAP_ERRORS.COUNT else s
    let s := if c.opcode == opFetch then { s with attn := s.attn.map (fun (e : AttnEntry) =>
        if c.rings.contains e.ring then { e with sending := false } else e) } else s
    s.endTrim c.q stSliceReset) s
  { s with regs := regClear s.regs (clearedBySlice i) }

/-- A Slice reset begins: `mover` is the SLICE_RESET that asked for it. -/
def State.beginReset (s : State) (i : Nat) (mover : Option Nat) (cs : List Cmd) : State :=
  let s := (s.setSlice i (fun sl => { sl with st := .resetting, mover := mover })).endSlice i cs
  s.snapSweep.flashSettle

/-- SLICE_RESET (R179, R56). -/
def execSliceReset (q : Nat) (s : State) : Answer :=
  (s.onCmd q opSliceReset .decoded (fun c =>
    let i := c.field 0 8
    if (s.slice i).st != .active then s.complete q stConflict
    else ((s.setCmd q (fun c => { c with phase := .waiting })).beginReset i (some q) (s.earlier q)))).done

/-- Does a NAND operation of the Slice still run or stand suspended, or is the trim record of one of its TRIMs to be programmed (R179
step 4, R253)? -/
def State.sliceBusy (s : State) (i : Nat) : Bool :=
  s.cmds.any (fun c => c.ring == some i && c.phase == .recording) || s.flash.jobs.any (fun j => j.bearer.who == i) ||
  s.flash.dies.any (fun x => x.orphans.any (fun r => r.who == i) || x.hasReq i ||
    (match x.holder with
      | some (.orphan r) => r.who == i
      | some (.resetLun (some r) _) => r.who == i
      | some (.step _) => false
      | some (.resetLun none _) => false
      | some .reconfig => false
      | none => false))

/-- SLICE_RESET_END (R179 step 4). -/
def execSliceResetEnd (slice : Nat) (s : State) : Answer :=
  if s.clocked && (s.slice slice).st == .resetting && !s.sliceBusy slice then
    let mover := (s.slice slice).mover
    let s := s.setSlice slice (fun sl => { sl with st := .active, mover := none })
    let s := (s.bump (Reg.SLICE.COUNTS.RESETS.inBank slice)).raise Evt.SLICE.RESET_DONE slice
    match mover with
    | some q => (s.complete q stOk).done
    | none => s.done
  else .next s

/-- The reset that SOFT_RST of a SLICE bank starts: no effect unless the Slice is ACTIVE. -/
def State.sliceSoftReset (s : State) (i : Nat) (cs : List Cmd) : State :=
  if (s.slice i).st == .active then s.beginReset i none cs else s

/-- SLICE_SOFT_RESET (R56, R179). -/
def execSliceSoftReset (slice : Nat) (s : State) : Answer :=
  if s.clocked then (s.sliceSoftReset slice s.cmds).done else .next s

/-! Destruction. -/

/-- SLICE_DESTROY (R174 steps 1 and 2). -/
def execSliceDestroy (q : Nat) (s : State) : Answer :=
  (s.onCmd q opDestroy .decoded (fun c =>
    let i := c.field 0 8
    if s.probation || (s.slice i).st != .active || s.lockedTo i c.orig then s.complete q stConflict
    else
      let s := s.setCmd q (fun c => { c with phase := .waiting })
      let s := (s.setSlice i (fun sl => { sl with st := .destroying, mover := some q })).endSlice i (s.earlier q)
      (s.unbind i c.orig).snapSweep.flashSettle)).done

/-- SLICE_DESTROY_COMPLETE (R174 steps 3 to 7): the ring is discarded, the map released, the key destroyed in both settings
copies, the capacity returned; the programs wait until VHOLD_OK reads 1 (R310). -/
def execSliceDestroyComplete (q : Nat) (s : State) : Answer :=
  (s.onCmd q opDestroy .waiting (fun c =>
    let i := c.field 0 8
    if (s.slice i).st != .destroying || s.sliceBusy i || !s.power.vholdOk then s
    else
      let s := { s with attn := s.attn.filter (fun e => e.ring != i) }
      let s := (s.releaseMap i).setSlice i (fun _ => Slice.free)
      let s := s.persist.persist.raise Evt.SLICETAB.SLICE_DESTROYED
      (s.complete q stOk).flashSettle)).done

/-! Configuration. -/

/-- Capacity of the Slices whose PIN is set. -/
def State.pinUsed (s : State) : Nat := sumBy (fun sl => if sl.cfg.pin then sl.cfg.cap else 0) s.slices

/-- A change of a Slice's stored configuration: stored, and posted (Table 7-3). -/
def State.setCfg (s : State) (i : Nat) (f : SliceCfg → SliceCfg) : State :=
  ((s.setSlice i (fun sl => { sl with cfg := f sl.cfg })).persist).raise Evt.SLICE.CONFIG_CHANGED i

/-- Check 6 of a write of CAPACITY (R171, R181, R190). -/
def State.capacityBad (s : State) (i cap o : Nat) : Bool :=
  let c := (s.slice i).cfg
  cap == 0 || (decide (c.cap < cap) && (decide (s.unallocated < cap - c.cap) ||
    (c.pin && decide (s.rd Reg.SLICETAB.PIN_BUDGET.BUDGET < s.pinUsed - c.cap + cap)))) ||
    (decide (cap < c.cap) && s.lockedTo i o)

/-- A new capacity lands; what lies beyond a lower one is trimmed (R171). -/
def State.landCapacity (s : State) (i cap : Nat) : State :=
  let old := (s.slice i).cfg.cap
  let s := if cap < old then (s.trimRange (s.rd Reg.LINK.ORDER_SEQ.LAST + 1) i cap (old - cap) false) else s
  (s.setCfg i (fun c => { c with cap := cap })).flashSettle

/-- A REGWRITE of CAPACITY: a raise lands at once, a lowering waits as BARRIER waits (R171). -/
def State.writeCapacity (s : State) (q i cap : Nat) : State :=
  if cap < (s.slice i).cfg.cap then s.setSlice i (fun sl => { sl with lowering := some (q, cap) }) else s.landCapacity i cap

/-- May the stored configuration of Slice `i` be written now: the Slice exists, and a program may start (R190, R310)? -/
def State.cfgMay (s : State) (i : Nat) : Bool := s.clocked && (s.slice i).st != .free && s.power.vholdOk

/-- CAPACITY_WRITE (R171): the REGWRITE `q` of CAPACITY lands, or is held where it lowers. -/
def execCapacityWrite (q slice cap : Nat) (s : State) : Answer :=
  let o := ((s.cmd? q).map Cmd.orig).getD s.admin
  if s.cfgMay slice && !s.capacityBad slice cap o then (s.writeCapacity q slice cap).done
  else .next s

/-- Would PIN take the card past the pin budget (R188)? -/
def State.pinBad (s : State) (i : Nat) : Bool :=
  let c := (s.slice i).cfg
  decide (s.rd Reg.SLICETAB.PIN_BUDGET.BUDGET < c.cap + (if c.pin then s.pinUsed - c.cap else s.pinUsed))

/-- A write of PIN (R188): loading until every map page is resident; off releases the pages. -/
def State.writePin (s : State) (i : Nat) (on : Bool) : State :=
  let before := (s.slice i).cfg.pin
  let s := s.setCfg i (fun c => { c with pin := on })
  if on && !before then (s.setSlice i (fun sl => { sl with pinState := .loading })).pinSettle i
  else if on then s
  else s.setSlice i (fun sl => { sl with pinState := .off })

/-- MAP_PIN (R188). -/
def execMapPin (slice : Nat) (on : Bool) (s : State) : Answer :=
  if s.cfgMay slice && !(on && s.pinBad slice) then (s.writePin slice on).done else .next s

/-- A write of AUTH.CLEAR (R167). -/
def State.clearAuth (s : State) (i : Nat) : State :=
  (s.wr (Reg.SLICE.AUTH.FAILS.inBank i) 0).wr (Reg.SLICE.AUTH.BLOCKED.inBank i) 0

/-- AUTH_CLEAR (R167). -/
def execAuthClear (slice : Nat) (s : State) : Answer :=
  if s.clocked && (s.slice slice).st != .free then (s.clearAuth slice).done else .next s

/-- BIND_KEY_WRITE (R166): all eight registers in one REGWRITE. -/
def execBindKeyWrite (slice key : Nat) (s : State) : Answer :=
  if s.cfgMay slice then (s.setCfg slice (fun c => { c with bindKey := key % 2 ^ 256 })).done else .next s

/-- Check 6 of a write of QOS (R190). -/
def qosBad (cls weight dieCap : Nat) : Bool := cls == 3 || (cls == 1 && weight == 0) || decide (256 < dieCap)

/-- A write of QOS (R187): requests already presented keep their class. -/
def State.writeQos (s : State) (i cls weight dieCap : Nat) : State :=
  s.setCfg i (fun c => { c with cls := cls, weight := if cls = 1 then weight else 0, dieCap := dieCap })

/-- QOS_WRITE (R185–R187, R190). -/
def execQosWrite (slice cls weight dieCap : Nat) (s : State) : Answer :=
  if s.cfgMay slice && !qosBad cls weight dieCap then (s.writeQos slice cls weight dieCap).done else .next s

/-- A write of HWM_CLR (R220): both high-water marks fall to the levels of that edge. -/
def State.clearHwm (s : State) (i : Nat) : State :=
  (s.wr (Reg.QUEUE.HWM.SQ_HWM.inBank i) (s.sqLevel i)).wr (Reg.QUEUE.HWM.AQ_HWM.inBank i) (s.aqLevel i)

/-- HWM_CLR (R220). -/
def execHwmClr (slice : Nat) (s : State) : Answer :=
  if s.clocked && (s.slice slice).st != .free then (s.clearHwm slice).done else .next s

end Sys2Proof.Machine
end

