-- ==== Sys2Proof/Machine/View.lean ====
section
/-!
DEFINITION. What the registers read: the fields that are views of other state (marked live, stored, fused or Crust in the
tables), the common header, and a register word (R42, R44, R51, R55, R60, R61).
-/
namespace Sys2Proof.Machine

/-- A field of `n` bits from a predicate. -/
def maskOf (n : Nat) (p : Nat → Bool) : Nat := sumBy (fun i => if p i then 2 ^ i else 0) (rangeFrom 0 n)

/-- Present targets of channel `n`. -/
def State.diesPresent (s : State) (n : Nat) : Nat :=
  maskOf 16 (fun t => ((s.die? (16 * n + t)).map (fun x => x.present)).getD false)

/-! Pages 0x00 to 0x05. -/

/-- IDENT (Table 3-7). -/
def State.liveIdent (s : State) (index lo : Nat) : Nat :=
  match index, lo with
  | 8, 0 => s.fuses.part
  | 9, 0 => s.fuses.step
  | 12, 0 => s.fuses.serial
  | 13, 0 => s.fuses.serial >>> 32
  | 14, 0 => s.fuses.serial >>> 64
  | 15, 0 => maskOf 16 s.chanPresent
  | 15, 16 => maskOf 16 s.chanMarked
  | i, 0 => s.diesPresent (2 * (i - 16))
  | i, _ => s.diesPresent (2 * (i - 16) + 1)

/-- LINK.STATE.STATE. -/
def phaseNumber : LinkPhase → Nat
  | .idNotReady => 0 | .idReady => 1 | .switching => 2 | .fastWait => 3 | .training => 4 | .up => 5 | .lost => 6
  | .returning => 7

/-- LINK (Table 4-13). -/
def State.liveLink (s : State) (lo : Nat) : Nat :=
  match lo with
  | 0 => if s.link.phase == .idReady && !s.ready then 0 else phaseNumber s.link.phase
  | 3 => bit01 s.link.fast
  | 8 => maskOf 4 s.link.locked
  | _ => bit01 s.ready

/-- LINKERR (Table 5-13). -/
def State.liveLinkerr (s : State) (index lo : Nat) : Nat :=
  match index, lo with
  | 16, _ => s.link.cmdLimit
  | _, 0 => s.link.unacked.length
  | _, _ => s.link.rxExpected

/-- SHELF, indices 14 and 15: the entry of the Originator that ORIG_SEL names (Table 6-8). -/
def State.liveShelf (s : State) (index lo : Nat) : Nat :=
  let o := s.rd Reg.SHELF.ORIG_SEL.ORIG
  match index, lo with
  | 14, _ => (s.orig o).epoch
  | _, 0 => bit01 (s.orig o).helloSeen
  | _, 1 => bit01 (s.isAdmin o)
  | _, 8 => (s.boundSlice o).getD 0
  | _, 14 => bit01 (s.boundSlice o).isSome
  | _, _ => count (fun sl => match sl.lock with
      | some l => l.orig == o
      | none => false) s.slices

/-- SLICETAB (Table 7-7). -/
def State.liveSlicetab (s : State) (index : Nat) : Nat :=
  match index with
  | 8 => s.flash.usable
  | 9 => s.flash.usable >>> 32
  | 10 => s.allocated
  | 11 => s.allocated >>> 32
  | 12 => maskOf 32 (fun i => (s.slice i).st != .free)
  | 13 => maskOf 32 (fun i => (s.slice (32 + i)).st != .free)
  | 14 => s.admin
  | _ => s.pinUsed

/-! Pages 0x06 to 0x08. -/

/-- SLICE.STATE.STATE (R169). -/
def sliceNumber : SliceState → Nat
  | .free => 0 | .active => 1 | .resetting => 2 | .destroying => 3

/-- SLICE.MAP.PIN_STATE. -/
def pinNumber : PinState → Nat
  | .off => 0 | .loading => 1 | .pinned => 2

/-- SLICE, bank `i` (Table 7-9). -/
def State.liveSlice (s : State) (i index lo : Nat) : Nat :=
  let sl := s.slice i
  match index, lo with
  | 8, 0 => sliceNumber sl.st
  | 8, 2 => bit01 (sl.owner.isSome && sl.st != .free)
  | 8, 3 => bit01 (sl.cfg.bindKey != 0)
  | 8, 4 => bit01 sl.cfg.enc
  | 8, _ => if sl.st == .free then 0 else sl.owner.getD 0
  | 9, _ => sl.cfg.cap
  | 10, _ => sl.cfg.cap >>> 32
  | 11, 0 => sl.cfg.cls
  | 11, 8 => sl.cfg.weight
  | 11, _ => sl.cfg.dieCap
  | 12, 0 => bit01 sl.lock.isSome
  | 12, _ => ((sl.lock.map (fun l => l.orig)).getD 0)
  | 13, _ => ((sl.lock.map (fun l => l.epoch)).getD 0)
  | 14, _ => ((sl.lock.bind (fun l => l.lease)).getD 0)
  | 15, 0 => bit01 sl.cfg.pin
  | 15, _ => pinNumber sl.pinState
  | _, _ => 0

/-- Does a level stand at or above a watermark that is on (R208)? -/
def State.atMark (s : State) (f : Field) (level : Nat) : Bool := s.rd f != 0 && decide (s.rd f ≤ level)

/-- The levels of a ring: QUEUE of a Slice, or the card ring fields of DMA (Tables 8-8 and 8-10). -/
def State.ringView (s : State) (ring lo : Nat) : Nat :=
  match lo with
  | 0 => s.sqLevel ring
  | 8 => s.execLevel ring
  | 16 => s.aqLevel ring
  | _ => s.aqCompl ring

/-- QUEUE, bank `i` (Table 8-8). -/
def State.liveQueue (s : State) (i index lo : Nat) : Nat :=
  match index, lo with
  | 8, lo => s.ringView i lo
  | _, 16 => bit01 (s.atMark (sqMark i).setting (s.sqLevel i))
  | _, _ => bit01 (s.atMark (aqMark i).setting (s.aqLevel i))

/-- A descriptor state's code (Table 8-3). -/
def descNumber : DescState → Nat
  | .waitStage => 1 | .data => 2 | .active => 3 | .parked => 4 | .commit => 5 | .held => 6 | .ending => 7

/-- COUNT of a descriptor: the sectors of its command, or its frames. -/
def Cmd.units (c : Cmd) : Nat := if c.opcode = opStage then c.frames else c.count

/-- The descriptor that DESC_SEL names, with its command. -/
def State.descView (s : State) (index lo : Nat) : Nat :=
  match s.descs.find? (fun d => d.index == s.rd Reg.DMA.DESC_SEL.INDEX) with
  | none => 0
  | some d =>
    match s.cmd? d.q with
    | none => 0
    | some c =>
      match index, lo with
      | 19, 0 => descNumber d.st
      | 19, 8 => c.opcode
      | 19, 16 => c.ring.getD 64
      | 19, _ => c.orig
      | 20, 0 => c.tag
      | 20, _ => d.offset
      | 21, 0 => d.next
      | _, _ => c.units

/-- DMA (Table 8-10). -/
def State.liveDma (s : State) (index lo : Nat) : Nat :=
  match index, lo with
  | 9, 0 => sumBy (fun d => d.reserved) s.descs
  | 9, _ => count (fun d => d.st == .waitStage) s.descs
  | 10, 0 => s.descs.length
  | 10, _ => count (fun d => d.st == .parked) s.descs
  | 11, lo => s.ringView 64 lo
  | 13, 16 => bit01 (s.atMark (sqMark 64).setting (s.sqLevel 64))
  | 13, _ => bit01 (s.atMark (aqMark 64).setting (s.aqLevel 64))
  | i, lo => s.descView i lo

/-! Pages 0x09 to 0x0F. -/

/-- DIE_VIEW.HOLDER: the requester, 0x44 for housekeeping, 0x7F for none. -/
def Die.holderNumber (x : Die) : Nat :=
  match x.holder with
  | some (.step r) => r.who
  | some (.resetLun _ _) => 0x44
  | some .reconfig => 0x44
  | some (.orphan _) => 0x44
  | none => 0x7F

/-- A class as Table 9-7 numbers it. -/
def classNumber : ReqClass → Nat
  | .urgent => 0 | .steady => 1 | .bulk => 2

/-- DIE_VIEW.HOLDER_CLASS; 3 is housekeeping. -/
def Die.holderClass (x : Die) : Nat :=
  match x.holder with
  | some (.step r) => classNumber r.cls
  | some (.resetLun _ _) => 3
  | some .reconfig => 3
  | some (.orphan _) => 3
  | none => 0

/-- DIE_VIEW.SUSP_REQ: an orphan suspended in the die is housekeeping's. -/
def Die.suspReq (x : Die) : Nat :=
  if x.suspended then (match x.preempted with
    | some r => r.who
    | none => 0x44) else 0x7F

/-- ARB.DIE_VIEW of the die that DIE_SEL names (Table 9-7). DEDUCED: log entry 45. -/
def State.liveArb (s : State) (lo : Nat) : Nat :=
  let d := 16 * s.rd Reg.ARB.DIE_SEL.CHAN + s.rd Reg.ARB.DIE_SEL.TARGET
  let absent : Nat := if lo = 0 ∨ lo = 12 then 0x7F else 0
  match s.die? d with
  | none => absent
  | some x =>
    if !x.present then absent
    else match lo with
    | 0 => x.holderNumber
    | 8 => x.holderClass
    | 10 => bit01 x.suspended
    | 12 => x.suspReq
    | 20 => x.u
    | 24 => s.capOf d
    | _ => min x.waiting.length 15

/-- The counters of a requester on the channel that CNT_SEL names; 16 takes all channels together (R238). -/
def State.arbCount (s : State) (who kind : Nat) : Nat :=
  let ch := s.rd Reg.ARB.CNT_SEL.CHAN
  let l := s.flash.arb.filter (fun c => c.who == who && (ch == 16 || c.chan == ch))
  match kind with
  | 0 => min (sumBy (fun c => c.grants) l) (ones 32)
  | 1 => min (sumBy (fun c => c.waits) l) (ones 32)
  | _ => maxBy (fun c => c.longest) l

/-- ARBCNT (Table 9-9, R242). -/
def State.liveArbcnt (s : State) (index : Nat) : Nat :=
  let r := 8 * s.rd Reg.ARB.CNT_SEL.GROUP + (index - 8) / 3
  if 67 < r then 0 else s.arbCount r ((index - 8) % 3)

/-- FTL (Table 10-8). -/
def State.liveFtl (s : State) (index lo : Nat) : Nat :=
  match index, lo with
  | 8, 0 => s.flash.map.cache.length
  | 8, _ => count (fun p => s.pinned p.slice) s.flash.map.cache
  | 9, _ => s.dirtyPages.length
  | _, _ => min (count (fun b => b.due.isSome) s.flash.blocks) 0xFFFF

/-- UPKEEP (Table 10-10). The components of the debt saturate at their 32 bits, and `FREE_BLOCKS` at its 24 (R257). -/
def State.liveUpkeep (s : State) (index lo : Nat) : Nat :=
  match index, lo with
  | 8, _ => s.debt
  | 9, _ => s.debt >>> 32
  | 10, _ => min s.debtGc (ones 32)
  | 11, _ => min s.debtVerify (ones 32)
  | 12, _ => min s.debtRefresh (ones 32)
  | 15, _ => min s.freeBlocks (ones 24)
  | 17, _ => s.flash.upkeep.reserve
  | _, 0 => bit01 s.forcing
  | _, 1 => bit01 s.flash.upkeep.starved
  | _, _ => bit01 s.flash.upkeep.patrolActive

/-- The parity blocks of the card as (die, block). -/
def State.allParity (s : State) : List (Nat × Nat) :=
  s.goodDies.flatMap (fun x => (s.parityBlocks x).map (fun b => (x.id, b)))

/-- PROOF (Table 11-4). -/
def State.liveProof (s : State) (index lo : Nat) : Nat :=
  match index, lo with
  | 8, 0 => count (fun x => x.st == .open) s.flash.superblocks
  | 8, _ => min (count (fun x => x.st != .open) s.flash.superblocks) 0xFFFF
  | 9, 0 => sumBy s.openStripes s.flash.superblocks
  | 9, _ => s.buffersInUse
  | 10, _ => sumBy (fun p => s.slcPages p.1) s.allParity
  | 11, _ => s.flash.versions.length
  | 12, _ => sumBy (fun p => if (s.block p.1 p.2).st == .closed then 0 else s.slcPages p.1 - (s.block p.1 p.2).used) s.allParity
  | _, _ => s.flash.lastM

/-- The mean erase count of a region of channel `n`, rounded down. -/
def State.eraseMean (s : State) (n : Nat) (r : Region) : Nat := s.eraseSum n r / max 1 (s.regionCount n r)

/-- The refresh threshold in force on channel `n`; 0 where it is not populated. -/
def State.chanThreshold (s : State) (n : Nat) : Nat := if (s.chanProfile n).isSome then s.threshold (16 * n) else 0

/-- WEAR (Table 11-6). -/
def State.liveWear (s : State) (index lo : Nat) : Nat :=
  let w := s.flash.wear
  let n := s.rd Reg.WEAR.CHAN_SEL.CHAN
  match index, lo with
  | 8, 0 => w.life
  | 8, 8 => s.lifeLimit.2.1
  | 8, _ => s.lifeLimit.2.2
  | 9, 0 => bit01 w.roSpares
  | 9, 1 => bit01 w.roPe
  | 9, 2 => bit01 w.roNoParity
  | 9, 3 => bit01 w.roWearLost
  | 9, _ => bit01 s.flash.upkeep.starved
  | 18, _ => sumBy (fun e => e.2) w.retired
  | 19, 0 => s.chanThreshold n
  | 19, _ => s.flash.upkeep.halvings
  | 23, 0 => chanValue w.spareInit n
  | 23, _ => min (chanValue w.retired n) 0xFFFF
  | 24, 0 => s.eraseMean n .data
  | 24, _ => min (s.eraseMax n .data) 0xFFFF
  | 25, 0 => max (s.eraseMean n .map) (s.eraseMean n .parity)
  | 25, _ => min (max (s.eraseMax n .map) (s.eraseMax n .parity)) 0xFFFF
  | 26, _ => lifeOf (Frac.min (s.spareFraction n) (s.chanPe n))
  | i, 0 => chanValue w.spare (2 * (i - 10))
  | i, _ => chanValue w.spare (2 * (i - 10) + 1)

/-! The channel pages and ECC. -/

/-- The record of channel `n`. -/
def State.chan? (s : State) (n : Nat) : Option Chan := s.flash.chans.find? (fun c => c.id == n)

/-- An interface minimum of a profile in the order TADL, TCCS, TWHR, TRHW, TCS (Table 13-4). -/
def Profile.minimum (p : Profile) : Nat → Nat
  | 0 => p.tadl
  | 1 => p.tccs
  | 2 => p.twhr
  | 3 => p.trhw
  | _ => p.tcs

/-- The count of interface minimum `i` on a channel (R337). -/
def Chan.count (c : Chan) (p : Profile) (i : Nat) : Nat :=
  if !c.configured then 0
  else if c.sdr then
    if c.fast then ceilDiv (Config.sdrMinimum i * c.countKhz) 2000000 else ceilDiv (Config.sdrMinimum i * 25000) 1000000
  else ceilDiv (p.minimum i * c.countKhz) 2000000

/-- RATE of a channel (R336). -/
def Chan.rate (c : Chan) (p : Profile) (lo : Nat) : Nat :=
  match lo with
  | 0 => if !c.configured then 0 else if c.sdr then 10 else c.khz / max 1 c.k / 1000
  | 16 => if !c.configured || c.sdr then 0 else c.k
  | 20 => bit01 c.sdr
  | 21 => bit01 c.reconf
  | _ => if !c.configured || c.sdr then 0 else (Config.timingMode p.iface (c.khz / max 1 c.k)).toNat

/-- CHn, channel `n` (Table 13-9); the entry's fields read 0 where it is invalid or absent. DESIGN CHOICE: log entry 10. -/
def State.liveCh (s : State) (n index lo : Nat) : Nat :=
  match index, lo with
  | 13, 0 => s.diesPresent n
  | 13, _ => maskOf 16 (fun t => ((s.die? (16 * n + t)).map (fun x => x.failed)).getD false)
  | 14, 0 => s.rd Reg.FIRMWARE.IFACE.MC_IF
  | 14, _ => bit01 (s.minimal || s.safeIf)
  | index, lo =>
    match s.chanProfile n, s.chan? n with
    | some p, some c =>
      let e := s.population n
      match index, lo with
      | 8, 0 => 1
      | 8, 1 => e.profile
      | 8, 2 => bit01 e.volume
      | 8, 3 => p.iface
      | 8, 4 => e.dies
      | 8, _ => p.luns
      | 9, lo => c.rate p lo
      | 10, 0 => c.count p 0
      | 10, _ => c.count p 1
      | 11, 0 => c.count p 2
      | 11, _ => c.count p 3
      | 12, _ => c.count p 4
      | _, _ => p.suspHoldMax
    | some _, none => 0
    | none, _ => 0

/-- Soft decoders busy. -/
def State.softBusy (s : State) : Nat := count (fun (w : Codeword) => w.decoder.isSome) s.flash.words

/-- Codewords whose further reads have ended and that wait for a soft decoder. -/
def State.softQueued (s : State) : Nat :=
  count (fun (w : Codeword) => w.soft && w.reads == 3 && w.decoder.isNone) s.flash.words

/-- ECC.SOFT_STATE (Table 13-11). -/
def State.liveEcc (s : State) (lo : Nat) : Nat :=
  match lo with
  | 0 => s.softBusy
  | _ => min s.softQueued 255

/-! Pages 0x21 to 0x28. -/

/-- REMOVAL (Table 12-10). -/
def State.liveRemoval (s : State) (index lo : Nat) : Nat :=
  match index, lo with
  | 9, _ => bitsOf (s.cell 16) 15 1
  | 10, _ => s.count48 removalCells
  | 11, _ => s.count48 removalCells >>> 32
  | 12, 0 => s.cell 15
  | 12, 8 => s.cell 15 >>> 8
  | 12, 16 => s.cell 16
  | 12, _ => bitsOf (s.cell 16) 10 5
  | 13, 0 => bit01 s.power.vholdOk
  | 13, _ => bit01 (!s.power.vholdOk && !s.minimal)
  | _, _ => s.scanSet

/-- RESET (Table 14-14). -/
def State.liveReset (s : State) (index lo : Nat) : Nat :=
  match index, lo with
  | 10, _ => bit01 s.openMode
  | 11, _ => s.count48 resetCells
  | 12, _ => s.count48 resetCells >>> 32
  | 13, 0 => s.cell 5
  | 13, _ => s.cell 6
  | 14, 0 => s.cell 7
  | 14, _ => s.cell 8
  | _, 0 => s.cell 9
  | _, _ => s.cell 10

/-- OPTION (Table 14-16). -/
def State.liveOption (s : State) (index : Nat) : Nat :=
  if index = 12 then bit01 s.opt.commit.isSome
  else storeLE s.opt.staging (64 * s.rd Reg.OPTION.STAGE_SEL.BLOCK + 4 * (index - 16)) 4

/-- The sources that hold the pending escalation (R372). -/
def State.holding (s : State) : List Source := if s.escPending then s.sources 2 else []

/-- ESCALATE (Table 15-8). -/
def State.liveEscalate (s : State) (index lo : Nat) : Nat :=
  let pads := s.alertSensed
  match index, lo with
  | 10, _ => if s.escPending then s.rd Reg.ESCALATE.FAULT_GRACE.CCLK - s.esc.count else 0
  | 12, 0 => bit01 s.alertLatch
  | 12, 1 => bit01 pads.1
  | 12, 2 => bit01 pads.2
  | 12, _ => bit01 s.faultsOnly
  | 13, 0 => s.alertPresent
  | 13, _ => s.alertAsserting
  | 16, _ => maskOf 32 (fun p => s.holding.any (fun x => x.1 == p))
  | 17, _ => maskOf 9 (fun p => s.holding.any (fun x => x.1 == 32 + p))
  | 18, _ => maskOf 32 (fun b => s.holding.any (fun x => banked x.1 && x.2.1 == b))
  | _, _ => maskOf 32 (fun b => s.holding.any (fun x => banked x.1 && x.2.1 == 32 + b))

/-- A slot state's code (Table 16-1). -/
def slotNumber : SlotState → Nat
  | .empty => 0 | .staged => 1 | .probation => 2 | .confirmed => 3 | .previous => 4 | .rejected => 5

/-- FIRMWARE (Table 16-8). -/
def State.liveFirmware (s : State) (index lo : Nat) : Nat :=
  match index, lo with
  | 8, 0 => if s.minimal then 2 else if s.probation then 1 else 0
  | 8, 2 => bit01 s.safeIf
  | 8, 3 => bit01 (s.probation && s.fw.shadow.isSome)
  | 8, 4 => ((s.fw.run.map (fun r => r.main)).getD 3)
  | 8, 6 => ((s.fw.run.bind (fun r => if r.safeIf then none else r.mc.map (fun m => m - 2))).getD 3)
  | 8, _ => bit01 ((s.fw.run.map (fun r => r.fallback)).getD false)
  | 9, lo => slotNumber (s.fwSlot (lo / 4)).st
  | 10, 0 => s.cell 21
  | 10, 8 => s.cell 21 >>> 8
  | 10, _ => s.cell 22
  | 14, 0 => ((s.fw.settings.map (fun x => x.fmt)).getD 0)
  | 14, _ => ((s.fw.shadow.map (fun x => x.2.fmt)).getD 0)
  | 15, _ => ((s.fw.settings.map (fun x => x.seq)).getD 0)
  | _, 0 => maskOf 4 (fun k => ((s.fuses.keysSensed[k]?).map (fun x => x.programmed)).getD false)
  | _, 4 => maskOf 4 (fun k => ((s.fuses.keysSensed[k]?).map (fun x => x.revoked)).getD false)
  | _, _ => ((s.fw.run.map (fun r => r.key)).getD 0)

/-- POWER (Table 17-8). -/
def State.livePower (s : State) (index lo : Nat) : Nat :=
  match index, lo with
  | 8, 0 => s.temp.value
  | 8, 16 => bit01 s.temp.valid
  | 8, _ => bit01 s.temp.alarm
  | 11, 0 => s.diesBusy
  | 11, _ => s.dieBudget
  | 13, 0 => s.cell 24
  | 13, 8 => s.cell 24 >>> 8
  | 13, _ => bit01 s.wakePending
  | _, 0 => s.cell 26
  | _, _ => s.cell 27

/-- TEST (Table 21-7). -/
def State.liveTest (s : State) (index lo : Nat) : Nat :=
  let busy (p : FuseTarget → Bool) : Nat := bit01 ((s.fuses.busy.map p).getD false)
  match index, lo with
  | 9, 0 => bit01 s.ftm
  | 9, 1 => bit01 s.fuses.sealSensed
  | 9, 2 => bit01 s.power.testEn
  | 9, _ => bit01 (s.ftm && s.bit Reg.TEST.WD_CTRL.STOP)
  | 11, _ => busy FuseTarget.fuseProg
  | _, _ => busy (fun t => !t.fuseProg)

/-! Header views. -/

/-- BLOCK_STAT.BUSY: the block has work under way (R44, log entry 32). -/
def State.busy (s : State) (page bank : Nat) : Bool :=
  if page = 6 then (s.slice bank).st == .resetting || (s.slice bank).st == .destroying
  else if page = 8 then !s.descs.isEmpty
  else if page = 0x0C then !s.flash.map.fetching.isEmpty
  else if page = 0x0D then
    s.cmds.any (fun c => c.opcode == opRest && c.phase == .waiting) || s.hasWork (fun r => r.work == .forced) ||
      s.flash.dies.any (fun x => x.stepOf (fun r => r.work == .other && r.who != 65))
  else if page = 0x0E then s.flash.dies.any (fun x => x.stepOf (fun r => r.work == .other && r.who == 65))
  else if page = 0x20 then !s.flash.words.isEmpty
  else if 0x10 ≤ page ∧ page ≤ 0x1F then (s.chanDies (page - 0x10)).any Die.atWork
  else if page = 0x23 then s.opt.commit.isSome
  else if page = 0x28 then s.fuses.busy.isSome
  else false

/-- Does RESET_ACTIVE of a page read 1 (R49)? On a SLICE bank it does while the Slice is RESETTING (R56). -/
def State.pageResetting (s : State) (page bank : Nat) : Bool :=
  if page = 6 then (s.slice bank).st == .resetting else s.bit (resetActive page bank)

/-! Words. -/

/-- A field that is a view of other state. -/
def State.live (s : State) (f : Field) : Nat :=
  if f.index = 2 then bit01 (s.busy f.page f.bank)
  else if 0x10 ≤ f.page ∧ f.page ≤ 0x1F then s.liveCh (f.page - 0x10) f.index f.lo
  else match f.page with
    | 0x00 => s.liveIdent f.index f.lo
    | 0x01 => s.liveLink f.lo
    | 0x02 => s.liveLinkerr f.index f.lo
    | 0x03 => s.liveShelf f.index f.lo
    | 0x04 => s.cmds.length
    | 0x05 => s.liveSlicetab f.index
    | 0x06 => s.liveSlice f.bank f.index f.lo
    | 0x07 => s.liveQueue f.bank f.index f.lo
    | 0x08 => s.liveDma f.index f.lo
    | 0x09 => s.liveArb f.lo
    | 0x0A => s.liveArbcnt f.index
    | 0x0B => maxBy (fun n => s.wdFloor (16 * n)) s.populated
    | 0x0C => s.liveFtl f.index f.lo
    | 0x0D => s.liveUpkeep f.index f.lo
    | 0x0E => s.liveProof f.index f.lo
    | 0x0F => s.liveWear f.index f.lo
    | 0x20 => s.liveEcc f.lo
    | 0x21 => s.liveRemoval f.index f.lo
    | 0x22 => s.liveReset f.index f.lo
    | 0x23 => s.liveOption f.index
    | 0x24 => s.liveEscalate f.index f.lo
    | 0x25 => s.liveFirmware f.index f.lo
    | 0x26 => s.livePower f.index f.lo
    | _ => s.liveTest f.index f.lo

/-- What a field reads (R51): a write-only field reads 0; mask bits read 1 under the faults-only restriction (R379). -/
def State.regField (s : State) (f : Field) : Nat :=
  if f.acc == .wo then 0
  else if f.live then s.live f % 2 ^ f.width
  else if f.page == 6 && f.index == 2 && f.lo == 2 then bit01 (s.pageResetting 6 f.bank)
  else if f.page == 0x24 && f.index == 14 && f.lo == 2 && s.faultsOnly then 7
  else s.rd f

/-- PAGE_ID (R44): BLOCK_TYPE, LAYOUT 0x01 and PAGE; BLOCK_TYPE reads 0 for an absent channel (R2). -/
def State.pageId (s : State) (page : Nat) : Nat :=
  (if s.chanAbsent page then 0 else blockType page) + 2 ^ 16 + 2 ^ 24 * page

/-- Does a register word read 0 whatever its fields hold: of an absent channel (R2), of the bank of a FREE Slice but for its
STATE (R55), of the TEST page outside factory test mode (R485)? -/
def State.wordHidden (s : State) (page bank index : Nat) : Bool :=
  s.chanAbsent page || (banked page && (s.slice bank).st == .free && !(page == 6 && index == 8)) ||
    (page == 0x28 && !s.ftm && (index == 8 || decide (10 ≤ index)))

/-- A register word. -/
def State.regWord (s : State) (page bank index : Nat) : Nat :=
  if index = 0 then s.pageId page
  else if s.wordHidden page bank index then 0
  else sumBy (fun f => if f.index = index then s.regField f * 2 ^ f.lo else 0) (pageFields page bank)

/-- The words of the SNAP group whose word 0 is index `i` of a page, 0 where it begins none (Table 20-6). -/
def snapLength (page i : Nat) : Nat :=
  if 0x10 ≤ page ∧ page ≤ 0x1F then (if i = 16 then 6 else 0)
  else match page, i with
    | 0x02, 8 => 8
    | 0x03, 14 => 2
    | 0x04, 10 => 2
    | 0x08, 15 => 3
    | 0x08, 19 => 3
    | 0x0A, 8 => 24
    | 0x0C, 10 => 8
    | 0x0D, 8 => 5
    | 0x0D, 19 => 5
    | 0x0E, 14 => 6
    | 0x0F, 23 => 4
    | 0x20, 10 => 6
    | 0x21, 10 => 3
    | 0x22, 11 => 5
    | 0x24, 16 => 4
    | _, _ => 0

/-- What the sampling of index `i` on one edge adds to the words that a REGREAD has read, by index (R60, R61): nothing where the
index is latched already, the whole SNAP group where it is a group's word 0, else the one word. -/
def State.sampleWord (s : State) (page bank i : Nat) (got : List (Nat × Nat)) : List (Nat × Nat) :=
  if got.any (fun e => e.1 == i) then got
  else got ++ (rangeFrom i (max 1 (snapLength page i))).map (fun k => (k, s.regWord page bank k))

end Sys2Proof.Machine
end

