-- ==== Sys2Proof/Machine/RegCmds.lean ====
section
/-!
DEFINITION. REGREAD and REGWRITE after their decode (R53–R63, Table 3-4 check 6), and the landing of a capacity that was
lowered (R171).
-/
namespace Sys2Proof.Machine

/-! REGREAD. -/

/-- Must a register command wait: an earlier-stamped one has not taken effect, or it reaches indices 8 to 31 of a page whose
RESET_ACTIVE reads 1 (R62)? -/
def State.regHeld (s : State) (c : Cmd) (bank : Nat) : Bool :=
  (s.earlier c.q).any (fun d => isRegOp d.opcode && !d.done?) ||
    (decide (8 < c.regIndex + c.regCount) && s.pageResetting c.regPage bank)

/-- The words that a REGREAD has read, 4 bytes each, little-endian. -/
def Cmd.wordsRead (c : Cmd) : Nat :=
  sumBy (fun k => ((c.snap.find? (fun e => e.1 == c.regIndex + k)).map (fun e => e.2)).getD 0 * 2 ^ (32 * k))
    (rangeFrom 0 c.regCount)

/-- The last word has been sampled: the words go out in one data frame, or behind the completion bytes in ID mode (R72, R118). -/
def State.sendWords (s : State) (c : Cmd) : State :=
  if c.idMode then s.complete c.q stOk 0 c.wordsRead (4 * c.regCount)
  else
    ((s.setCmd c.q (fun c => { c with upSent := true })).enqueue
      (upFrame s c .dataUp 0 (ceilDiv (4 * c.regCount) 64) c.wordsRead)).complete c.q stOk

/-- A REGREAD samples its next register on this edge, in ascending index order (R60, R61). -/
def State.sampleNext (s : State) (c : Cmd) : State :=
  let c := { c with phase := CmdPhase.sampling, done := c.done + 1,
                    snap := s.sampleWord c.regPage ((s.regBank c).getD 0) (c.regIndex + c.done) c.snap }
  let s := s.setCmd c.q (fun _ => c)
  if c.done < c.regCount then s else s.sendWords c

/-- REGREAD (R54, R60–R62, R118): the first word is sampled, the others on the consecutive edges, by one tick each. A row that
names a REGREAD that is sampling is its next edge. DESIGN CHOICE: log entry 20. -/
def execRegread (q : Nat) (s : State) : Answer :=
  (if (s.cmd? q).any (fun c => c.phase == .sampling) then s.onCmd q opRegread .sampling s.sampleNext
   else s.onCmd q opRegread .decoded (fun c => if s.regHeld c ((s.regBank c).getD 0) then s else s.sampleNext c)).done

/-- One edge of every REGREAD that is sampling (R60). -/
def State.sampleAll (s : State) : State :=
  (s.cmds.filter (fun c => c.phase == .sampling)).foldl (fun (s : State) c => s.onCmd c.q opRegread .sampling s.sampleNext) s

/-- Does a REGWRITE write the stored configuration of a Slice, whose program waits until VHOLD_OK reads 1 (R310)? -/
def State.storeHeld (s : State) (c : Cmd) : Bool :=
  !s.power.vholdOk && c.regPage == 6 &&
    (c.covers 9 || c.covers 10 || c.covers 11 || c.covers 15 || (rangeFrom 17 8).any (fun k => c.covers k))

/-! Check 6. -/

/-- The words that a REGWRITE carries. -/
def Cmd.regData (c : Cmd) : Nat := c.payload.headD 0

/-- The word that a REGWRITE writes at an index. -/
def Cmd.regWord (c : Cmd) (i : Nat) : Nat := bitsOf c.regData (32 * (i - c.regIndex)) 32

/-- Does the command write index `i` with a word that `p` rejects? -/
def Cmd.rejects (c : Cmd) (i : Nat) (p : Nat → Bool) : Bool := c.covers i && p (c.regWord i)

/-- The capacity that a REGWRITE leaves: a half that it does not write keeps its value. -/
def State.newCapacity (s : State) (c : Cmd) (i : Nat) : Nat :=
  let cap := (s.slice i).cfg.cap
  (if c.covers 9 then c.regWord 9 else cap % 2 ^ 32) + 2 ^ 32 * (if c.covers 10 then c.regWord 10 % 256 else cap / 2 ^ 32)

/-- The binding key registers that a REGWRITE covers. -/
def Cmd.keyWords (c : Cmd) : Nat := Machine.count (fun (k : Nat) => c.covers k) (rangeFrom 17 8)

/-- Check 6 on a SLICE bank (R188, R190). -/
def State.sliceBad (s : State) (c : Cmd) (i : Nat) : Bool :=
  let cfg := (s.slice i).cfg
  let cap := s.newCapacity c i
  ((c.covers 9 || c.covers 10) && s.capacityBad i cap c.orig) ||
  c.rejects 11 (fun w => qosBad (w % 4) (bitsOf w 8 8) (bitsOf w 16 9)) ||
  (c.keyWords != 0 && c.keyWords != 8) ||
  c.rejects 15 (fun w => bitAt w 0 &&
    decide (s.rd Reg.SLICETAB.PIN_BUDGET.BUDGET < cap + (if cfg.pin then s.pinUsed - cfg.cap else s.pinUsed)))

/-- Check 6 on an ALARM_HI: −60.0 to +135.0 °C (R427). -/
def alarmBad (v : Nat) : Bool := decide (signed10 v < -120) || decide (270 < signed10 v)

/-- Check 6 of Table 3-4: the bank's Slice exists, and every written value lies within the range of its field. -/
def State.valuesBad (s : State) (c : Cmd) (bank : Nat) : Bool :=
  match c.regPage with
  | 0x03 => c.rejects 13 (fun w => w % 256 == 0xFF)
  | 0x06 => (s.slice bank).st == .free || s.sliceBad c bank
  | 0x07 => (s.slice bank).st == .free || c.rejects 9 (fun w => w % 64 == 0 || decide (32 < w % 64)) ||
      c.rejects 10 (fun w => decide (32 < w % 64) || decide (64 < bitsOf w 8 7))
  | 0x08 => c.rejects 12 (fun w => decide (32 < w % 64) || decide (64 < bitsOf w 8 7)) ||
      c.rejects 18 (fun w => decide (1023 < w))
  | 0x09 => c.rejects 9 (fun w => decide (8 < w % 16)) ||
      c.rejects 11 (fun w => (rangeFrom 0 4).any (fun k => byteField w k 8 == 0)) ||
      c.rejects 12 (fun w => decide (8 < w % 16) || decide (16 < bitsOf w 8 5)) ||
      c.rejects 13 (fun w => !s.chanPresent (w % 16))
  | 0x0D => c.rejects 16 (fun w => decide (w % 2 ^ 24 < s.flash.upkeep.reserve + 2 * s.flash.dies.length))
  | 0x0F => c.rejects 22 (fun w => !s.chanPresent (w % 16))
  | 0x26 => c.rejects 9 (fun w => alarmBad (bitsOf w 16 10)) ||
      c.rejects 10 (fun w => decide (256 < w % 512) || decide (256 < bitsOf w 16 9))
  | 0x28 => c.rejects 8 (fun w => bitAt w 31 && !injectable (w % 256) (bitsOf w 16 5)) ||
      c.rejects 11 (fun w => decide (359 < w % 512))
  | _ => false

/-! Landing. -/

/-- What a field stores of a written value: the clamps of the tables. -/
def clampField (f : Field) (v : Nat) : Nat :=
  match f.page, f.index, f.lo with
  | 0x03, 10, 8 => max 8 v
  | 0x04, 9, 0 => min 30 (max 16 v)
  | 0x08, 8, 0 => min 1024 (max 256 v)
  | 0x09, 8, 8 => max 8 v
  | 0x09, 10, 0 => min 32 (max 1 v)
  | 0x0B, 8, 0 => max 0x10000 v
  | 0x26, 9, 0 => min 26 (max 16 v)
  | _, _, _ => v

/-- A stored field takes its part of a written word (R51): read-write fields store it, clamped where their table says so, a
W1C field falls; the ALERT mask ignores writes under the faults-only restriction (R379). -/
def State.writeField (s : State) (f : Field) (w : Nat) : State :=
  let v := bitsOf w f.lo f.width
  match f.acc with
  | .rw =>
    if f.live || (f.page == 0x24 && f.index == 14 && s.faultsOnly) then s
    else s.wr f (clampField f v)
  | .w1c => if f.live then s else s.wr f (clearBits (s.rd f) v)
  | .ro => s
  | .w1s => s
  | .wo => s
  | .snap => s

/-- The stored fields of one register word. -/
def State.writeFields (s : State) (page bank index w : Nat) : State :=
  ((Reg.blockFields page).map (fun f => f.inBank (bankOf page bank))).foldl (fun (s : State) f =>
    if f.index = index then s.writeField f w else s) s

/-- BLOCK_CTRL but for SOFT_RST (R48, R50). -/
def State.writeCtrl (s : State) (page bank w : Nat) : State :=
  ((s.enable page (bitAt w 1)).isolate page (bitAt w 2)).freshParity page (bankOf page bank) 1

/-- One register word lands; `met` are the sticky bits of that register that the hardware sets on the same edge (R63). -/
def State.writeWord (s : State) (page bank index w met : Nat) : State :=
  if index = 0 ∨ index = 2 then s
  else if index = 1 then s.writeCtrl page bank w
  else if index < 8 then s.writeHeader page bank index w met
  else s.writeFields page bank index w

/-- Four bytes of the option store's staging buffer. -/
def storeWord (m : Store) (a w : Nat) : Store :=
  (rangeFrom 0 4).foldl (fun (m : Store) k => storeWrite m (a + k) (byteField w k 8)) m

/-- The staging words of a REGWRITE go to the block that STAGE_SEL holds after the write (R366). -/
def State.writeStage (s : State) (c : Cmd) : State :=
  let a := 64 * s.rd Reg.OPTION.STAGE_SEL.BLOCK
  { s with opt := { s.opt with staging := (rangeFrom 16 16).foldl (fun (m : Store) i =>
      if c.covers i then storeWord m (a + 4 * (i - 16)) (c.regWord i) else m) s.opt.staging } }

/-- What a REGWRITE of a SLICE bank configures, but for its capacity (R166, R187, R188). -/
def State.writeSlice (s : State) (c : Cmd) (i : Nat) : State :=
  let w := c.regWord 11
  let s := if c.covers 11 then s.writeQos i (w % 4) (bitsOf w 8 8) (bitsOf w 16 9) else s
  let s := if c.covers 15 then s.writePin i (bitAt (c.regWord 15) 0) else s
  if c.keyWords = 8 then
    s.setCfg i (fun cfg => { cfg with bindKey := sumBy (fun k => c.regWord (17 + k) * 2 ^ (32 * k)) (rangeFrom 0 8) })
  else s

/-- Every register of a REGWRITE lands on one edge (R59). -/
def State.landWords (s : State) (c : Cmd) (bank : Nat) (met : List (Nat × Nat)) : State :=
  let page := c.regPage
  if s.chanAbsent page then s
  else
    let before := s
    let s : State := (rangeFrom c.regIndex c.regCount).foldl (fun (s : State) i =>
      s.writeWord page bank i (c.regWord i) (storeRead met i)) s
    let s := if page = 6 ∧ (c.covers 9 ∨ c.covers 10) then s.landCapacity bank (before.newCapacity c bank) else s
    let s := if page = 6 then s.writeSlice c bank else s
    if page = 0x23 then s.writeStage c else s

/-- Is bit `b` of index `i` written 1? -/
def Cmd.sets (c : Cmd) (i b : Nat) : Bool := c.covers i && bitAt (c.regWord i) b

/-- The Crust's W1C bits. -/
def State.clearCrust (s : State) (c : Cmd) : State :=
  let s := if c.regPage = 0x21 ∧ c.sets 9 2 then s.cellBit 16 15 false else s
  if c.regPage = 0x26 ∧ c.covers 13 then s.clearWake (c.regWord 13 % 32) else s

/-- The fuse programming that a REGWRITE starts (R479). -/
def State.startFuses (s : State) (c : Cmd) : State :=
  let both := c.sets 11 13 && c.sets 12 3
  let w := c.regWord 11
  let k := c.regWord 12
  let s := if c.sets 11 13 then
      s.fuseGo (if bitAt w 12 then .seal else .entry (w % 512) (bitsOf w 9 3)) (bitsOf w 24 8) both
    else s
  if c.sets 12 3 then
    s.fuseGo (if bitAt k 2 then .revoke (k % 4) else .key (k % 4) s.keyDigest) (bitsOf k 24 8) both
  else s

/-- The actions that written fields start, on the edge after the landing (R59); `cs` are the commands stamped before the
REGWRITE, which a Slice reset ends (R56). DEDUCED: log entry 21. -/
def State.regActions (s : State) (c : Cmd) (bank : Nat) (cs : List Cmd) : State :=
  match c.regPage with
  | 0x06 =>
    let s := if c.sets 16 9 then s.clearAuth bank else s
    if c.sets 1 0 then s.sliceSoftReset bank cs else s
  | 0x07 => if c.sets 12 31 then s.clearHwm bank else s
  | 0x0D =>
    let s := if c.sets 18 8 then s.startPatrol else s
    if c.sets 1 0 then s.softReset 0x0D else s
  | 0x23 =>
    let s := if c.sets 12 0 then s.commitGo else s
    if c.sets 13 0 then s.stageLoad else s
  | 0x26 =>
    let s := if c.sets 12 31 then { s with temp := { s.temp with fresh := true } } else s
    if c.sets 15 0 then s.latchWake 3 else s
  | 0x28 =>
    let s := if c.sets 8 31 then s.inject (c.regWord 8 % 256) (bitsOf (c.regWord 8) 8 6) (bitsOf (c.regWord 8) 16 5) else s
    s.startFuses c
  | page => if c.sets 1 0 && !s.chanAbsent page then s.softReset page else s

/-- A REGWRITE that has passed its checks lands and completes; on the following edge it posts attention for the enables that it set
and acts (R46, R59). -/
def State.landWrite (s : State) (c : Cmd) (bank : Nat) (met : List (Nat × Nat)) : State :=
  let cs := s.earlier c.q
  let before := s
  let s := (((s.landWords c bank met).clearCrust c).complete c.q stOk).endEdge
  ((if s.chanAbsent c.regPage then s else State.postEnables before s c.regPage bank).regActions c bank cs).debtSettle

/-- REGWRITE (R53–R63, R171): check 6, then every register on one edge; a write that lowers a capacity waits as BARRIER
does. `met` gives, by index, the sticky bits that the hardware sets on the landing edge (R63). -/
def execRegwrite (q : Nat) (met : List (Nat × Nat)) (s : State) : Answer :=
  (s.onCmd q opRegwrite .ready (fun c =>
    let bank := (s.regBank c).getD 0
    if s.regHeld c bank then s
    else if s.valuesBad c bank then s.complete q stOutOfRange
    else if s.storeHeld c then s
    else if c.regPage = 6 ∧ (c.covers 9 ∨ c.covers 10) ∧ s.newCapacity c bank < (s.slice bank).cfg.cap then
      (s.setCmd q (fun c => { c with phase := .waiting })).setSlice bank (fun sl =>
        { sl with lowering := some (q, s.newCapacity c bank) })
    else s.landWrite c bank met)).done

/-- CAPACITY_LOWER_LAND (R171): every earlier-stamped command of the Slice has completed; the REGWRITE that was held lands
whole. A later Slice reset holds the landing while RESET_ACTIVE reads 1 (R62), and so does VHOLD_OK at 0 (R310). -/
def execCapacityLowerLand (slice : Nat) (s : State) : Answer :=
  match (s.slice slice).lowering with
  | some (q, cap) =>
    if s.clocked && s.sliceQuiet q slice && !s.pageResetting 6 slice && s.power.vholdOk then
      let s := s.setSlice slice (fun sl => { sl with lowering := none })
      (match s.cmd? q with
        | some c => if c.opcode == opRegwrite && c.phase == CmdPhase.waiting then s.landWrite c slice []
            else s.landCapacity slice cap
        | none => s.landCapacity slice cap).done
    else .next s
  | none => .next s

end Sys2Proof.Machine
end

