-- ==== Sys2Proof/Machine/QueueRows.lean ====
section
/-!
DEFINITION. The decoder (R195, R210, R215, R250), staging reservations (R211) and ATTN_FETCH (R200–R206).
-/
namespace Sys2Proof.Machine

/-! COMMAND_DECODE. -/

/-- A fresh descriptor of a command. -/
def newDesc (index q : Nat) (st : DescState) : Desc :=
  { index := index, q := q, st := st, offset := 0, next := 0, parkedOn := none, before := st, reserved := 0, waited := false,
    found := [], fetched := false }

/-- Descriptors that have ended on an earlier edge are FREE (R213). -/
def State.freeDescs (s : State) : State := { s with descs := s.descs.filter (fun d => d.st != .ending) }

/-- Put a descriptor among those in use. -/
def State.allocate (s : State) (q : Nat) (st : DescState) : State :=
  let s := s.freeDescs
  { s with descs := s.descs ++ [newDesc s.freeDesc q st] }

/-- A WRITE or TRIM draws its commit sequence (R250). -/
def State.drawSeq (s : State) (q : Nat) : State :=
  let n := s.flash.map.commitSeq + 1
  (s.onMap (fun m => { m with commitSeq := n })).setCmd q (fun c => { c with seqNo := n })

/-- What the decode of a command that has passed its checks begins. -/
def State.decoded (s : State) (c : Cmd) : State :=
  let o := c.opcode
  if (o = opRead ∨ o = opVerify) ∧ c.count ≠ 0 then s.allocate c.q .active
  else if o = opWrite ∧ c.count ≠ 0 then (s.allocate c.q .waitStage).drawSeq c.q
  else if o = opTrim ∧ c.count ≠ 0 then s.drawSeq c.q
  else if o = opStage then
    let slot := s.stagingSlot (c.field 0 8)
    let s := (s.allocate c.q .waitStage).setCmd c.q (fun c => { c with slice := slot })
    match slot with
    | some i => if c.field 4 32 = 0 then s.discardSlot i else s
    | none => s
  else if o = opFetch then s.setCmd c.q (fun c => { c with rings := s.fetchRings c.orig })
  else if o = opRegwrite then
    if c.idMode then s.setCmd c.q (fun c => { c with phase := .ready }) else s.dataReq c
  else s

/-- A command is popped and decoded (R195, R120). -/
def State.decode (s : State) (c : Cmd) : State :=
  let c := { c with phase := CmdPhase.decoded, popped := true }
  let s := s.setCmd c.q (fun _ => c)
  let st := s.decodeChecks c
  if st ≠ stOk then s.complete c.q st else s.decoded c

/-- COMMAND_DECODE (R193, R195): what the decoder pops on a CCLK edge. The firmware core runs it: nothing is decoded while it
is held (R354). -/
def execCommandDecode (s : State) : Answer :=
  if s.up then
    match s.popped with
    | some c => (s.decode c).done
    | none => .next s
  else .next s

/-! STAGING_RESERVED. -/

/-- Staging sectors that a command reserves (R211). -/
def Cmd.stageNeed (c : Cmd) : Nat := if c.opcode = opStage then ceilDiv (c.field 8 32) 4096 else c.count

/-- Staging sectors reserved by Slice `i`. -/
def State.sliceStaged (s : State) (i : Nat) : Nat :=
  sumBy (fun (d : Desc) =>
    match s.cmd? d.q with
    | some c => if c.opcode = opWrite ∧ c.ring = some i then d.reserved else 0
    | none => 0) s.descs

/-- Does its Slice's cap hold a WRITE that waits for staging? -/
def State.stageCapped (s : State) (c : Cmd) : Bool :=
  c.opcode == opWrite && (match c.ring with
    | some i => decide (s.rd Reg.DMA.STAGE_CFG.SLICE_MAX < s.sliceStaged i + c.stageNeed)
    | none => false)

/-- The next reservation: the first waiting command, in stamp order, that its Slice's cap does not hold. -/
def State.nextStage (s : State) : Option Cmd :=
  s.cmds.find? (fun c =>
    (match s.desc? c.q with
      | some d => d.st == .waitStage
      | none => false) && !c.done? && !s.stageCapped c)

/-- Write staging sectors reserved in all. -/
def State.staged (s : State) : Nat := sumBy (fun d => d.reserved) s.descs

/-- The reservation is granted and the card asks for the data (R15, R211), unless an ABORT takes effect before the DATA_REQ (Table
5-8). -/
def State.reserve (s : State) (c : Cmd) : State :=
  if !c.abortedBy.isEmpty then s.endCmd c.q stAborted
  else (s.setDesc c.q (fun d => { d with st := .data, before := .data, reserved := c.stageNeed })).dataReq c

/-- STAGING_RESERVED (R211). -/
def execStagingReserved (s : State) : Answer :=
  if s.clocked then
    match s.nextStage with
    | some c => if s.staged + c.stageNeed ≤ 1024 then (s.reserve c).done else .next s
    | none => .next s
  else .next s

/-! ATTN_FETCH. -/

/-- KIND of an entry (Table 8-2). -/
def kindNumber : AttnKind → Nat
  | .completion => 1 | .event => 2 | .fault => 3

/-- An entry's 16 bytes (Table 8-2). -/
def AttnEntry.bytes (e : AttnEntry) : Nat :=
  kindNumber e.kind + 2 ^ 8 * (e.b1 % 256) + 2 ^ 16 * (e.b2 % 256) + 2 ^ 24 * (e.b3 % 256) + 2 ^ 32 * (e.tag % 2 ^ 16) +
    2 ^ 48 * (e.seq % 2 ^ 16) + 2 ^ 64 * (e.order % 2 ^ 32) + 2 ^ 96 * (e.extra % 2 ^ 32)

/-- The oldest `n` entries of some rings: the list stands in posting order, the entries of one edge in that of R205. -/
def State.oldest (s : State) (rings : List Nat) (n : Nat) : List AttnEntry :=
  (s.attn.filter (fun e => rings.contains e.ring)).take n

/-- Mark the first `n` entries of the rings as being sent. -/
def markSending (rings : List Nat) : Nat → List AttnEntry → List AttnEntry
  | 0, l => l
  | _, [] => []
  | n + 1, e :: l =>
    if rings.contains e.ring then { e with sending := true } :: markSending rings n l
    else e :: markSending rings (n + 1) l

/-- ATTN_FETCH (R205, R206): the oldest entries go up in one data frame and leave their rings when it is acknowledged; with
none to return it completes at once. -/
def execAttnFetch (q : Nat) (s : State) : Answer :=
  (s.onCmd q opFetch .decoded (fun c =>
    let rings := c.rings
    let l := s.oldest rings (c.field 0 8)
    if l.isEmpty then s.complete q stOk (s.fetchResult rings)
    else
      let data := sumBy (fun e => (e.2 : AttnEntry).bytes * 2 ^ (128 * e.1)) ((rangeFrom 0 l.length).zip l)
      let s := { s with attn := markSending rings l.length s.attn }
      let s := s.setCmd q (fun c => { c with phase := .upData, upSent := true })
      s.enqueue (upFrame s c .dataUp 0 (ceilDiv (16 * l.length) 64) data))).done

end Sys2Proof.Machine
end

