-- ==== Sys2Proof/Machine/Steps.lean ====
section
/-!
DEFINITION. What every step on a die shares: whether the die is free for it, the array read, the decode of a codeword and what
its outcome brings about (R342–R346, Table 8-4), and the upkeep steps themselves (Table 10-1, R254, R255, R289).
-/
namespace Sys2Proof

/-! What a slot's outcome says. -/

/-- Does the slot need the three further reads of soft decode (R343, R345)? -/
def SlotOut.needsSoft : SlotOut → Bool
  | .hard _ => false
  | .soft => true
  | .fails _ => true
  | .tagBad afterSoft _ => afterSoft
  | .erased _ => false
  | .upBuffer => false

/-- Does a rebuild of the page succeed, where the slot needs one (R286)? -/
def SlotOut.rebuilds : SlotOut → Bool
  | .hard _ => true
  | .soft => true
  | .fails r => r
  | .tagBad _ r => r
  | .erased r => r
  | .upBuffer => true

/-- Does the slot fail hard and soft decode, or count as such (R344, R345)? -/
def SlotOut.failed : SlotOut → Bool
  | .hard _ => false
  | .soft => false
  | .fails _ => true
  | .tagBad _ _ => true
  | .erased _ => true
  | .upBuffer => false

end Sys2Proof

namespace Sys2Proof.Machine

/-- The wrapper of a page is open (R49, R50). -/
def State.wrapperOpen (s : State) (page : Nat) : Bool := !s.bit (isolateBit page 0) && !s.bit (resetActive page 0)

/-! Decode. -/

/-- The data of a slot. -/
def State.slotData (s : State) (d b p k : Nat) : Option Sector :=
  match s.page? d b p with
  | some y =>
    match y.slots[k]? with
    | some (some z) => some z.data
    | some none => none
    | none => none
  | none => none

/-- The refresh error limit of a die. -/
def State.refreshErr (s : State) (d : Nat) : Nat := ((s.dieProfile d).map (fun p => p.refreshErr)).getD 0

/-- The end of a codeword's decode: counters, faults and refresh flags (R269, R342–R346). -/
def State.decodeCounts (s : State) (d b : Nat) (out : SlotOut) : State :=
  match out with
  | .hard bits =>
    let s := s.tally Reg.ECC.HARD_OK.COUNT
    let s := s.wr Reg.ECC.MAX_BITS.BITS (max (s.rd Reg.ECC.MAX_BITS.BITS) (min bits 0xFFFF))
    if s.refreshErr d < bits then s.flagBlock d b else s
  | .soft => (s.tally Reg.ECC.SOFT_OK.COUNT).flagBlock d b
  | .fails _ => (s.tally Reg.ECC.FAILED.COUNT).flagBlock d b
  | .tagBad afterSoft _ =>
    let s := (s.report Src.ECC.TAG_MISMATCH).tally Reg.ECC.TAG_FAIL.COUNT
    if afterSoft then s.flagBlock d b else s
  | .erased _ => s.tally Reg.ECC.ERASED.COUNT
  | .upBuffer => s.tally Reg.ECC.HARD_OK.COUNT

/-- The end of a codeword's decode with the rebuild that a failure asks for (R286): the payload, where there is one. -/
def State.decodeEnds (s : State) (d b p k : Nat) (urgent : Bool) (out : SlotOut) : State × Option Sector :=
  let s := s.decodeCounts d b out
  if out.failed then
    let r := s.rebuild d b p out.rebuilds urgent
    (r.1, if r.2 then r.1.slotData d b p k else none)
  else (s, s.slotData d b p k)

/-- The three further reads of a page (R343). -/
def State.softReads (s : State) (d b : Nat) (urgent : Bool) : State :=
  ((s.arrayRead d b urgent).arrayRead d b urgent).arrayRead d b urgent

/-- The decode of one slot of a page that has been read, with the further reads that it needs. -/
def State.decodeSlot (s : State) (d b p k : Nat) (urgent : Bool) (out : SlotOut) : State × Option Sector :=
  State.decodeEnds (if out.needsSoft then s.softReads d b urgent else s) d b p k urgent out

/-- Due checkpoints. -/
def State.dueCount (s : State) : Nat := count (fun (b : Block) => b.due.isSome) s.flash.blocks

/-- A steady or bulk READ or VERIFY whose array reads, since state `before`, have made a checkpoint fall due carries the batch (R270). -/
def State.carryBatch (s before : State) (q : Nat) (urgent : Bool) : State :=
  if !urgent && decide (before.dueCount < s.dueCount) then
    s.addJob (s.mapBearer (some q)) .checkpoints s.mapDies
  else s

/-! The steps of upkeep. -/

/-- Does a request work on a block of the data region? -/
def Work.onData : Work → Bool
  | .sector _ => true
  | .soft _ => true
  | .page => true
  | .mapRead _ _ => false
  | .job _ => false
  | .forced => true
  | .other => true

/-- Does anything still need what the block holds: a READ's array read or codeword, a sector that a command In flight sees as it
was, a trim without its record, a WRITE that awaits its commit, an interrupted page (R253, R255)? -/
def State.blockNeeded (s : State) (d b : Nat) : Bool :=
  s.holdsMapped d b ||
  s.flash.dies.any (fun x => x.id == d && (x.reqs ++ x.queued ++ x.orphans ++ (x.holder.bind Holder.req?).toList).any (fun r =>
    r.block == b && r.op != .erase && r.work.onData)) ||
  s.flash.words.any (fun w => w.die == d && w.block == b) ||
  s.flash.map.trims.any (fun e => e.inBlock d b) ||
  s.flash.caught.any (fun e => e.inBlock d b) ||
  s.flash.map.snaps.any (fun n => match n.old with
    | some e => e.inBlock d b
    | none => false) ||
  s.flash.pages.any (fun p => p.die == d && p.block == b && p.slots.any (fun x => match x with
    | some y => s.awaited y
    | none => false))

/-- May an upkeep step erase the block (R254, R255)? DEDUCED: log entry 43. -/
def State.erasable (s : State) (d b : Nat) : Bool :=
  let x := s.block d b
  s.dieGood d && s.regionOf d b == .data && x.st == .closed && !s.proofing x && !s.blockNeeded d b

/-- An upkeep block erase (R254, R289, R298): the erased block joins the free blocks; a failed one is retired. -/
def State.eraseStep (s : State) (d b : Nat) (pass : Bool) : State :=
  let s := if pass then ((s.eraseBlock d b).wearLevel d).tally Reg.UPKEEP.ERASES.COUNT
    else (s.chTally Reg.CH.ERASE_FAILS.COUNT d).retire d b
  s.flashSettle

/-- A sector that a relocation could not read is mapped as lost (R255). -/
def State.loseSector (s : State) (e : MapEntry) : State :=
  if s.pageFailed e.slice e.lba then s else (s.dirty e.slice (e.lba / 1024)).setEntry { e with loc := .lost }

/-- The mapped slots of a page with their map entries (R249: a sector of a failed map page is moved by no relocation). -/
def State.mappedSlots (s : State) (d b p : Nat) : List (Nat × Slot × MapEntry) :=
  match s.page? d b p with
  | none => []
  | some y =>
    ((rangeFrom 0 y.slots.length).zip y.slots).filterMap (fun (e : Nat × Option Slot) =>
      match e.2 with
      | none => none
      | some z =>
        match s.entry z.slice z.lba with
        | some m =>
          if m.loc == .at d b p e.1 && !s.pageFailed z.slice z.lba then some (e.1, z, m) else none
        | none => none)

/-- Is a sector on its way still mapped to its source? -/
def State.stillMoving (s : State) (m : Moving) : Bool :=
  match s.entry m.slot.slice m.slot.lba with
  | some e => e.inPage m.die m.block m.page && !s.pageFailed m.slot.slice m.slot.lba
  | none => false

/-- Read one slot of a page for an upkeep step: a page that this step has rebuilt already needs no second rebuild. Answers
whether the payload is there, and whether the page has been rebuilt. -/
def State.stepSlot (s : State) (d b p k : Nat) (out : SlotOut) (rebuilt : Bool) : State × Bool × Bool :=
  if rebuilt && out.failed then
    ((if out.needsSoft then s.softReads d b false else s).decodeCounts d b out, true, true)
  else
    let r := s.decodeSlot d b p k false out
    (r.1, r.2.isSome, rebuilt || (out.failed && r.2.isSome))

/-- Is a slot of a page on its way already? -/
def State.onItsWay (s : State) (z : Slot) (d b p : Nat) : Bool :=
  s.flash.upkeep.moving.any (fun m => m.slot == z && m.die == d && m.block == b && m.page == p)

/-- Place a sector in the upkeep open block. -/
def State.lift (s : State) (m : Moving) : State :=
  s.onFlash (fun fl => { fl with upkeep := { fl.upkeep with moving := fl.upkeep.moving ++ [m] } })

/-- Decode the mapped slots of a source page that has been read and that are not on their way already; the good ones are placed in the upkeep
open block, the others are moved marked lost (R254, R255). -/
def State.liftPage (s : State) (d b p : Nat) (outs : List SlotOut) : State :=
  let l := s.mappedSlots d b p
  (l.foldl (fun (a : State × Bool) e =>
    let m : Moving := { slot := e.2.1, die := d, block := b, page := p, placed := false }
    if a.1.onItsWay m.slot d b p || !a.1.stillMoving m then a
    else
      let r := a.1.stepSlot d b p e.1 (outs.getD e.1 (.hard 0)) a.2
      if r.2.1 then (r.1.lift m, r.2.2)
      else
        match r.1.entry e.2.2.slice e.2.2.lba with
        | some x => (if x.loc == .lost then r.1 else r.1.loseSector x, r.2.2)
        | none => (r.1, r.2.2)) (s, false)).1

/-- Drop from the sectors on their way those that are no longer mapped to their source. -/
def State.sweepMoving (s : State) : State :=
  s.onFlash (fun fl => { fl with upkeep := { fl.upkeep with moving := fl.upkeep.moving.filter s.stillMoving } })

/-- Where the newest passed copy of a slot lies outside a page. -/
def State.copyOf (s : State) (m : Moving) : Option Mapped :=
  s.flash.pages.reverse.findSome? (fun q =>
    if q.passed && !(q.die == m.die && q.block == m.block && q.page == m.page) then
      (q.slots.findIdx? (fun w => w == some m.slot)).map (fun j => Mapped.at q.die q.block q.page j)
    else none)

/-- The page of a superblock's member has been relocated: it awaits nothing any more (R285). -/
def State.pageRelocated (s : State) (d b p : Nat) : State :=
  if s.pageValid d b p then s
  else
    match s.sbOf d b with
    | none => s
    | some x =>
      match x.memberOf d b with
      | none => s
      | some k =>
        let s := s.setSb x.id (fun x => { x with awaiting := x.awaiting.filter (fun e => e != (k, p)),
                                                  unread := x.unread.filter (fun e => e != (k, p)) })
        s.tryRelease x.id

/-- A block flagged for refresh whose last mapped sector has moved away counts as refreshed. -/
def State.refreshed (s : State) (d b : Nat) : State :=
  if (s.block d b).flagged && !s.holdsMapped d b then s.bump Reg.WEAR.REFRESHES.COUNT else s

/-- Is the map page of a sector on its way there to be changed: resident, or without flash copies (R245)? -/
def State.moveReady (s : State) (m : Moving) : Bool :=
  s.resident m.slot.slice (m.slot.lba / 1024) || !s.mapCopied m.slot.slice (m.slot.lba / 1024) ||
    s.pageFailed m.slot.slice m.slot.lba

/-- Fetch the map pages that sectors on their way need (R222, R248). -/
def State.fetchFor (s : State) (l : List Moving) : State :=
  l.foldl (fun (s : State) m =>
    if s.moveReady m then s else s.beginFetch m.slot.slice (m.slot.lba / 1024) none) s

/-- How many dirty pages must be written back before a change of `pages` (R247). -/
def State.dirtyExcess (s : State) (pages : List (Nat × Nat)) : Nat :=
  s.dirtyPages.length + (pages.filter (fun p => !s.dirtyPages.any (fun x => x.slice == p.1 && x.idx == p.2))).length - 1024

/-- The oldest dirty pages are written back before a change of `pages` that would exceed 1,024 of them: map work of command `q`, or of
none (R247). The pages of the change itself are kept. -/
def State.makeClean (q : Option Nat) (pages : List (Nat × Nat)) : Nat → State → State
  | 0, s => s
  | n + 1, s =>
    if s.dirtyExcess pages = 0 then s
    else
      let jobbed (p : CachedPage) : Bool := s.flash.jobs.any (fun j => j.work == .writeBack p.slice p.idx)
      let l := s.dirtyPages.filter (fun p => !jobbed p && !pages.contains (p.slice, p.idx))
      match l.foldl (fun (m : Option CachedPage) p =>
          match m with
          | none => some p
          | some x => if p.dirtyAt < x.dirtyAt then some p else some x) none with
      | some p => State.makeClean q pages n (s.beginJob (s.mapBearer q) (.writeBack p.slice p.idx) s.mapDies true)
      | none => s

/-- Commit the sectors of destination pages that have passed and whose map pages are there (R255). -/
def State.commitNow (s : State) (l : List Moving) : State :=
  let s : State := l.foldl (fun (s : State) m =>
    match s.copyOf m with
    | some loc => s.moveSector m.slot.slice m.slot.lba m.die m.block m.page loc
    | none => s) s
  let same (m e : Moving) : Bool := m.slot == e.slot && m.die == e.die && m.block == e.block && m.page == e.page
  let s := s.onFlash (fun fl => { fl with upkeep := { fl.upkeep with
    moving := fl.upkeep.moving.filter (fun m => !l.any (same m)) } })
  let blocks := (l.map (fun m => (m.die, m.block))).eraseDups
  let pages := (l.map (fun m => (m.die, m.block, m.page))).eraseDups
  let s : State := blocks.foldl (fun (s : State) e => s.refreshed e.1 e.2) s
  pages.foldl (fun (s : State) e => s.pageRelocated e.1 e.2.1 e.2.2) s

/-- Commit the placed sectors whose map pages are there, room being made among the dirty pages first (R247). -/
def State.commitPlaced (s : State) : State :=
  let l := s.flash.upkeep.moving.filter (fun m => m.placed && s.moveReady m)
  if l.isEmpty then s
  else
    let pages := (l.map (fun m => (m.slot.slice, m.slot.lba / 1024))).eraseDups
    let s := State.makeClean none pages pages.length s
    if s.dirtyExcess pages ≠ 0 then s else s.commitNow l

/-- The destination page of some sectors has passed (R255): they are committed, those whose map page is not there once it has been
fetched. -/
def State.commitMoves (s : State) (l : List Moving) : State :=
  let s := s.onFlash (fun fl => { fl with upkeep := { fl.upkeep with
    moving := mapIf (fun (m : Moving) => l.contains m) (fun m => { m with placed := true }) fl.upkeep.moving } })
  (s.fetchFor l).commitPlaced

/-- The slots of one program of member `k` of a superblock. -/
def State.programSlots (s : State) (x : Superblock) (k : Nat) : Nat := s.slotsOf (x.member k).1 * s.sbShot x

/-- The sectors on their way that one destination program takes: those of the first Slice that fills it, or of the first Slice of all
where no further source page may add to them. -/
def State.moveBatch (s : State) (w : Nat) (all : Bool) : List Moving :=
  let l := s.flash.upkeep.moving.filter (fun m => !m.placed)
  let slices := (l.map (fun m => m.slot.slice)).eraseDups
  let of (i : Nat) : List Moving := l.filter (fun m => m.slot.slice == i)
  match slices.find? (fun i => decide (w ≤ (of i).length)) with
  | some i => (of i).take w
  | none =>
    match all, slices with
    | true, i :: _ => (of i).take w
    | true, [] => []
    | false, _ => []

/-- The destination program of a relocation (R274, R278, R288), where its die is free: at most one in a step. -/
def State.moveProgram (s : State) (who : Nat) (all : Bool) (out : ProgOut) : State :=
  let s := s.readySb false
  match s.openOf false with
  | none => s
  | some x =>
    let ks := s.rooms x
    match ks[out.member % max 1 ks.length]? with
    | none => s
    | some k =>
      let l := s.moveBatch (s.programSlots x k) all
      if l.isEmpty || !s.dieFree (x.member k).1 who (x.member k).2 .program false then s
      else
        let s := s.countGrant who (x.member k).1 0
        let r := s.beginPages x k (l.map (fun m => m.slot))
        let br : Bearer := { who := who, q := none, cls := .steady, weight := s.engineWeight who }
        let s := r.1.endPages br x.id k r.2 out.pass (some out.parityPass)
        (s.scanJob none).commitMoves l

/-- Is every mapped sector of the block on its way? -/
def State.lifted (s : State) (d b : Nat) : Bool :=
  (s.flash.map.entries.filter (fun e => e.inBlock d b)).all (fun e =>
    s.flash.upkeep.moving.any (fun m => m.slot.slice == e.slice && m.slot.lba == e.lba && m.die == d && m.block == b))

/-- The map pages of a source page's sectors that must be fetched before it is relocated (R248). -/
def State.sourceMissing (s : State) (d b p : Nat) : List Moving :=
  ((s.mappedSlots d b p).map (fun e => { slot := e.2.1, die := d, block := b, page := p, placed := false : Moving })).filter
    (fun m => !s.moveReady m)

/-- One page relocation of requester `who`, which holds the source die (Table 10-1, R255): the source page is read, what it held is
placed, and a destination page is programmed once it is full, or once the source block holds nothing further to read. -/
def State.relocateStep (s : State) (who d b p : Nat) (outs : List SlotOut) (prog : ProgOut) : State :=
  let s := (s.sweepMoving.liftPage d b p outs).onMap (fun m =>
    { m with ghosts := m.ghosts.filter (fun e => !e.inPage d b p) })
  let s := (s.moveProgram who (s.lifted d b) prog).tally Reg.UPKEEP.RELOCATIONS.COUNT
  (s.pageRelocated d b p).flashSettle

end Sys2Proof.Machine
end

