-- ==== Sys2Proof/Machine/Engines.lean ====
section
/-!
DEFINITION. What the upkeep engines may start (R259, R262, Table 10-2), the map work of a REST (R259 row 1) and Forced upkeep (R263,
R264).
-/
namespace Sys2Proof.Machine

/-! Candidates. -/

/-- Does the read path of an upkeep step run: the decoders take codewords (R348)? -/
def State.eccOpen (s : State) : Bool := s.pageOpen 0x20

/-- The victims that still hold valid pages. -/
def State.gcVictims (s : State) : List (Nat × Block) := s.victims.filter (fun x => x.1 != 0)

/-- Is a block the next victim: one that a relocation has begun to empty, or one with the fewest valid pages (R256)? -/
def State.isVictim (s : State) (d b : Nat) : Bool :=
  let l := s.gcVictims
  l.any (fun x => x.2.die == d && x.2.num == b &&
    (s.flash.upkeep.moving.any (fun m => m.die == d && m.block == b) || l.all (fun y => decide (x.1 ≤ y.1))))

/-- Is the die free for a step of an engine on block `b`? -/
def State.engineFree (s : State) (d b : Nat) (op : OpKind) : Bool := s.dieFree d 64 b op false

/-- A relocation or erase that GC asks for can start on a free die. -/
def State.canGc (s : State) : Bool :=
  s.shortfall != 0 && s.victims.any (fun x =>
    if x.1 = 0 then s.erasable x.2.die x.2.num && s.engineFree x.2.die x.2.num .erase
    else s.eccOpen && s.isVictim x.2.die x.2.num && s.engineFree x.2.die x.2.num .read)

/-- Is a block to be emptied by refresh relocations (R269)? -/
def State.refreshDue (s : State) (b : Block) : Bool :=
  b.flagged && s.dieGood b.die && !(s.validPages b.die b.num).isEmpty

/-- A refresh relocation can start on a free die. -/
def State.canRefresh (s : State) : Bool := s.eccOpen && s.flash.blocks.any (fun b => s.refreshDue b && s.engineFree b.die b.num .read)

/-- A Proofing verification read can start on a free die. -/
def State.canVerify (s : State) : Bool :=
  s.pageOpen 0x0E && s.eccOpen && s.flash.superblocks.any (fun x => x.st != .open &&
    x.awaiting.any (fun e => s.engineFree (x.member e.1).1 (x.member e.1).2 .read))

/-- An erase can start on a free die. -/
def State.canErase (s : State) : Bool := s.flash.blocks.any (fun b => s.erasable b.die b.num && s.engineFree b.die b.num .erase)

/-- May the rows of Table 10-2 that relocate or erase run: not while the card is read-only under chapter 11 (R262)? -/
def State.relocates (s : State) : Bool := !s.flash.wear.readOnly

/-- Is the map work of a Rest window under way: the write-back of a dirty page that serves no command? -/
def State.restWriting (s : State) : Bool :=
  s.flash.jobs.any (fun j => match j.work with
    | .writeBack _ _ => j.bearer.q.isNone
    | .trimRecord _ _ => false
    | .checkpoints => false
    | .version _ _ _ _ _ _ => false
    | .replace _ _ => false)

/-- Can a step of row 1 of Table 10-2 start on a free die: a checkpoint batch, a write-back, a pin load? -/
def State.canMap (s : State) : Bool :=
  let due := s.checkpointDue && !s.flash.jobs.any (fun j => j.work == .checkpoints)
  let dirty := s.pageOpen 0x0C && !s.dirtyPages.isEmpty && !s.restWriting
  ((due || dirty) && s.mapDies.any (fun d => s.dieFree d 66 0 .program false)) ||
    (s.pageOpen 0x0C && s.flash.map.onFlash.any (fun c => (s.slice c.slice).pinState == .loading && !s.resident c.slice c.idx &&
      !s.hasWork (fun r => r.work == .mapRead c.slice c.idx) && c.places.any (fun p => s.dieFree p.1 66 p.2 .read false)))

/-- Rows 1 to `n - 1` of Table 10-2 have no step that can start on a free die. -/
def State.rankFree (s : State) (n : Nat) : Bool :=
  !s.canMap &&
  (decide (n ≤ 2) || !(s.relocates && s.flash.upkeep.starved && s.canGc)) &&
  (decide (n ≤ 3) || !(s.relocates && s.canRefresh)) &&
  (decide (n ≤ 4) || !s.canVerify) &&
  (decide (n ≤ 5) || !(s.relocates && s.canGc)) &&
  (decide (n ≤ 6) || !(s.relocates && s.canErase))

/-- The row of a GC step. -/
def State.gcRank (s : State) : Nat := if s.flash.upkeep.starved then 2 else 5

/-! A Rest window. -/

/-- BUDGET of a REST. -/
def Cmd.budget (c : Cmd) : Nat := c.field 0 32

/-- A step of an engine on die `d` starts: the RESTs whose budget has not passed await its end (R260, R261). -/
def State.stepStarted (s : State) (d : Nat) : State :=
  let rests : List Cmd := mapIf (fun (c : Cmd) => c.opcode == opRest && c.phase == CmdPhase.waiting && c.abortedBy.isEmpty &&
    decide (c.progress < c.budget))
    (fun c => { c with awaits := c.awaits.filter (fun e => e != d) ++ [d] }) s.cmds
  { s with cmds := rests }

/-- A step of an engine on die `d` has ended: it counts for every REST In flight (R261), and none awaits it any more (R260). -/
def State.stepEnded (s : State) (d : Nat) : State :=
  let rests : List Cmd := mapIf (fun (c : Cmd) => c.opcode == opRest && c.phase == CmdPhase.waiting)
    (fun c => { c with steps := c.steps + 1, awaits := c.awaits.filter (fun e => e != d) }) s.cmds
  { s with cmds := rests }

/-- Fetch the map pages of the Slices whose PIN_STATE reads loading (R188). -/
def State.loadLoading (s : State) : State :=
  s.flash.map.onFlash.foldl (fun (s : State) c =>
    if (s.slice c.slice).pinState == .loading && !s.resident c.slice c.idx then s.beginFetch c.slice c.idx none else s) s

/-- The write-back of a Rest window: of the oldest dirty page, one after another. -/
def State.restWriteBack (s : State) : State :=
  match s.oldestDirty with
  | some p =>
    if s.restWriting then s
    else s.beginJob (s.mapBearer none) (.writeBack p.slice p.idx) s.mapDies true
  | none => s

/-- The map work of a Rest window (row 1 of Table 10-2): pin loads, write-backs, checkpoints. FTL.ENABLE = 0 stops the loads and the
write-backs (R272). -/
def State.mapWork (s : State) : State :=
  if s.stepsMay then (if s.pageOpen 0x0C then s.loadLoading.restWriteBack else s).beginBatch none else s

/-! Forced upkeep. -/

/-- The page of a block that a relocation takes next: the first with a sector not yet on its way, or the first at all. -/
def State.nextSource (s : State) (d b : Nat) : Option Nat :=
  let l := s.validPages d b
  match l.find? (fun p => (s.mappedSlots d b p).any (fun e =>
      !s.onItsWay e.2.1 d b p)) with
  | some p => some p
  | none => l.head?

/-- How the erase of a block by Forced upkeep ends: free. DESIGN CHOICE: log entry 37. -/
def State.forcedErasePass (s : State) (d b : Nat) : Bool := !bitAt (Config.nand 0 d b 0 (s.block d b).erases) 0

/-- An outcome of a decode from a number. -/
def slotOutOf (v : Nat) : SlotOut :=
  match v % 5 with
  | 0 => .hard (v / 5)
  | 1 => .soft
  | 2 => .fails (bitAt (v / 5) 0)
  | 3 => .tagBad (bitAt (v / 5) 0) (bitAt (v / 5) 1)
  | _ => .erased (bitAt (v / 5) 0)

/-- How the decodes of a page that Forced upkeep relocates end, slot by slot: free. -/
def State.forcedOuts (s : State) (d b p : Nat) : List SlotOut :=
  (rangeFrom 0 (s.slotsOf d)).map (fun k => slotOutOf (Config.nand 1 d b (p * s.slotsOf d + k) (s.block d b).reads))

/-- How the destination program of a Forced relocation ends, and which member it takes: free. -/
def State.forcedProg (s : State) (d b p : Nat) : ProgOut :=
  let v := Config.nand 2 d b p (s.block d b).reads
  { member := v / 4, pass := !bitAt v 0, parityPass := !bitAt v 1 }

/-- A carried step: its operation and place, and whether it is a refresh relocation. -/
structure Carried where
  op : OpKind
  die : Nat
  block : Nat
  page : Nat
  refresh : Bool
deriving DecidableEq, Repr

/-- The source of a Forced relocation: the next GC victim while S > 0, then a block flagged for refresh (R263). -/
def State.forcedSource (s : State) : Option (Block × Bool) :=
  let gc := if s.shortfall = 0 then none else s.gcVictims.find? (fun x => s.isVictim x.2.die x.2.num)
  match gc with
  | some x => some (x.2, false)
  | none => (s.flash.blocks.find? s.refreshDue).map (fun b => (b, true))

/-- The step that a WRITE carries next (R263): an erase of a block without mapped sectors, a relocation. -/
def State.forcedNext (s : State) (c : Cmd) : Option Carried :=
  let relocation : Option Carried :=
    if c.moves = 0 ∨ s.flash.wear.readOnly then none
    else match s.forcedSource with
      | some (b, r) => (s.nextSource b.die b.num).map (fun p => { op := .read, die := b.die, block := b.num, page := p, refresh := r })
      | none => none
  if c.erases = 0 then relocation
  else match s.flash.blocks.find? (fun b => s.erasable b.die b.num) with
    | some b => some { op := .erase, die := b.die, block := b.num, page := 0, refresh := false }
    | none => relocation

/-- Does a carried step of command `q` hold a die, stand set back on one or wait for one? -/
def State.forcedRuns (s : State) (q : Nat) : Bool := s.hasWork (fun r => r.work == .forced && r.q == q)

/-- A WRITE carries nothing further: a step that has been presented and not granted is taken back (R262, R264). -/
def State.forcedOver (s : State) (q : Nat) : State :=
  let keep (r : Req) : Bool := !(r.q == q && r.work == .forced)
  (s.onFlash (fun fl => { fl with dies := fl.dies.map (fun (x : Die) =>
    { x with lower := x.lower.filter keep, queued := x.queued.filter keep }) })).setCmd q (fun c => { c with erases := 0, moves := 0 })

/-- A step is carried: FORCED_COUNT rises with the first (R263). No erase follows a refresh relocation. -/
def State.carry (s : State) (q : Nat) (x : Carried) : State :=
  match s.cmd? q with
  | some c =>
    let s := if c.steps = 0 then s.tally Reg.UPKEEP.FORCED_COUNT.COUNT else s
    s.setCmd q (fun c => { c with
      steps := c.steps + 1
      erases := if x.refresh then 0 else if x.op == .erase then c.erases - 1 else c.erases
      moves := if x.op == .erase then c.moves else c.moves - 1 })
  | none => s

/-- What a carried step does once its operation has ended, the array read of a relocation included (R254, R255, R263). -/
def State.forcedBody (s : State) (op : OpKind) (d b p : Nat) (pass : Bool) : State :=
  let s := s.tally Reg.UPKEEP.FORCED_STEPS.COUNT
  match op with
  | .erase => s.eraseStep d b pass
  | .read => s.relocateStep 64 d b p (s.forcedOuts d b p) (s.forcedProg d b p)
  | .program => s

/-- The request of a carried step: requester 64 at steady class (R264). -/
def State.forcedReq (s : State) (q : Nat) (x : Carried) : Req :=
  newReq 64 q .steady (s.engineWeight 64) x.op x.block x.page .forced

/-- A WRITE carries its steps one after another (R263, R264): on a free die at once, with free outcomes, otherwise the step is presented.
No further step starts in the Safe state or while UPKEEP.ENABLE reads 0. DESIGN CHOICE: log entry 26. -/
def State.runForced (q : Nat) : Nat → State → State
  | 0, s => s
  | n + 1, s =>
    match s.cmd? q with
    | none => s
    | some c =>
      if s.safe || !s.bit (enableBit 0x0D 0) then s.forcedOver q
      else if (c.erases = 0 ∧ c.moves = 0) ∨ s.forcedRuns q then s
      else match s.forcedNext c with
        | none => s.forcedOver q
        | some x =>
          let missing := if x.op == .read then s.sourceMissing x.die x.block x.page else []
          if !s.pageOpen 0x0D || (x.op == .read && !s.eccOpen) then s
          else if !missing.isEmpty then s.fetchFor missing
          else if s.engineFree x.die x.block x.op then
            let s := (s.carry q x).countGrant 64 x.die 0
            let s := if x.op == .read then s.arrayRead x.die x.block else s
            State.runForced q n (s.forcedBody x.op x.die x.block x.page (s.forcedErasePass x.die x.block))
          else (s.carry q x).present x.die (s.forcedReq q x)

end Sys2Proof.Machine
end

