-- ==== Sys2Proof/Machine/DataCmds.lean ====
section
/-!
DEFINITION. READ, VERIFY, WRITE, TRIM and BARRIER (R14–R19, R122, R123, R172, R210–R218, R251–R253, R263, R264, R486). A step takes a
free die at once with the outcome its row carries, and otherwise presents a request.
-/
namespace Sys2Proof.Machine

/-! Where a sector's content comes from. -/

/-- What a READ or VERIFY finds for a sector. -/
inductive Content where
  /-- an earlier-stamped WRITE or TRIM must move on first -/
  | later
  /-- the sector reads as this, without an array read: staged data of a WRITE, or zero bytes -/
  | known (x : Sector)
  /-- the sector ends the command with this status -/
  | ends (status : Nat)
  /-- the sector lies in this slot -/
  | flash (die block page slot : Nat)
deriving DecidableEq, Repr

/-- An earlier-stamped WRITE or TRIM at work whose effect on the sector a command `q` must see (R14). -/
def State.pendingOver (s : State) (q i lba : Nat) : Option Cmd :=
  ((s.earlier q).filter (fun w => (w.opcode == opWrite || w.opcode == opTrim) && !w.done? && w.coversSector i lba &&
    (match s.snapOf w.q i lba with
      | some n => !stampedBefore n.cut q
      | none => true))).getLast?

/-- What the map holds of a sector for command `q`: as it was before later-stamped commits. -/
def State.mappedFor (s : State) (q i lba : Nat) : Option MapEntry :=
  match s.snapOf q i lba with
  | some n => n.old
  | none => s.entry i lba

/-- The content of a sector through the map (R172, R244, R248, R249, R315). -/
def State.mapContent (s : State) (q i lba : Nat) : Content :=
  if s.pageFailed i lba then .ends stUncorrectable
  else
    match s.mappedFor q i lba with
    | none => .known 0
    | some e =>
      match e.loc with
      | .torn => .ends stTorn
      | .lost => .ends stUncorrectable
      | .at d b p k => .flash d b p k

/-- The content of sector `lba` for command `q` (R14). -/
def State.content (s : State) (q i lba : Nat) : Content :=
  match s.pendingOver q i lba with
  | none => s.mapContent q i lba
  | some w =>
    if w.opcode = opWrite then
      if w.phase = .ready ∨ w.phase = .waiting then .known (BitVec.ofNat 32768 (w.payload.getD (lba - w.lba) 0)) else .later
    else if lba < w.lba + w.done then s.mapContent q i lba
    else .later

/-! READ and VERIFY. -/

/-- Has the command a request on a die, or waiting for one, or a codeword in the ECC engine? -/
def State.inFlash (s : State) (q : Nat) : Bool :=
  s.hasWork (fun r => r.q == q && r.work.ofCommand) || s.flash.words.any (fun w => w.q == q)

/-- Does the array read of a command of Slice `i` stand at the urgent class (R185, R224)? -/
def State.urgentRead (s : State) (i : Nat) : Bool := (s.sliceClass i .read).1 == .urgent

/-- An up buffer takes what is known of sector `n` of a READ or VERIFY; an error in it makes the sector UNCORRECTABLE (Table 8-4). -/
def State.hold (s : State) (q n : Nat) (x : Found) (bad : Bool) : State :=
  let s := if bad then s.report Src.DMA.UPBUF_ECC else s
  s.setDesc q (fun d => { d with found := d.found ++ [(n, if bad then .ends stUncorrectable else x)] })

/-- The payload of a decode for an up buffer (R18). -/
def foundOf : Option Sector → Found
  | some x => .data x.toNat
  | none => .ends stUncorrectable

/-- A sector has passed: a READ sends it, a VERIFY counts it as checked (R18, R213). -/
def State.deliver (s : State) (q x : Nat) : State :=
  match s.cmd? q, s.desc? q with
  | some c, some d =>
    let s := s.setDesc q (fun e => { e with offset := d.offset + 1, found := e.found.filter (fun y => y.1 != d.offset) })
    if c.opcode = opRead then
      (s.setCmd q (fun c => { c with upSent := true })).enqueue (upFrame s c .dataUp d.offset 64 x)
    else s
  | _, _ => s

/-- The sectors whose turn has come are sent, in LBA order, until one ends the command or is not there yet (R123). A READ or VERIFY
whose every sector has passed completes once the work that it carries has ended (R270). -/
def State.sendReady (q : Nat) : Nat → State → State
  | 0, s => s
  | n + 1, s =>
    match s.cmd? q, s.desc? q with
    | some c, some d =>
      if c.done? || s.descHeld q then s
      else if c.count ≤ d.offset then (if s.jobsOf q then s else s.endCmd q stOk)
      else
        match d.found.find? (fun y => y.1 == d.offset) with
        | some (_, .data x) => State.sendReady q n (s.deliver q x)
        | some (_, .ends st) => s.endCmd q st d.offset
        | none => s
    | _, _ => s

/-- A page on a failed die is rebuilt on demand (R290): the outcome says whether the stripe decodes. -/
def State.failedDieRead (s : State) (q n d b p k : Nat) (urgent : Bool) (out : SlotOut) : State :=
  let r := s.rebuild d b p out.rebuilds urgent
  (r.1.carryBatch s q urgent).hold q n (foundOf (if r.2 then r.1.slotData d b p k else none)) (r.2 && out == .upBuffer)

/-- The array read of a sector on a free die, and its decode, at once. -/
def State.readNow (s : State) (q i n d b p k : Nat) (urgent : Bool) (out : SlotOut) : State :=
  let r := ((s.countGrant i d 0).arrayRead d b urgent).decodeSlot d b p k urgent out
  (r.1.carryBatch s q urgent).hold q n (foundOf r.2) (out == .upBuffer)

/-- A sector of a READ or VERIFY that has been looked up: what is known goes to its up buffer, another is read on a free die with the
outcome that the row gives, or its array read is presented. -/
def State.startSector (s : State) (q i n : Nat) (x : Content) (out : Option SlotOut) : State :=
  match x with
  | .later => s
  | .known v => s.hold q n (.data v.toNat) (out == some .upBuffer)
  | .ends st => s.hold q n (.ends st) false
  | .flash d b p k =>
    let urgent := s.urgentRead i
    if !s.dieGood d then s.failedDieRead q n d b p k urgent (out.getD (.hard 0))
    else
      match out with
      | some o =>
        if s.dieFree d i b .read urgent && s.eccOpen then s.readNow q i n d b p k urgent o
        else s.present d (s.sliceReq i q .read b p (.sector n))
      | none => s.present d (s.sliceReq i q .read b p (.sector n))

/-- The lookup of the sector NEXT in its map page: one whose page has been fetched for it counts no hit beside its miss (R215). -/
def State.lookupNext (s : State) (q i idx : Nat) : State × Bool :=
  if (s.desc? q).any (fun d => d.fetched) && s.resident i idx then ((s.touch i idx).setDesc q (fun d => { d with fetched := false }), true)
  else s.lookup i idx

/-- Does a sector already in an up buffer end the command? -/
def Desc.endsFound (d : Desc) : Bool :=
  d.found.any (fun y => match y.2 with
    | .data _ => false
    | .ends _ => true)

/-- READ and VERIFY look their sectors up in LBA order and start each (R213, R215), until one must wait or ends the command; an ABORT
takes effect before the next sector (Table 5-8). `outs` are the outcomes of the sectors looked up, in order. -/
def State.lookAhead (q i : Nat) : Nat → List SlotOut → State → State
  | 0, _, s => s
  | m + 1, outs, s =>
    match s.cmd? q, s.desc? q with
    | some c, some d =>
      if c.done? || s.stopped q || decide (c.count ≤ d.next) || d.endsFound then s
      else if !c.abortedBy.isEmpty then s.abortNow c
      else
        let lba := c.lba + d.next
        match s.content q i lba with
        | .later => s
        | .known _ | .ends _ | .flash _ _ _ _ =>
          let r := s.lookupNext q i (lba / 1024)
          if !r.2 then r.1.park q i (lba / 1024)
          else
            let s := r.1.setDesc q (fun d => { d with next := d.next + 1 })
            State.lookAhead q i m (outs.drop 1) (s.startSector q i d.next (s.content q i lba) outs.head?)
    | _, _ => s

/-- Go on with a READ or VERIFY. -/
def State.readOn (s : State) (q : Nat) (outs : List SlotOut) : State :=
  match s.cmd? q with
  | some c =>
    match c.ring with
    | some i =>
      let s := (State.lookAhead q i (c.count + 1) outs s).jobsGo
      State.sendReady q (c.count + 1) s
    | none => s
  | none => s

/-- A data command of COUNT 0 behaves as BARRIER (Table 5-6). -/
def State.asBarrier (s : State) (q : Nat) : State := s.setCmd q (fun c => { c with phase := .waiting })

/-- READ (R14, R16, R18, R123, R215). DESIGN CHOICE: log entry 25. -/
def execRead (q : Nat) (outs : List SlotOut) (s : State) : Answer :=
  (s.onCmd q opRead .decoded (fun c => if c.count = 0 then s.asBarrier q else (s.readOn q outs).flashSettle)).done

/-- VERIFY (R123): as READ, and sends nothing. -/
def execVerify (q : Nat) (outs : List SlotOut) (s : State) : Answer :=
  (s.onCmd q opVerify .decoded (fun c => if c.count = 0 then s.asBarrier q else (s.readOn q outs).flashSettle)).done

/-! WRITE. -/

/-- The WRITEs of Slice `i` whose down data phase has ended and that still await placement, in ORDER_SEQ order (R486). -/
def State.awaiting (s : State) (i : Nat) : List Nat :=
  (s.cmds.filter (fun c => c.opcode == opWrite && c.ring == some i && c.phase == .ready &&
    (match s.desc? c.q with
      | some d => decide (d.next < c.count)
      | none => false))).map (fun c => c.q)

/-- The sector that a WRITE places next. -/
def Cmd.slot (c : Cmd) (i next key : Nat) : Slot :=
  { slice := i, lba := c.lba + next, seq := c.seqNo, data := BitVec.ofNat 32768 (c.payload.getD next 0), key := key }

/-- Take up to `n` sectors that await placement, each looked up first; a WRITE whose lookup misses parks (R215, R486). -/
def State.gather (i : Nat) : Nat → Nat → List Nat → State → State × List Slot
  | 0, _, _, s => (s, [])
  | _ + 1, 0, _, s => (s, [])
  | _ + 1, _ + 1, [], s => (s, [])
  | fuel + 1, n + 1, q :: qs, s =>
    match s.cmd? q, s.desc? q with
    | some c, some d =>
      if s.stopped q ∨ c.count ≤ d.next then State.gather i fuel (n + 1) qs s
      else
        let r := s.lookupNext q i ((c.lba + d.next) / 1024)
        if r.2 then
          let s := r.1.setDesc q (fun d => { d with next := d.next + 1 })
          let g := State.gather i fuel n (q :: qs) s
          (g.1, c.slot i d.next (s.slice i).cfg.xtsKey :: g.2)
        else State.gather i fuel (n + 1) qs (r.1.park q i ((c.lba + d.next) / 1024))
    | _, _ => State.gather i fuel (n + 1) qs s

/-- The sectors of one program of `w` slots. -/
def State.fill (s : State) (i w : Nat) : State × List Slot :=
  let qs := s.awaiting i
  State.gather i (w + qs.length + 1) w qs s

/-- The map pages of `n` sectors of Slice `i` from sector `a`. -/
def mapPagesOf (i a n : Nat) : List (Nat × Nat) :=
  (rangeFrom (a / 1024) ((a + n - 1) / 1024 + 1 - a / 1024)).map (fun idx => (i, idx))

/-- Commit the sectors of a WRITE (R251). -/
def State.commitAll (s : State) (c : Cmd) (i : Nat) : State :=
  (rangeFrom c.lba c.count).foldl (fun (s : State) l =>
    match s.placed i l c.seqNo with
    | some loc => s.commitSector c.q i l c.seqNo loc
    | none => s) s

/-- A WRITE whose mapping is committed completes once the due checkpoints, the Forced upkeep and the map work that it carries have ended
(R17, R264, R270, R281). -/
def State.finishWrite (s : State) (q : Nat) : State :=
  let s := State.runForced q 9 s
  match s.cmd? q with
  | some c =>
    if c.erases ≠ 0 ∨ c.moves ≠ 0 ∨ s.forcedRuns q ∨ s.jobsOf q then s else s.flashSettle.endCmd q stOk
  | none => s

/-- The commit of a WRITE whose every sector has passed with its Proofing parity (R17, R215, R247, R251, R270): its map pages are fetched,
room is made among the dirty pages, the mapping is committed, the due checkpoints are written. -/
def State.tryCommit (s : State) (q : Nat) : State :=
  match s.cmd? q, s.desc? q with
  | some c, some d =>
    match c.ring with
    | some i =>
      if c.opcode ≠ opWrite ∨ c.phase ≠ .ready ∨ s.stopped q ∨ d.offset < c.count ∨ c.count = 0 then s
      else if c.done = c.count then s.finishWrite q
      else if (rangeFrom c.lba c.count).any (fun l => (s.placed i l c.seqNo).isNone) then s
      else
        match s.missing i c.lba c.count with
        | idx :: _ => (s.tally Reg.FTL.MAP_MISSES.COUNT).park q i idx
        | [] =>
          let pages := mapPagesOf i c.lba c.count
          let s := (State.makeClean (some q) pages 2 s).setDesc q (fun d => { d with st := .commit, before := .commit })
          if s.dirtyExcess pages ≠ 0 then s
          else (((s.commitAll c i).setCmd q (fun c => { c with done := c.count })).beginBatch (some q)).finishWrite q
    | none => s
  | _, _ => s

/-- Commit every WRITE of a Slice that can be committed, in ORDER_SEQ order. -/
def State.commitReady (s : State) (i : Nat) : State :=
  (s.cmds.filter (fun c => c.opcode == opWrite && c.ring == some i && c.phase == .ready)).foldl
    (fun (s : State) c => s.tryCommit c.q) s

/-- The member of the open host superblock that a program goes to: among those with room. -/
def State.pickMember (s : State) (x : Superblock) (m : Nat) : Option Nat :=
  let ks := s.rooms x
  ks[m % max 1 ks.length]?

/-- Has a WRITE a boundary left at which an ABORT has now taken effect: before its next page program (Table 5-8)? -/
def State.writeStops (s : State) (q : Nat) : Bool :=
  match s.cmd? q, s.desc? q with
  | some c, some d => !c.abortedBy.isEmpty && decide (d.next < c.count) && c.phase == .ready
  | _, _ => false

/-- Program pages of the host superblock with the sectors of Slice `i` that await placement, one program per outcome (R17, R278,
R288, R486). -/
def State.programs (q i : Nat) : List ProgOut → State → State
  | [], s => s
  | o :: l, s =>
    if !(s.awaiting i).contains q || s.writeStops q then s
    else
      let s := s.readySb true
      match s.openOf true with
      | none => s
      | some x =>
        match s.pickMember x o.member with
        | none => s
        | some k =>
          if !s.dieFree (x.member k).1 i (x.member k).2 .program false then s
          else
            let g := s.fill i (s.programSlots x k)
            if g.2.isEmpty then g.1
            else
              let s := g.1.countGrant i (x.member k).1 0
              let r := s.beginPages x k g.2
              let cls := s.sliceClass i .program
              let br : Bearer := { who := i, q := some q, cls := cls.1, weight := cls.2 }
              State.programs q i l (r.1.endPages br x.id k r.2 o.pass (some o.parityPass)).flashSettle

/-- Present a page program for a WRITE that still awaits placement and has none presented. -/
def State.presentProgram (s : State) (q i : Nat) : State :=
  if !(s.awaiting i).contains q || s.inFlash q || s.stopped q then s
  else
    let s := s.readySb true
    match s.openOf true with
    | none => s
    | some x =>
      match (s.rooms x).find? (fun k =>
          match s.die? (x.member k).1 with
          | some y => !y.hasReq i
          | none => false) with
      | none => s
      | some k => s.present (x.member k).1 (s.sliceReq i q .program (x.member k).2 (x.next k) .page)

/-- Go on with a WRITE whose data phase has ended. -/
def State.writeOn (s : State) (q i : Nat) (progs : List ProgOut) : State :=
  let s := State.programs q i progs s
  if s.writeStops q then (match s.cmd? q with
    | some c => s.abortNow c
    | none => s)
  else (s.commitReady i).presentProgram q i

/-- WRITE (R15–R17, R19, R40, R213, R251, R264, R278, R288, R486). Its DATA_REQ goes out at the reservation of its staging
(STAGING_RESERVED); its programs begin once the down data phase has ended. -/
def execWrite (q : Nat) (progs : List ProgOut) (s : State) : Answer :=
  match s.cmd? q with
  | some c =>
    if s.clocked && c.opcode == opWrite then
      if c.phase == .decoded && c.count == 0 then (s.asBarrier q).done
      else
        match c.phase, c.ring with
        | .ready, some i => ((s.writeOn q i progs).flashSettle).done
        | _, _ => s.done
    else s.done
  | none => s.done

/-! TRIM and BARRIER. -/

/-- Fetch map pages for command `q` (R215, R222). -/
def State.fetchAll (s : State) (q i : Nat) (l : List Nat) : State :=
  l.foldl (fun (s : State) idx => s.beginFetch i idx (some q)) s

/-- One range of a TRIM (R247, R253): at most 4,096 sectors take effect on one edge, once their map pages are there and room is made among
the dirty pages. With the last range the due checkpoints and the trim record are programmed, and the TRIM completes. An ABORT takes
effect before a range (Table 5-8). -/
def State.trimOn (s : State) (c : Cmd) (i : Nat) : State :=
  let n := min 4096 (c.count - c.done)
  let a := c.lba + c.done
  if !c.abortedBy.isEmpty then s.abortNow c
  else
    match s.missing i a n with
    | idx :: l => s.fetchAll c.q i (idx :: l)
    | [] =>
      let pages := mapPagesOf i a n
      let s := State.makeClean (some c.q) pages 5 s
      if s.dirtyExcess pages ≠ 0 then s
      else
        let s := (s.trimRange c.q i a n true).setCmd c.q (fun c => { c with done := c.done + n })
        if c.done + n < c.count then s.flashSettle
        else
          let s := (s.setCmd c.q (fun c => { c with phase := .recording })).beginBatch (some c.q)
          (s.beginJob (s.mapBearer (some c.q)) (.trimRecord c.q stOk) s.mapDies true).flashSettle

/-- TRIM (R253, Table 5-6). -/
def execTrim (q : Nat) (s : State) : Answer :=
  (s.onCmd q opTrim .decoded (fun c =>
    if c.count = 0 then s.asBarrier q
    else match c.ring with
      | some i => s.trimOn c i
      | none => s)).done

/-- BARRIER (R122, Table 5-6): it waits, and holds every later command of its Slice undecoded. -/
def execBarrier (q : Nat) (s : State) : Answer := (s.onCmd q opBarrier .decoded (fun _ => s.asBarrier q)).done

/-- BARRIER_RELEASE (Table 5-6): every earlier command of the Slice has completed. -/
def execBarrierRelease (q : Nat) (s : State) : Answer :=
  match s.cmd? q with
  | some c =>
    match c.ring with
    | some i =>
      if s.clocked && c.isBarrier && c.phase == .waiting && s.sliceQuiet q i then (s.complete q stOk).done else s.done
    | none => s.done
  | none => s.done

/-! What goes on by itself. -/

/-- A data command goes on: a READ or VERIFY looks further sectors up, a WRITE places and commits, a TRIM takes its next range. -/
def State.resume (s : State) (q : Nat) : State :=
  match s.cmd? q with
  | some c =>
    match c.ring, c.phase with
    | some i, .decoded =>
      if (c.opcode == opRead || c.opcode == opVerify) && c.count != 0 then s.readOn q []
      else if c.opcode == opTrim && c.count != 0 then s.trimOn c i
      else s
    | some i, .ready => if c.opcode == opWrite && c.count != 0 then s.writeOn q i [] else s
    | _, _ => s
  | none => s

/-- Every data command goes on, and every job and fetch asks for its die. -/
def State.goOn (s : State) : State :=
  let s := s.strandedPages.jobsGo.commitPlaced
  let s : State := s.flash.map.fetching.foldl (fun (s : State) f => s.askFetch f) s
  (s.cmds.map (fun c => c.q)).foldl (fun (s : State) q => s.resume q) s

/-- MAP_PAGE_RESIDENT (R215, R248, R188): the fetch of a map page goes on; `firstOk`, `secondOk`: the copies that decode. The commands that
waited for it go on. DEDUCED: log entry 42. -/
def execMapPageResident (slice idx : Nat) (firstOk secondOk : Bool) (s : State) : Answer :=
  match s.fetch? slice idx with
  | some f =>
    if s.clocked && s.fetchMay f then ((State.fetchOn slice idx firstOk secondOk 3 s).goOn.flashSettle).done else .next s
  | none => .next s

end Sys2Proof.Machine
end

