-- ==== Sys2Proof/Machine/DieRows.lean ====
section
/-!
DEFINITION. The rows of the dies and of the ECC engine: ARBITER_GRANT, DIE_READY, GRANT_WATCHDOG_BITE, HARD_DECODE_DONE,
SOFT_DECODE_DONE and RECONFIGURATION (chapters 9 and 13).
-/
namespace Sys2Proof.Machine

/-! Grants. -/

/-- The channel's entry. -/
def State.chanOf? (s : State) (n : Nat) : Option Chan := s.flash.chans.find? (fun c => c.id == n)

/-- The program of a granted request begins (R486): the page takes the sectors that await placement; without any, or without room
on its member, the grant is given back. -/
def State.beginGranted (s : State) (d : Nat) (r : Req) : State :=
  match s.sbOf d r.block with
  | none => s.release_ d
  | some x =>
    match x.memberOf d r.block with
    | none => s.release_ d
    | some k =>
      if x.st != .open || !x.host || !s.hasRoom x k then s.release_ d
      else
        let g := s.fill r.who (s.programSlots x k)
        if g.2.isEmpty then g.1.release_ d
        else
          let b := g.1.beginPages x k g.2
          b.1.setDie d (fun y => { y with holder := some (.step { r with page := b.2 }) })

/-- A reconfiguration that is due takes every die of an idle channel as a housekeeping step (R338). -/
def State.holdChannel (s : State) (n : Nat) : State :=
  s.onFlash (fun fl =>
    let held : List Die := mapIf (fun (x : Die) => x.id / 16 == n && x.present && !x.failed)
      (fun x => { x with holder := some .reconfig, activity := .idle, watchdog := 0 }) fl.dies
    { fl with dies := held })

/-- What a grant that has been made begins: the page of a fresh program takes its sectors, a step of an engine is awaited by the RESTs
whose windows are open. -/
def State.grantBegun (s : State) (d : Nat) : State :=
  match s.die? d with
  | none => s
  | some y =>
    match y.holder with
    | some (.step r) =>
      if r.work == .page && r.op == .program && !s.pageHeld d r then s.beginGranted d r
      else if r.work == .other then s.stepStarted d
      else s
    | some (.resetLun _ _) => s
    | some .reconfig => s
    | some (.orphan _) => s
    | none => s

/-- ARBITER_GRANT (R225–R232, R338): the arbiter grants a free die. A reconfiguration waits for the end of a soft reset of its channel
(R347). -/
def execArbiterGrant (die : Nat) (s : State) : Answer :=
  match s.die? die with
  | none => s.done
  | some x =>
    if !s.clocked || x.holder.isSome then s.done
    else
      let s := s.arbSettle
      let due := match s.chanOf? (die / 16) with
        | some c => c.reconf && !s.bit (resetActive (0x10 + die / 16) 0)
        | none => false
      if due && s.channelIdle (die / 16) then (s.holdChannel (die / 16)).done
      else (((s.grantDie die).grantBegun die).flashSettle).done

/-! The end of an operation. -/

/-- The bearer of a request's work. -/
def Req.bearer (r : Req) : Bearer := { who := r.who, q := some r.q, cls := r.cls, weight := r.weight }

/-- A page program on a die has ended (R17, R278, R288). Its versions are programmed as jobs. -/
def State.programEnds (s : State) (br : Bearer) (d b p : Nat) (pass : Bool) : State :=
  match s.sbOf d b with
  | none => s
  | some x =>
    match x.memberOf d b with
    | none => s
    | some k => s.endPages br x.id k p pass none

/-- The slot of a sector in a page: where the map has it, or the last one that names it. -/
def State.slotFor (s : State) (q i lba d b p : Nat) : Nat :=
  let named := match s.page? d b p with
    | some y => ((rangeFrom 0 y.slots.length).zip y.slots).foldl (fun (m : Nat) (e : Nat × Option Slot) =>
        match e.2 with
        | some z => if z.slice = i ∧ z.lba = lba then e.1 else m
        | none => m) 0
    | none => 0
  match s.mapContent q i lba with
  | .flash d' b' p' k => if d' = d ∧ b' = b ∧ p' = p then k else named
  | .later => named
  | .known _ => named
  | .ends _ => named

/-- An operation ends by its status: a page or a job takes the outcome of its program, a block that of its erase. An array read that
serves nobody any more has read its block all the same (R233, R267). -/
def State.opEnds (s : State) (d : Nat) (r : Req) (pass : Bool) : State :=
  match r.op with
  | .read => s.arrayRead d r.block
  | .program =>
    match r.work with
    | .job id => (match s.job? id with
      | some j => s.jobRuns j d pass
      | none => s)
    | .page => if s.pageHeld d r then s.programEnds r.bearer d r.block r.page pass else s
    | .sector _ => s
    | .soft _ => s
    | .mapRead _ _ => s
    | .forced => s
    | .other => s
  | .erase =>
    if r.work == .forced then s.forcedBody .erase d r.block 0 pass
    else
      let s := s.eraseStep d r.block pass
      if r.work == .other then s.stepEnded d else s

/-- The array read of a step has been made: its block has been read (R267), and its data wait for the bus. -/
def State.readMade (s : State) (d : Nat) (r : Req) : State :=
  let urgent := r.cls == .urgent
  let s := match r.work with
    | .sector _ => s.hostRead r.q d r.block urgent
    | .soft _ => s.hostRead r.q d r.block urgent
    | .mapRead i idx => (match s.fetch? i idx with
      | some f => s.fetchRead f d r.block
      | none => s.arrayRead d r.block)
    | .page => s.arrayRead d r.block
    | .job _ => s.arrayRead d r.block
    | .forced => s.arrayRead d r.block
    | .other => s.arrayRead d r.block
  (s.setDie d (fun x => { x with activity := .dataOut, watchdog := 0 })).needBus d

/-- An operation suspended on the die that a Reset LUN has ended: a program failure or an erase failure (R237). -/
def State.suspendedEnds (s : State) (d : Nat) : State :=
  match s.die? d with
  | none => s
  | some x =>
    if !x.suspended then s
    else
      match x.preempted, x.orphans with
      | some r, _ => (s.setDie d (fun x => { x with preempted := none, suspended := false })).opEnds d r false
      | none, r :: l => (s.setDie d (fun x => { x with orphans := l, suspended := false })).opEnds d r false
      | none, [] => s.setDie d (fun x => { x with suspended := false })

/-- RB_N rises after the Reset LUN of a bite (R237): the die has completed a step. A program or an erase that was in the array has failed;
another step is taken again: a requester's at the tail of its class, a housekeeping step from its start. -/
def State.resetLunEnds (s : State) (d : Nat) (back : Option Req) (orphan : Bool) : State :=
  let s := (s.suspendedEnds d).release_ d
  match back with
  | none => s
  | some r =>
    if r.op != .read && r.inArray then s.opEnds d r false
    else if orphan then s.setDie d (fun x => { x with orphans := x.orphans ++ [r.kept (s.slotsOf d)] })
    else s.present d { r.kept (s.slotsOf d) with waited := 0, held := 0 }

/-- The other dies of a die's package target, where Reset (0xFF) takes the place of Reset LUN (R327, R328). -/
def State.targetMates (s : State) (d : Nat) : List Nat :=
  match s.die? d, s.dieProfile d with
  | some x, some p =>
    if x.resetLun then []
    else ((s.chanDies (d / 16)).filter (fun y =>
      y.id != d && y.id % 16 / max 1 p.luns == d % 16 / max 1 p.luns)).map (fun y => y.id)
  | _, _ => []

/-- The holder with what it keeps of its count while its step is taken again. -/
def Holder.kept (slots : Nat) : Holder → Holder
  | .step r => .step (r.kept slots)
  | .orphan r => .orphan (r.kept slots)
  | .resetLun r o => .resetLun r o
  | .reconfig => .reconfig

/-- What a read or a data input that a reset of its die's target has ended starts from: a data output is taken again from its array
read; an array read and a data input start anew. -/
def State.takenAgain (s : State) (e : Nat) (x : Die) : State :=
  if x.activity == .dataOut then (s.setDie e (fun y => { y with activity := .reading })).leaveBus e
  else if x.activity == .dataIn then
    ((s.leaveBus e).setDie e (fun y => { y with holder := x.holder.map (Holder.kept (s.slotsOf e)) })).needBus e
  else s

/-- What Reset (0xFF) on another LUN of its target ends on a die (R327): a program or an erase, running or suspended, has failed. -/
def State.resetMate (s : State) (e : Nat) : State :=
  let s := s.suspendedEnds e
  match s.die? e with
  | none => s
  | some x =>
    match x.holder.bind Holder.req? with
    | some r =>
      if x.activity == .programming || x.activity == .erasing then (s.release_ e).opEnds e r false else s.takenAgain e x
    | none => s

/-- What the reset of a die ends on the other dies of its target. -/
def State.resetMates (s : State) (d : Nat) : State := (s.targetMates d).foldl (fun (s : State) e => s.resetMate e) s

/-- The reset by which a read or a data input makes way (Table 9-2) ends what it ends. -/
def State.wayReset (s : State) (d : Nat) (x : Die) : State :=
  if x.activity == .reading || x.activity == .dataIn then s.resetMates d else s

/-- RB_N rises at the end of an operation on die `d`: a read's data wait for the bus; another operation ends with its status. -/
def State.operationEnds (s : State) (d : Nat) (x : Die) (h : Holder) (pass : Bool) : State :=
  match h with
  | .reconfig => s.setDie d (fun x => { x with watchdog := 0 })
  | .resetLun back orphan => (s.resetMates d).resetLunEnds d back orphan
  | .orphan r =>
    if x.activity == .reading || x.activity == .programming || x.activity == .erasing then (s.release_ d).opEnds d r pass else s
  | .step r =>
    if x.activity == .reading then s.readMade d r
    else if x.activity == .programming || x.activity == .erasing then (s.release_ d).opEnds d r pass
    else s

/-- DIE_READY (R230, R233, R237, R288, R289, R327, R330): a die reports ready; `pass` is the status of its operation. -/
def execDieReady (die : Nat) (pass : Bool) (s : State) : Answer :=
  match s.die? die with
  | none => s.done
  | some x =>
    if !s.clocked then s.done
    else if x.preempting then (((s.wayReset die x).makeWay die).grantUrgent die).done
    else
      match x.holder with
      | none => s.done
      | some h => (((s.operationEnds die x h pass).arbSettle.goOn).flashSettle).done

/-! The grant watchdog. -/

/-- The page programs that have begun on a die and whose status has not been read, with their bearers. -/
def State.begunOn (s : State) (x : Die) : List Req :=
  let held := match x.holder with
    | some h => h.req?.toList
    | none => []
  ((x.reqs ++ held ++ x.orphans).filter (s.pageHeld x.id)).eraseDups

/-- A READ or VERIFY whose sector lies on a die that has failed rebuilds it on demand (R290, Table 8-4). Whether the other pages decode is
free: log entry 37. -/
def State.lostRead (s : State) (d b p q n : Nat) (urgent : Bool) : State :=
  match s.cmd? q with
  | some c =>
    match c.ring with
    | some i => s.failedDieRead q n d b p (s.slotFor q i (c.lba + n) d b p) urgent (if s.freeDecode 7 d b p then .hard 0 else .fails false)
    | none => s
  | none => s

/-- The sectors that READs and VERIFYs still await from a die: the command, the sector, the block, the page and the class. -/
def Die.readsAwaited (x : Die) : List (Nat × Nat × Nat × Nat × Bool) :=
  (x.reqs ++ x.queued).filterMap (fun r =>
    match r.work with
    | .sector n => some (r.q, n, r.block, r.page, r.cls == .urgent)
    | .soft n => some (r.q, n, r.block, r.page, r.cls == .urgent)
    | .page => none
    | .mapRead _ _ => none
    | .job _ => none
    | .forced => none
    | .other => none)

/-- A die fails (R237, R290): beside what it takes with it, the programs running on it have failed, and the reads that await it rebuild
their sectors (Table 8-4). -/
def State.dieFails (s : State) (d : Nat) : State :=
  match s.die? d with
  | none => s
  | some x =>
    let begun := s.begunOn x
    let reads := x.readsAwaited
    let s := s.failDie d
    let rests : List Cmd := s.cmds.map (fun (c : Cmd) => { c with awaits := c.awaits.filter (fun e => e != d) })
    let s := { s with cmds := rests }
    let s : State := begun.foldl (fun (s : State) r => s.programEnds r.bearer d r.block r.page false) s
    let s : State := reads.foldl (fun (s : State) r => s.lostRead d r.2.2.1 r.2.2.2.1 r.1 r.2.1 r.2.2.2.2) s
    s.goOn.flashSettle

/-- WD_LAST_REQ.REQ of a holder: its requester, 0x44 for housekeeping (R237). -/
def Holder.number : Holder → Nat
  | .step r => r.who
  | .resetLun _ _ => 0x44
  | .reconfig => 0x44
  | .orphan _ => 0x44

/-- Does the watchdog run: not while factory test mode has stopped it (R478)? -/
def State.wdRuns (s : State) : Bool := !(s.ftm && s.bit Reg.TEST.WD_CTRL.STOP)

/-- WD_LAST_REQ and the counters of a bite. -/
def State.recordBite (s : State) (x : Die) (h : Holder) : State :=
  let s := (s.report Src.WATCHDOG.BITE).bump Reg.WATCHDOG.WD_BITES.BITES
  let s := (s.wr Reg.WATCHDOG.WD_LAST_REQ.REQ h.number).wr Reg.WATCHDOG.WD_LAST_REQ.VALID 1
  let s := (s.wr Reg.WATCHDOG.WD_LAST_REQ.CHAN (x.id / 16)).wr Reg.WATCHDOG.WD_LAST_REQ.TARGET (x.id % 16)
  s.wr Reg.WATCHDOG.WD_LAST_REQ.ACTIVITY x.activityCode

/-- The step that comes back after a bite, and whether it is a housekeeping step. -/
def Holder.back : Holder → Option Req × Bool
  | .step r => (some r, false)
  | .resetLun b o => (b, o)
  | .reconfig => (none, true)
  | .orphan r => (some r, true)

/-- A bite (R237): a second one before any step on the die has completed declares the die failed; otherwise the grant is
withdrawn and Reset LUN issued. -/
def State.bite (s : State) (die : Nat) : State :=
  match s.die? die with
  | none => s
  | some x =>
    match x.holder with
    | none => s
    | some h =>
      let s := s.recordBite x h
      if x.bitten then ((s.report Src.WATCHDOG.DIE_STUCK).bump Reg.WATCHDOG.WD_BITES.STUCK).dieFails die
      else
        (s.setDie die (fun x => { x with holder := some (.resetLun h.back.1 h.back.2), activity := .idle, preempting := false,
                                         bitten := true, watchdog := 0 })).leaveBus die

/-- GRANT_WATCHDOG_BITE (R235–R237): the count reaches the effective limit on this edge. -/
def execGrantWatchdogBite (die : Nat) (s : State) : Answer :=
  if s.clocked && s.wdRuns then (s.bite die).done else .next s

/-! The ECC engine. -/

/-- The codeword in a slot that awaits its decode. -/
def State.word? (s : State) (d b p k : Nat) : Option Codeword :=
  s.flash.words.find? (fun w => w.die == d && w.block == b && w.page == p && w.slot == k)

/-- Change a codeword. -/
def State.setWord (s : State) (w : Codeword) (f : Codeword → Codeword) : State :=
  s.onFlash (fun fl => { fl with words := mapIf (fun x => x == w) f fl.words })

/-- The codeword that soft decoder `i` takes next: decoder 3 only urgent ones while URGENT_SOFT reads 1, another urgent ones first and
then in order of arrival (R343). -/
def State.nextSoft (s : State) (i : Nat) : Option Codeword :=
  let l := s.flash.words.filter (fun w => w.soft && w.reads == 3 && w.decoder.isNone)
  match l.find? (fun w => w.urgent) with
  | some w => some w
  | none => if i = 3 ∧ s.rd Reg.ECC.CFG.URGENT_SOFT ≠ 0 then none else l.head?

/-- The free soft decoders take the codewords that wait for one, while the decoders take codewords (R343, R348). -/
def State.softAssign (s : State) : State :=
  if !s.eccOpen then s
  else [3, 0, 1, 2].foldl (fun (s : State) i =>
    if s.flash.words.any (fun w => w.decoder == some i) then s
    else match s.nextSoft i with
      | some w => s.setWord w (fun w => { w with decoder := some i })
      | none => s) s

/-- A further array read of a codeword that failed hard decode is presented, at its class (R224, R225, R343). -/
def State.softRead (s : State) (w : Codeword) : State :=
  match s.cmd? w.q with
  | some c =>
    match c.ring with
    | some i =>
      let r := s.sliceReq i w.q .read w.block w.page (.soft w.sector)
      let r : Req := if w.urgent then { r with cls := .urgent, weight := 0 }
        else if r.cls == .urgent then { r with cls := .steady, weight := 255 } else r
      s.presentNext w.die r
    | none => s
  | none => s

/-- A codeword's decode has ended for good: its payload goes to the sector's up buffer, and its command goes on. -/
def State.wordEnds (s : State) (w : Codeword) (out : SlotOut) : State :=
  let s := s.onFlash (fun fl => { fl with words := fl.words.erase w })
  let r := s.decodeEnds w.die w.block w.page w.slot w.urgent out
  let s := (r.1.carryBatch s w.q w.urgent).hold w.q w.sector (foundOf r.2) (out == .upBuffer)
  ((s.readOn w.q []).softAssign).flashSettle

/-- HARD_DECODE_DONE (R342, R344–R346): a codeword that fails hard decode is read three times more for soft decode, one read at a time.
One whose command is held stays in the channel FIFO (R217). -/
def execHardDecodeDone (die block page slot : Nat) (out : SlotOut) (s : State) : Answer :=
  match s.word? die block page slot with
  | some w =>
    if !s.clocked || !s.eccOpen || w.soft || s.descHeld w.q then s.done
    else if out.needsSoft then
      let v : Codeword := { w with soft := true }
      (((s.setWord w (fun _ => v)).softRead v).flashSettle).done
    else (s.wordEnds w out).done
  | none => s.done

/-- SOFT_DECODE_DONE (R343, R344, R346): the soft decode of the four reads ends in the decoder that the codeword has taken. -/
def execSoftDecodeDone (die block page slot : Nat) (out : SlotOut) (s : State) : Answer :=
  match s.word? die block page slot with
  | some w =>
    if !s.clocked || !s.eccOpen || !w.soft || w.reads != 3 || w.decoder.isNone || !out.needsSoft || s.descHeld w.q then s.done
    else (s.wordEnds w out).done
  | none => s.done

/-! Reconfiguration. -/

/-- K of R336 for a frequency and a profile. -/
def rateK (khz : Nat) (p : Profile) : Nat := max 1 (ceilDiv khz (p.maxRate * 100000))

/-- The smallest divisor at which a die's training passes: an operand's, or 1. -/
def trainLimit (limits : List (Nat × Nat)) (d : Nat) : Nat := ((limits.find? (fun e => e.1 == d)).map (fun e => e.2)).getD 1

/-- A counter of a channel. -/
def State.chanTally (s : State) (f : Field) (n : Nat) : State := s.bump (f.ofChannel n)

/-- Training (R339): the first die that fails raises K for the channel; at 800 MT/s or lower it is declared failed and K returns to its
value before that die's first failure. Answers K. -/
def State.train (n khz : Nat) (limits : List (Nat × Nat)) : Nat → Nat → List Nat → List (Nat × Nat) → State → State × Nat
  | 0, k, _, _, s => (s, k)
  | fuel + 1, k, dies, first, s =>
    match dies.find? (fun d => decide (k < trainLimit limits d)) with
    | none => (s, k)
    | some d =>
      let s := s.chanTally Reg.CH.COUNTS.TRAIN_FAILS n
      let k0 := ((first.find? (fun e => e.1 == d)).map (fun e => e.2)).getD k
      let first := if first.any (fun e => e.1 == d) then first else first ++ [(d, k)]
      if khz ≤ 800000 * k then
        let s := (s.report (Src.CH.CAL_FAIL.1 + n, Src.CH.CAL_FAIL.2)).dieFails d
        State.train n khz limits fuel k0 (dies.filter (fun e => e != d)) first s
      else
        let s := s.raise (Evt.CH.RATE_LOWERED.1 + n, Evt.CH.RATE_LOWERED.2)
        State.train n khz limits fuel (k + 1) dies first s

/-- The configuration that a reconfiguration loads (R336, R337): SDR timing mode 0 in ID mode and in safe-interface mode, otherwise
the rate of the smallest K, trained where the profile asks for it. -/
def State.configure (s : State) (n : Nat) (p : Profile) (limits : List (Nat × Nat)) : State :=
  let khz := s.khzInForce
  let sdr := !s.link.fast || s.safeIf
  let k := rateK khz p
  let dies := ((s.chanDies n).filter (fun x => x.present && !x.failed)).map (fun x => x.id)
  let r : State × Nat := if sdr then (s, 0)
    else if p.dqTrain && decide (800000 * k < khz) then State.train n khz limits 256 k dies [] s else (s, k)
  let fast := s.link.fast
  r.1.onFlash (fun fl =>
    let loaded : List Chan := mapIf (fun (c : Chan) => c.id == n)
      (fun c => { c with reconf := false, k := r.2, sdr := sdr, khz := khz, countKhz := khz, fast := fast }) fl.chans
    let freed : List Die := mapIf (fun (x : Die) => x.id / 16 == n && x.holder == some .reconfig)
      (fun x => { x with holder := none, activity := .idle, watchdog := 0, bitten := false }) fl.dies
    { fl with chans := loaded.map (fun (c : Chan) => if c.id / 4 = n / 4 then { c with zqDone := true } else c), dies := freed })

/-- RECONFIGURATION (R338, R339): the housekeeping step of a channel that needs it ends. `trainLimits` gives, for a die whose training
can fail, the smallest K at which it passes. -/
def execReconfiguration (ch : Nat) (trainLimits : List (Nat × Nat)) (s : State) : Answer :=
  match s.chanOf? ch, s.chanProfile ch with
  | some c, some p =>
    if s.clocked && c.reconf && s.channelIdle ch then
      let s := s.configure ch p trainLimits
      ((s.raise (Evt.CH.RECONFIGURED.1 + ch, Evt.CH.RECONFIGURED.2)).chanTally Reg.CH.COUNTS.RECONFIGS ch).done
    else s.done
  | _, _ => s.done

end Sys2Proof.Machine
end

