-- ==== Sys2Proof/Machine/LinkRows.lean ====
section
/-!
DEFINITION. The rows of the link: frames in fast mode and in ID mode, acknowledgement and replay, training, the voltage
switch, the return to ID mode and progress. A frame meets the receiver only while the card's clocked logic moves; an event
that the present state of the link does not allow leaves the state as it is.
-/
namespace Sys2Proof.Machine

/-- Does the receiver hear a frame: after a frame discarded under R105 it waits for an idle code or a training block? -/
def State.hears (s : State) (idle : Bool) : Bool := s.clocked && s.link.phase == .up && (idle || !s.link.hunting)

/-- The receiver is in step again. -/
def State.inStep (s : State) : State := s.onLink (fun l => { l with hunting := false })

/-- A frame that arrives while the card sends 0x4A in RETURNING is counted and nothing is sent for it (R89). -/
def State.dropsFrame (s : State) : Bool := s.clocked && s.link.phase == .returning

/-- CMD_FRAME (R104, R107, R112–R115): a good CMD frame. COMPLETIONs owed after a restart go out before a new command is stamped
(R130): until then an accepted frame waits. -/
def execCmdFrame (idle : Bool) (b : List Nat) (s : State) : Answer :=
  if goodFrame b != some .cmd then .next s
  else if s.dropsFrame then (s.bump Reg.LINK.ID_ERRORS.DROPPED).done
  else if s.hears idle then
    let r := s.inStep.receive (linkHdr b)
    (if r.2 then r.1.acceptCommand (cmdOf b) else r.1).admitHeld.done
  else .next s

/-- DATA_DN (R104, R107, R117): a good DATA_DN frame; its index is in ARG. -/
def execDataDn (idle : Bool) (b : List Nat) (s : State) : Answer :=
  if goodFrame b != some .dataDn then .next s
  else if s.dropsFrame then (s.bump Reg.LINK.ID_ERRORS.DROPPED).done
  else if s.hears idle then
    let r := s.inStep.receive (linkHdr b)
    let f := cmdOf b
    (if r.2 then r.1.takeData f.addr f.orig f.tag (fieldAt b 12 2) (fieldAt b 16 (64 * fieldAt b 7 1)) else r.1).admitHeld.done
  else .next s

/-- LINKCTL of the host (R104, R108, R111, R112): a good LINKCTL frame; RESTART is bit 0 of ARG. -/
def execLinkctl (idle : Bool) (b : List Nat) (s : State) : Answer :=
  if goodFrame b != some .linkctl then .next s
  else if s.dropsFrame then (s.bump Reg.LINK.ID_ERRORS.DROPPED).done
  else if s.hears idle then
    (s.inStep.takeLinkctl (linkHdr b) (bitAt (fieldAt b 12 4) 0)).admitHeld.done
  else .next s

/-- FRAME_DISCARD (R105, R107, R110): a frame with a header error or a failing CRC, after which the receiver waits for an idle
code; or a good sequenced frame whose LSEQ is not the expected one. -/
def execFrameDiscard (idle : Bool) (b : List Nat) (s : State) : Answer :=
  if s.hears idle then
    let h := linkHdr b
    match goodFrame b with
    | none =>
      (((s.tally Reg.LINKERR.RX_BAD.COUNT).onLink (fun l => { l with hunting := true })).nak h.lseq h.retx).admitHeld.done
    | some t => if t == .linkctl || h.lseq == s.link.rxExpected then .next s else (s.inStep.receive h).1.admitHeld.done
  else .next s

/-- NAK_REPLAY (R109, R110): a header with ACKV and NAK. -/
def execNakReplay (ackSeq : Nat) (s : State) : Answer :=
  if s.clocked && s.link.phase == .up then
    (s.takeAck { lseq := 0, ackSeq := ackSeq, ackv := true, retx := false, nak := true }).admitHeld.done
  else .next s

/-- REPLAY_TIMEOUT (R109): 65,536 HC with a frame unacknowledged and no advance of ACKSEQ. -/
def execReplayTimeout (s : State) : Answer :=
  if s.clocked && s.link.phase == .up && !s.link.unacked.isEmpty then s.replay.done
  else .next s

/-- LINKCTL_IDLE_ACK (R108): 1,024 HC after an accepted frame the card sends a LINKCTL. -/
def execLinkctlIdleAck (s : State) : Answer :=
  if s.clocked && s.link.phase == .up && s.link.ackDue then (s.onLink (fun l => { l with linkctlDue := true })).done
  else .next s

/-- TSD (R91, R92). -/
def execTsd (lane : Nat) (b : List Nat) (inSlot : Bool) (s : State) : Answer :=
  if s.clocked then (s.takeTsd lane b inSlot).done else .next s

/-- TSE (R91, R111). -/
def execTse (blocks : List (List Nat)) (inSlot : Bool) (s : State) : Answer :=
  if s.clocked then (s.takeTse blocks inSlot).done else .next s

/-- RETURN_TO_ID_REQUEST (R94, R130, R131). DEDUCED: log entry 36. -/
def execReturnToIdRequest (s : State) : Answer := if s.clocked then s.beginReturn.done else .next s

/-- RETURN_TO_ID_COMPLETE (R94). -/
def execReturnToIdComplete (s : State) : Answer := if s.clocked then s.endReturn.done else .next s

/-- ID_COMMAND_FRAME (R71–R78): the bytes of a frame, from OPCODE to the CRC. -/
def execIdCommandFrame (b : List Nat) (s : State) : Answer := if s.clocked then (s.takeIdFrame b).done else .next s

/-- ID_RECEIVER_RESYNC (R75): the receiver abandons a partial frame. -/
def execIdReceiverResync (s : State) : Answer :=
  if s.clocked && !s.link.fast then (s.onLink (fun l => { l with idPartial := false })).done else .next s

/-- SWITCH_REGULATED (R81, steps 2 and 3). -/
def execSwitchRegulated (s : State) : Answer :=
  if s.clocked && s.link.phase == .switching && s.link.switchStep == .regulate then
    (s.onLink (fun l => { l with switchStep := .confirm, switchHc := 0 })).done
  else .next s

/-- SWITCH_CONFIRM (R81, steps 4 and 5): the 16th consecutive low edge. -/
def execSwitchConfirm (s : State) : Answer := if s.clocked then s.enterFast.done else .next s

/-- SWITCH_CANCEL (R82): a start bit in step 2 or 3, or DN0_P high among the confirm edges. -/
def execSwitchCancel (startBit : Bool) (s : State) : Answer :=
  if s.clocked && s.link.phase == .switching && (startBit || s.link.switchStep == .confirm) then
    (s.cancelSwitch.onLink (fun l => { l with idPartial := startBit })).done
  else .next s

/-- SWITCH_TIMEOUT (R82): the last HC of the regulation wait. -/
def execSwitchTimeout (s : State) : Answer :=
  if s.clocked && s.link.phase == .switching && s.link.switchStep == .regulate then s.timeoutSwitch.done
  else .next s

/-- PROGRESS_INTERVAL (R36, R129): the CCLK edge on which a command's count reaches the next multiple of the interval. -/
def execProgressInterval (q : Nat) (s : State) : Answer :=
  if s.clocked then
    let n := s.progressInterval
    ((s.setCmd q (fun c => { c with progress := (c.progress / n + 1) * n - 1 })).progressEdge q).done
  else .next s

end Sys2Proof.Machine
end

