-- ==== Sys2Proof/Machine/UpkeepRows.lean ====
section
/-!
DEFINITION. The upkeep rows: REST and its completion, block erases, relocations, verification reads, patrol rounds (R254–R264,
R269, R283–R285).
-/
namespace Sys2Proof.Machine

/-! Rest windows. -/

/-- REST (R122, R124, R259): its Rest window opens with the map work that is due; BUDGET 0 completes at once. -/
def execRest (q : Nat) (s : State) : Answer :=
  (s.onCmd q opRest .decoded (fun c =>
    if c.budget = 0 then s.complete q stOk (s.restResult { c with steps := 0 })
    else ((s.setCmd q (fun c => { c with phase := .waiting, steps := 0 })).mapWork).flashSettle)).done

/-- Has a REST come to its end: its budget has passed and no step started for it runs; or no debt is left and no step of it runs, while
upkeep is enabled; or the Safe state is in force and no step runs (R260, R262)? -/
def State.restOver (s : State) (c : Cmd) : Bool :=
  if s.safe then !s.engineRuns
  else if decide (c.budget ≤ c.progress) then c.awaits.isEmpty
  else s.bit (enableBit 0x0D 0) && s.debt == 0 && c.awaits.isEmpty

/-- REST_COMPLETE (R124, R260, R262). -/
def execRestComplete (q : Nat) (s : State) : Answer :=
  (s.onCmd q opRest .waiting (fun c => if s.restOver c then s.endCmd q stOk (s.restResult c) else s)).done

/-- The RESTs that have come to their end complete on this edge. -/
def State.restsEnd (s : State) : State :=
  (s.cmds.filter (fun c => c.opcode == opRest && c.phase == .waiting)).foldl (fun (s : State) c =>
    if s.restOver c then s.endCmd c.q stOk (s.restResult c) else s) s

/-! Steps. -/

/-- Does an engine hold the die with the data of its source page transferred, so that the step may go on? -/
def State.engineHolds (s : State) (who d b p : Nat) : Bool :=
  match s.die? d with
  | some x =>
    (match x.holder with
      | some (.step r) => r.who == who && r.work == .other && r.op == .read && r.block == b && r.page == p && !x.preempting &&
          x.activity == .idle && decide (s.slotsOf d ≤ r.progress)
      | some (.resetLun _ _) => false
      | some .reconfig => false
      | some (.orphan _) => false
      | none => false)
  | none => false

/-- Does a step of an engine for this block stand on the die or wait for it? -/
def State.engineAsked (s : State) (d b : Nat) (op : OpKind) : Bool :=
  match s.die? d with
  | some x => (x.reqs ++ x.queued).any (fun r => r.work == .other && r.block == b && r.op == op)
  | none => false

/-- A reading step of an engine (R259): one that holds its die with its data goes on to its end; one that may start takes a free die at
once, and otherwise presents its request. What may not go on is given up. DESIGN CHOICE: log entry 26. -/
def State.engineRead (s : State) (who d b p : Nat) (goesOn may : Bool) (body : State → State) : State :=
  if s.engineHolds who d b p then
    if goesOn then ((body s).stepEnded d).release_ d else s.release_ d
  else if !may || !goesOn || s.engineAsked d b .read then s
  else if s.engineFree d b .read then (body ((s.countGrant who d 0).arrayRead d b)).stepEnded d
  else s.present d (newReq who 0 .steady (s.engineWeight who) .read b p .other)

/-- An erase of an engine (R254, R259): on a free die at once, otherwise presented, and ended by the die's status. -/
def State.engineErase (s : State) (d b : Nat) (may pass : Bool) : State :=
  if !may || s.engineAsked d b .erase then s
  else if s.engineFree d b .erase then ((s.countGrant 64 d 0).eraseStep d b pass).stepEnded d
  else s.present d (newReq 64 0 .steady (s.engineWeight 64) .erase b 0 .other)

/-- A relocation step of an engine: the map pages of the page's sectors are fetched first (R248). -/
def State.engineMove (s : State) (who d b p : Nat) (may : Bool) (outs : List SlotOut) (prog : ProgOut) : State :=
  let missing := s.sourceMissing d b p
  let s := if may && !missing.isEmpty then s.fetchFor missing else s
  s.engineRead who d b p (s.relocates && missing.isEmpty) may (fun s => s.relocateStep who d b p outs prog)

/-- BLOCK_ERASE (R254, R289, R291, R298, Table 10-2). -/
def execBlockErase (die block : Nat) (pass : Bool) (s : State) : Answer :=
  if s.clocked then
    let rank := if s.shortfall = 0 then 6 else s.gcRank
    let may := s.stepsMay && s.relocates && s.erasable die block && s.rankFree rank
    (s.engineErase die block may pass).done
  else .next s

/-- PAGE_RELOCATION (R254–R256, Table 10-2): of a GC victim. -/
def execPageRelocation (die block page : Nat) (outs : List SlotOut) (prog : ProgOut) (s : State) : Answer :=
  if s.clocked then
    let may := s.stepsMay && s.relocates && s.eccOpen && s.shortfall != 0 && s.isVictim die block &&
      s.pageValid die block page && s.rankFree s.gcRank
    (s.engineMove 64 die block page may outs prog).done
  else .next s

/-- REFRESH_RELOCATION (R254, R255, R269, R284, R298, Table 10-2): of a block flagged for refresh. -/
def execRefreshRelocation (die block page : Nat) (outs : List SlotOut) (prog : ProgOut) (s : State) : Answer :=
  if s.clocked then
    let may := s.stepsMay && s.relocates && s.eccOpen && s.refreshDue (s.block die block) &&
      s.pageValid die block page && s.rankFree 3
    (s.engineMove 67 die block page may outs prog).done
  else .next s

/-! Verification reads. -/

/-- The member page that awaits Proofing verification: its superblock and member. -/
def State.awaitsVerify (s : State) (d b p : Nat) : Option (Nat × Nat) :=
  match s.sbOf d b with
  | none => none
  | some x =>
    match x.memberOf d b with
    | none => none
    | some k => if x.st != .open && x.awaiting.contains (k, p) then some (x.id, k) else none

/-- Is a patrol sample of the page owed (R269)? -/
def State.patrolOwed (s : State) (d b p : Nat) : Bool :=
  s.flash.upkeep.patrol.contains (d, b) && ((s.dieProfile d).map (fun x => x.patrolPage)) == some p

/-- Does hard decode of the slot pass with the right tag? -/
def hardPasses : SlotOut → Bool
  | .hard _ => true
  | .soft => false
  | .fails _ => false
  | .tagBad _ _ => false
  | .erased _ => false
  | .upBuffer => true

/-- Decode the slots of a page that has been read; answers whether hard decode passes for all of them (R283, R286). -/
def State.readPage (s : State) (d b p : Nat) (outs : List SlotOut) : State × Bool :=
  let l := (rangeFrom 0 (s.slotsOf d)).map (fun k => (k, outs.getD k (.hard 0)))
  let r := l.foldl (fun (a : State × Bool) e =>
    let r := a.1.stepSlot d b p e.1 e.2 a.2
    (r.1, r.2.2)) (s, false)
  (r.1, l.all (fun e => hardPasses e.2))

/-- One Proofing verification read (R283–R285). A page of a failed die cannot be read, and fails. -/
def State.verifyStep (s : State) (i k d b p : Nat) (outs : List SlotOut) : State :=
  let s := s.setSb i (fun x => { x with awaiting := x.awaiting.filter (fun e => e != (k, p)) })
  let r := if s.dieGood d then s.readPage d b p outs else (s, false)
  let s := if r.2 then r.1 else r.1.verifyFails i k d b p
  ((s.tally Reg.UPKEEP.VERIFY_READS.COUNT).tryRelease i).flashSettle

/-- One patrol sample (R269). -/
def State.patrolStep (s : State) (d b p : Nat) (outs : List SlotOut) : State :=
  let s := (s.readPage d b p outs).1
  let s := s.onFlash (fun fl => { fl with upkeep := { fl.upkeep with patrol := fl.upkeep.patrol.filter (fun e => e != (d, b)) } })
  (s.tally Reg.UPKEEP.VERIFY_READS.COUNT).flashSettle

/-- VERIFICATION_READ (R269, R283, R299, Table 10-2): a Proofing read-back, or a patrol sample. PROOF.ENABLE = 0 starts none. -/
def execVerificationRead (die block page : Nat) (outs : List SlotOut) (s : State) : Answer :=
  if s.clocked then
    let may := s.stepsMay && s.eccOpen && s.pageOpen 0x0E
    match s.awaitsVerify die block page with
    | some (i, k) =>
      if !s.dieGood die then
        if may && s.rankFree 4 then ((s.verifyStep i k die block page outs).stepEnded die).done else .next s
      else
        (s.engineRead 65 die block page true (may && s.rankFree 4)
          (fun s => s.verifyStep i k die block page outs)).done
    | none =>
      if s.patrolOwed die block page then
        (s.engineRead 65 die block page true (may && s.rankFree 7) (fun s => s.patrolStep die block page outs)).done
      else .next s
  else .next s

/-- PATROL_START (R269): a write of 1 to UPKEEP.STATE.PATROL_START. -/
def execPatrolStart (s : State) : Answer := if s.clocked then (s.startPatrol.flashSettle).done else .next s

end Sys2Proof.Machine
end

