-- ==== Sys2Proof/Machine/SleepRows.lean ====
section
/-!
DEFINITION. SLEEP entry, the WAKE pattern, and the temperature sensor (chapter 17).
-/
namespace Sys2Proof.Machine

/-! Entry. -/

/-- What the sleep record holds (R414): the Originators, the bindings, the locks with their holders' Epochs and leases, the
declaration. -/
def State.sleepContent (s : State) (seq : Nat) : SleepRecord :=
  let slices (f : Slice → Bool) : List Nat := (rangeFrom 0 64).filter (fun i => f (s.slice i))
  { seq := seq
    consumed := false
    origs := s.origs.map (fun (o : Orig) => { o with nonce := none })
    owners := (slices (fun sl => sl.owner.isSome)).map (fun i => (i, (s.slice i).owner.getD 0xFF))
    locks := (slices (fun sl => sl.lock.isSome)).map (fun i => (i, (s.slice i).lock.getD ⟨0xFF, 0, none⟩))
    declKhz := s.rd Reg.CLOCK.DECL_FAST.DECL_KHZ }

/-- Step 2 of Table 17-3: both copies are programmed, the one not in force first. DEDUCED: log entry 18. -/
def State.programRecord (s : State) : State :=
  let n := (s.sleepRecord.map (fun r => r.seq)).getD 0
  if s.sleepA.isSome && s.sleepA == s.sleepRecord then
    { s with sleepB := some (s.sleepContent (n + 1)), sleepA := some (s.sleepContent (n + 2)) }
  else { s with sleepA := some (s.sleepContent (n + 1)), sleepB := some (s.sleepContent (n + 2)) }

/-- Step 4, and the address that the Crust keeps (R139): cell 0 SLEEPING, cell 26, cell 19. -/
def State.crustForSleep (s : State) : State :=
  let s := (s.cellBit 0 0 true).raiseCell 26
  s.setCell 19 (s.rd Reg.SHELF.ADDR.CARD_ADDR + 2 ^ 12 * s.rd Reg.SHELF.ADDR.ASSIGNED)

/-- SLEEP_ENTRY (R413–R416, R156, R379): the maps, the due checkpoints and the sleep record are written once VHOLD_OK reads 1 (R310), the
dies are idle and nothing waits for them, and the Crust opens the core rail. Only WAKE is an ALERT cause from here. -/
def execSleepEntry (s : State) : Answer :=
  if s.clocked && s.commitAcked && s.diesIdle && s.flash.jobs.isEmpty && s.power.vholdOk then
    let s := s.writeBackAll.checkpointBatch.programRecord.crustForSleep
    let s := s.writeAlert (if s.wakePending then 4 else 0)
    .next { s with power := { s.power with st := .sleep, armed := false, brownArmed := false } }
  else .next s

/-- WAKE_PATTERN (R96, R417, R418, R420): only in SLEEP. HOST_WAKE is latched and shown, and the card starts as at power-on.
DEDUCED: log entry 17. -/
def execWakePattern (s : State) : Answer :=
  if s.power.st == .sleep then
    let s := ((s.latchWake 0).writeAlert 4).raiseCell 27
    .next ((s.cellBit 0 0 false).powerOnStart none true false)
  else .next s

/-! Temperature. -/

/-- TEMP_CONVERSION (R423, R424, R268, R417): a conversion ends with its value, or has not ended within 4,096 CCLK. -/
def execTempConversion (value : Option Nat) (s : State) : Answer :=
  if s.clocked then
    match value with
    | some v => (s.takeTemp v).flashSettle.done
    | none => (s.report Src.POWER.SENSOR).done
  else .next s

/-- TEMP_RANGE_CLR (R427): the next conversion sets MIN and MAX both. -/
def execTempRangeClr (s : State) : Answer :=
  if s.clocked then { s with temp := { s.temp with fresh := true } }.done else .next s

end Sys2Proof.Machine
end

