-- ==== Sys2Proof/Machine/Dispatch.lean ====
section
/-!
DEFINITION. The meaning of each command: one arm per constructor.
-/
namespace Sys2Proof.Machine

def exec (i : Instr) (s : State) : Host.Outcome State Fault Refusal :=
  match i with
  | .nop q => Sys2Proof.Machine.execNop q s
  | .identify q => Sys2Proof.Machine.execIdentify q s
  | .assignAddress q => Sys2Proof.Machine.execAssignAddress q s
  | .switch q => Sys2Proof.Machine.execSwitch q s
  | .declareClock q => Sys2Proof.Machine.execDeclareClock q s
  | .declareClockCountsLoad q => Sys2Proof.Machine.execDeclareClockCountsLoad q s
  | .hello q => Sys2Proof.Machine.execHello q s
  | .helloEpochRecord q => Sys2Proof.Machine.execHelloEpochRecord q s
  | .sleepPropose q => Sys2Proof.Machine.execSleepPropose q s
  | .sleepVeto => Sys2Proof.Machine.execSleepVeto s
  | .vetoWindowEnd => Sys2Proof.Machine.execVetoWindowEnd s
  | .sleepCommit q => Sys2Proof.Machine.execSleepCommit q s
  | .sleepCommitComplete q => Sys2Proof.Machine.execSleepCommitComplete q s
  | .reset q => Sys2Proof.Machine.execReset q s
  | .abort q => Sys2Proof.Machine.execAbort q s
  | .abortTakesEffect q => Sys2Proof.Machine.execAbortTakesEffect q s
  | .read q outs => Sys2Proof.Machine.execRead q outs s
  | .write q progs => Sys2Proof.Machine.execWrite q progs s
  | .trim q => Sys2Proof.Machine.execTrim q s
  | .barrier q => Sys2Proof.Machine.execBarrier q s
  | .barrierRelease q => Sys2Proof.Machine.execBarrierRelease q s
  | .verify q outs => Sys2Proof.Machine.execVerify q outs s
  | .rest q => Sys2Proof.Machine.execRest q s
  | .restComplete q => Sys2Proof.Machine.execRestComplete q s
  | .regread q => Sys2Proof.Machine.execRegread q s
  | .regwrite q met => Sys2Proof.Machine.execRegwrite q met s
  | .sliceCreate q => Sys2Proof.Machine.execSliceCreate q s
  | .sliceBindChallenge q => Sys2Proof.Machine.execSliceBindChallenge q s
  | .sliceBindAnswer q => Sys2Proof.Machine.execSliceBindAnswer q s
  | .sliceUnbind q => Sys2Proof.Machine.execSliceUnbind q s
  | .sliceUnbindComplete q => Sys2Proof.Machine.execSliceUnbindComplete q s
  | .sliceLock q => Sys2Proof.Machine.execSliceLock q s
  | .sliceUnlock q => Sys2Proof.Machine.execSliceUnlock q s
  | .sliceReset q => Sys2Proof.Machine.execSliceReset q s
  | .sliceResetEnd slice => Sys2Proof.Machine.execSliceResetEnd slice s
  | .sliceSoftReset slice => Sys2Proof.Machine.execSliceSoftReset slice s
  | .sliceDestroy q => Sys2Proof.Machine.execSliceDestroy q s
  | .sliceDestroyComplete q => Sys2Proof.Machine.execSliceDestroyComplete q s
  | .fwStage q => Sys2Proof.Machine.execFwStage q s
  | .fwActivate q readable => Sys2Proof.Machine.execFwActivate q readable s
  | .fwConfirm q => Sys2Proof.Machine.execFwConfirm q s
  | .attnFetch q => Sys2Proof.Machine.execAttnFetch q s
  | .selftest q findings => Sys2Proof.Machine.execSelftest q findings s
  | .cmdFrame idle bytes => Sys2Proof.Machine.execCmdFrame idle bytes s
  | .commandDecode => Sys2Proof.Machine.execCommandDecode s
  | .stagingReserved => Sys2Proof.Machine.execStagingReserved s
  | .dataDn idle bytes => Sys2Proof.Machine.execDataDn idle bytes s
  | .linkctl idle bytes => Sys2Proof.Machine.execLinkctl idle bytes s
  | .frameDiscard idle bytes => Sys2Proof.Machine.execFrameDiscard idle bytes s
  | .nakReplay ackSeq => Sys2Proof.Machine.execNakReplay ackSeq s
  | .replayTimeout => Sys2Proof.Machine.execReplayTimeout s
  | .linkctlIdleAck => Sys2Proof.Machine.execLinkctlIdleAck s
  | .tsd lane bytes inSlot => Sys2Proof.Machine.execTsd lane bytes inSlot s
  | .tse blocks inSlot => Sys2Proof.Machine.execTse blocks inSlot s
  | .returnToIdRequest => Sys2Proof.Machine.execReturnToIdRequest s
  | .returnToIdComplete => Sys2Proof.Machine.execReturnToIdComplete s
  | .idCommandFrame bytes => Sys2Proof.Machine.execIdCommandFrame bytes s
  | .idReceiverResync => Sys2Proof.Machine.execIdReceiverResync s
  | .switchRegulated => Sys2Proof.Machine.execSwitchRegulated s
  | .switchConfirm => Sys2Proof.Machine.execSwitchConfirm s
  | .switchCancel startBit => Sys2Proof.Machine.execSwitchCancel startBit s
  | .switchTimeout => Sys2Proof.Machine.execSwitchTimeout s
  | .progressInterval q => Sys2Proof.Machine.execProgressInterval q s
  | .arbiterGrant die => Sys2Proof.Machine.execArbiterGrant die s
  | .dieReady die pass => Sys2Proof.Machine.execDieReady die pass s
  | .grantWatchdogBite die => Sys2Proof.Machine.execGrantWatchdogBite die s
  | .hardDecodeDone die block page slot out => Sys2Proof.Machine.execHardDecodeDone die block page slot out s
  | .softDecodeDone die block page slot out => Sys2Proof.Machine.execSoftDecodeDone die block page slot out s
  | .mapPageResident slice idx firstOk secondOk => Sys2Proof.Machine.execMapPageResident slice idx firstOk secondOk s
  | .blockErase die block pass => Sys2Proof.Machine.execBlockErase die block pass s
  | .pageRelocation die block page outs prog => Sys2Proof.Machine.execPageRelocation die block page outs prog s
  | .refreshRelocation die block page outs prog => Sys2Proof.Machine.execRefreshRelocation die block page outs prog s
  | .verificationRead die block page outs => Sys2Proof.Machine.execVerificationRead die block page outs s
  | .patrolStart => Sys2Proof.Machine.execPatrolStart s
  | .reconfiguration ch trainLimits => Sys2Proof.Machine.execReconfiguration ch trainLimits s
  | .powerOn => Sys2Proof.Machine.execPowerOn s
  | .resetRelease testEn => Sys2Proof.Machine.execResetRelease testEn s
  | .powerUpRecovery env => Sys2Proof.Machine.execPowerUpRecovery env s
  | .detNArm => Sys2Proof.Machine.execDetNArm s
  | .rstN => Sys2Proof.Machine.execRstN s
  | .linkSystemReset => Sys2Proof.Machine.execLinkSystemReset s
  | .coreResetHalt => Sys2Proof.Machine.execCoreResetHalt s
  | .coreResetRestart env => Sys2Proof.Machine.execCoreResetRestart env s
  | .blockSoftReset page => Sys2Proof.Machine.execBlockSoftReset page s
  | .blockSoftResetEnd page => Sys2Proof.Machine.execBlockSoftResetEnd page s
  | .blockIsolate page on => Sys2Proof.Machine.execBlockIsolate page on s
  | .blockEnable page on => Sys2Proof.Machine.execBlockEnable page on s
  | .removalTrigger detN brownOut => Sys2Proof.Machine.execRemovalTrigger detN brownOut s
  | .removalRbWaitEnd rbHigh => Sys2Proof.Machine.execRemovalRbWaitEnd rbHigh s
  | .removalRestart => Sys2Proof.Machine.execRemovalRestart s
  | .holdDroop => Sys2Proof.Machine.execHoldDroop s
  | .crustPowerOn => Sys2Proof.Machine.execCrustPowerOn s
  | .sleepEntry => Sys2Proof.Machine.execSleepEntry s
  | .wakePattern => Sys2Proof.Machine.execWakePattern s
  | .wakeForce => Sys2Proof.Machine.execWakeForce s
  | .wakeCauseClear mask met => Sys2Proof.Machine.execWakeCauseClear mask met s
  | .leaseExpired slice => Sys2Proof.Machine.execLeaseExpired slice s
  | .tempConversion value => Sys2Proof.Machine.execTempConversion value s
  | .faultSourceError page bank bit place => Sys2Proof.Machine.execFaultSourceError page bank bit place s
  | .graceExpiry => Sys2Proof.Machine.execGraceExpiry s
  | .hdrParity page bank index => Sys2Proof.Machine.execHdrParity page bank index s
  | .stageEcc q => Sys2Proof.Machine.execStageEcc q s
  | .alertReadback padP padN => Sys2Proof.Machine.execAlertReadback padP padN s
  | .faultGraceWrite value => Sys2Proof.Machine.execFaultGraceWrite value s
  | .inject page bank bit => Sys2Proof.Machine.execInject page bank bit s
  | .capacityWrite q slice cap => Sys2Proof.Machine.execCapacityWrite q slice cap s
  | .capacityLowerLand slice => Sys2Proof.Machine.execCapacityLowerLand slice s
  | .mapPin slice on => Sys2Proof.Machine.execMapPin slice on s
  | .authClear slice => Sys2Proof.Machine.execAuthClear slice s
  | .bindKeyWrite slice key => Sys2Proof.Machine.execBindKeyWrite slice key s
  | .qosWrite slice cls weight dieCap => Sys2Proof.Machine.execQosWrite slice cls weight dieCap s
  | .hwmClr slice => Sys2Proof.Machine.execHwmClr slice s
  | .wmCrossClear ring mask met => Sys2Proof.Machine.execWmCrossClear ring mask met s
  | .optionStageLoad => Sys2Proof.Machine.execOptionStageLoad s
  | .optionCommit => Sys2Proof.Machine.execOptionCommit s
  | .optionCommitDone good => Sys2Proof.Machine.execOptionCommitDone good s
  | .tempRangeClr => Sys2Proof.Machine.execTempRangeClr s
  | .crustLostClear => Sys2Proof.Machine.execCrustLostClear s
  | .fuseProgram entry code confirm => Sys2Proof.Machine.execFuseProgram entry code confirm s
  | .testSeal confirm => Sys2Proof.Machine.execTestSeal confirm s
  | .keyProgram slot confirm => Sys2Proof.Machine.execKeyProgram slot confirm s
  | .keyRevoke slot confirm => Sys2Proof.Machine.execKeyRevoke slot confirm s
  | .fuseProgramDone good => Sys2Proof.Machine.execFuseProgramDone good s
  | .wdStop on => Sys2Proof.Machine.execWdStop on s
  | .extest => Sys2Proof.Machine.execExtest s
  | .samplePreload levels => Sys2Proof.Machine.execSamplePreload levels s
  | .idcode => Sys2Proof.Machine.execIdcode s
  | .highz => Sys2Proof.Machine.execHighz s
  | .clamp => Sys2Proof.Machine.execClamp s
  | .bypass => Sys2Proof.Machine.execBypass s
  | .trstN => Sys2Proof.Machine.execTrstN s
  | .vccLoss => Sys2Proof.Machine.execVccLoss s
  | .vbakLoss => Sys2Proof.Machine.execVbakLoss s
  | .vholdOk => Sys2Proof.Machine.execVholdOk s
  | .enableWrite page bank index value => Sys2Proof.Machine.execEnableWrite page bank index value s
  | .faultHandling page bank index value met => Sys2Proof.Machine.execFaultHandling page bank index value met s
  | .alertControlWrite mask force => Sys2Proof.Machine.execAlertControlWrite mask force s

end Sys2Proof.Machine
end

