-- ==== Sys2Proof/Machine/Tick.lean ====
section
/-!
DEFINITION. One CCLK edge on which nothing is commanded: every count of clock presence advances by one edge (R10, R25), and one
that reaches its end on this edge does what its row of the table does (log entry 1).
-/
namespace Sys2Proof.Machine

/-- `CLOCK.HC_COUNT` (R23). -/
def State.countHc (s : State) : State :=
  let v := s.rd Reg.CLOCK.HC_COUNT_0.HC_LO + 2 ^ 32 * s.rd Reg.CLOCK.HC_COUNT_1.HC_HI + s.hcPerTick
  (s.wr Reg.CLOCK.HC_COUNT_0.HC_LO (v % 2 ^ 32)).wr Reg.CLOCK.HC_COUNT_1.HC_HI (v / 2 ^ 32 % 2 ^ 32)

/-- The progress counts of the commands In flight (R36). -/
def State.countProgress (s : State) : State := s.cmds.foldl (fun (s : State) c => s.progressEdge c.q) s

/-- The veto window (R151). -/
def State.countWindow (s : State) : State :=
  if s.shelf.proposal.isNone then s
  else if s.vetoWindow ≤ s.shelf.window + 1 then s.windowEnds
  else
    let s := s.vetoEdge
    if s.shelf.proposal.isNone then s else { s with shelf := { s.shelf with window := s.shelf.window + 1 } }

/-- The lease of Slice `i`, in HC (R183). -/
def State.countLease (s : State) (i : Nat) : State :=
  match (s.slice i).lock with
  | some l =>
    match l.lease with
    | some n =>
      if n ≤ s.hcPerTick then s.expireLease i
      else s.setSlice i (fun sl => { sl with lock := some { l with lease := some (n - s.hcPerTick) } })
    | none => s
  | none => s

/-- The replay and the regulation counts of the link (R109, R82). -/
def State.countLink (s : State) : State :=
  let s := if s.link.phase == .up && !s.link.unacked.isEmpty then
      if 65536 ≤ s.link.idleHc + s.hcPerTick then s.replay
      else s.onLink (fun l => { l with idleHc := l.idleHc + s.hcPerTick })
    else s
  if s.link.phase == .switching && s.link.switchStep == .regulate then
    if 65536 ≤ s.link.switchHc + 1 then s.timeoutSwitch else s.onLink (fun l => { l with switchHc := l.switchHc + 1 })
  else s

/-- One more CCLK of waiting. -/
def Req.wait (r : Req) : Req := { r with waited := r.waited + 1 }

/-- One more CCLK of a grant (R227). -/
def Holder.hold : Holder → Holder
  | .step r => .step { r with held := r.held + 1 }
  | .resetLun b o => .resetLun b o
  | .reconfig => .reconfig
  | .orphan r => .orphan r

/-- The counts of a die: the occupancy of the running grant, its watchdog count, the waits of its requests (R227, R235, R238). -/
def Die.countEdge (x : Die) (watched : Bool) : Die :=
  { x with
    holder := x.holder.map Holder.hold
    watchdog := if x.holder.isSome && watched then x.watchdog + 1 else x.watchdog
    fifo := x.fifo.map Req.wait
    waiting := x.waiting.map Req.wait
    lower := x.lower.map Req.wait
    preempted := x.preempted.map Req.wait }

/-- The dies whose watchdog bites on this edge (R236). -/
def State.biting (s : State) : List Nat :=
  if s.wdRuns then
    (s.flash.dies.filter (fun (x : Die) => x.holder.isSome && decide (s.wdLimit x.id ≤ x.watchdog + 1))).map (fun x => x.id)
  else []

/-- The dies' counts; the watchdogs that reach their limits bite. -/
def State.countDies (s : State) : State :=
  let bites := s.biting
  let watched := s.wdRuns
  let s := s.onFlash (fun fl => { fl with dies := fl.dies.map (fun (x : Die) => x.countEdge watched) })
  bites.foldl (fun (s : State) d => s.bite d) s

/-! The channel buses (R229, R341). -/

/-- The CCLK that 64 bytes take on a channel's bus: 32 × K FCLK, or 64 transfers at the 10 MT/s of SDR timing mode 0. DEDUCED: log
entry 64. -/
def State.burst (s : State) (c : Chan) : Nat := if c.sdr then max 1 (ceilDiv (64 * s.cclkKhz) 10000) else 8 * max 1 c.k

/-- The codeword slots that a step moves in all. -/
def State.slotsToMove (s : State) (d : Nat) (r : Req) : Nat :=
  match r.work with
  | .sector _ => 1
  | .soft _ => 1
  | .mapRead _ _ => 1
  | .page => s.slotsOf d * (match s.dieProfile d with
    | some p => if p.oneShot then p.bpc else 1
    | none => 1)
  | .job _ => s.slotsOf d
  | .forced => s.slotsOf d
  | .other => s.slotsOf d

/-- The data input of a program is complete: it is confirmed, and the program begins in the array (R314). -/
def State.inputEnds (s : State) (d : Nat) (r : Req) (h : Req → Holder) : State :=
  let s := (s.setDie d (fun x => { x with activity := .programming, holder := some (h { r with inArray := true }) })).leaveBus d
  if r.work == .page then s.confirmPages d r.block r.page (s.slotsToMove d r / max 1 (s.slotsOf d)) else s

/-- The codeword of a sector has come into the channel FIFO, and goes to the decoder (R342). -/
def State.wordComes (s : State) (d n : Nat) (r : Req) : State :=
  match s.cmd? r.q with
  | none => s
  | some c =>
    let w : Codeword := { die := d, block := r.block, page := r.page, slot := s.slotFor r.q r.who (c.lba + n) d r.block r.page,
                          q := r.q, sector := n, urgent := r.cls == .urgent, soft := false, reads := 0, decoder := none }
    s.onFlash (fun fl => { fl with words := fl.words ++ [w] })

/-- A further read of a codeword has come (R343): the next one is presented, or after the third the codeword waits for a soft
decoder, behind those that came before it. -/
def State.softComes (s : State) (d n : Nat) (r : Req) : State :=
  match s.flash.words.find? (fun w => w.die == d && w.q == r.q && w.sector == n && w.soft) with
  | none => s
  | some w =>
    let v : Codeword := { w with reads := w.reads + 1 }
    let s := s.onFlash (fun fl => { fl with words := fl.words.erase w ++ [v] })
    if v.reads < 3 then s.softRead v else s.softAssign

/-- The data output of a step is complete. -/
def State.outputEnds (s : State) (d : Nat) (r : Req) : State :=
  match r.work with
  | .sector n => (s.release_ d).wordComes d n r
  | .soft n => (s.release_ d).softComes d n r
  | .mapRead i idx => (s.release_ d).setFetch i idx (fun f => { f with arrived := true })
  | .forced => ((s.release_ d).forcedBody .read d r.block r.page true).goOn
  | .other => (s.setDie d (fun x => { x with activity := .idle })).leaveBus d
  | .page => s.release_ d
  | .job _ => s.release_ d

/-- A codeword slot has been transferred: a progress event of the holder (R231, R235). -/
def State.slotMoved (s : State) (d : Nat) : State :=
  let s := s.setDie d (fun x => { x with moved := 0, watchdog := 0 })
  let count (r : Req) : Req := { r with progress := r.progress + 1 }
  match s.die? d with
  | none => s
  | some x =>
    let full (r : Req) : Bool := decide (s.slotsToMove d r ≤ r.progress)
    match x.holder with
    | some (.step r) =>
      let r := count r
      let s := s.setDie d (fun x => { x with holder := some (.step r) })
      if !full r then s else if x.activity == .dataIn then s.inputEnds d r .step else s.outputEnds d r
    | some (.orphan r) =>
      let r := count r
      let s := s.setDie d (fun x => { x with holder := some (.orphan r) })
      if !full r then s else if x.activity == .dataIn then s.inputEnds d r .orphan else s.release_ d
    | some (.resetLun _ _) => s
    | some .reconfig => s
    | none => s

/-- A 64-byte boundary on the bus of a channel: 72 of them make a codeword slot of 4,608 bytes. -/
def State.burstEnds (s : State) (d : Nat) : State :=
  match s.die? d with
  | some x => if x.moved + 1 < 72 then s.setDie d (fun x => { x with moved := x.moved + 1 }) else s.slotMoved d
  | none => s

/-- At a 64-byte boundary a lower-class transfer gives the bus to an urgent step that needs it, and goes on after it (R229). -/
def State.yieldBus (s : State) (n : Nat) : State :=
  match s.flash.chans.find? (fun c => c.id == n) with
  | some c =>
    (match c.bus, c.busWait.find? s.urgentHolds with
      | some d, some e => if s.urgentHolds d then s else s.setChan n (fun c => { c with bus := some e, busWait := d :: c.busWait.erase e })
      | some _, none => s
      | none, _ => s)
  | none => s

/-- One CCLK of a channel's bus. -/
def State.busEdge (s : State) (n : Nat) : State :=
  match s.flash.chans.find? (fun c => c.id == n) with
  | none => s
  | some c =>
    match c.bus with
    | none => s.grantBus n
    | some d =>
      if c.beat + 1 < s.burst c then s.setChan n (fun c => { c with beat := c.beat + 1 })
      else ((s.setChan n (fun c => { c with beat := 0 })).burstEnds d).yieldBus n

/-- One CCLK of every channel's bus. -/
def State.busEdges (s : State) : State := (s.flash.chans.map (fun c => c.id)).foldl (fun (s : State) n => s.busEdge n) s

/-- What moves by itself on the flash side: the buses, the decoders, the arbiters' queues, the commands and jobs that wait, the map work
of a Rest window, and the RESTs that end. -/
def State.flashEdge (s : State) : State :=
  ((((s.busEdges.softAssign).arbSettle.goOn).mapWork).flashSettle).restsEnd

/-- Descriptors that waited for staging on this edge (`DMA.STAGE_WAITS`). -/
def State.countStageWaits (s : State) : State :=
  let n := count (fun (d : Desc) => d.st == .waitStage && !d.waited) s.descs
  let s := { s with descs := mapIf (fun (d : Desc) => d.st == .waitStage) (fun d => { d with waited := true }) s.descs }
  if n = 0 then s else s.bump Reg.DMA.STAGE_WAITS.COUNT n

/-- The drain of a core reset (R354) and the pulses of fuse programming (R479). -/
def State.countResets (s : State) : State :=
  let draining : Bool := match s.power.resetReq with
    | some r => !r.system
    | none => false
  { s with
    power := { s.power with drain := if draining then s.power.drain + 1 else s.power.drain }
    fuses := { s.fuses with pulse := s.fuses.pulse - s.hcPerTick } }

/-- The comparison of the ALERT pads with the latch (R381). -/
def State.countReadback (s : State) : State :=
  if s.alertSensed == s.alertPads then { s with esc := { s.esc with readback := 0 } }
  else if s.esc.readback + 1 = 4096 then
    ({ s with esc := { s.esc with readback := 4096 } }).report Src.ESCALATE.ALERT_READBACK
  else { s with esc := { s.esc with readback := min 4096 (s.esc.readback + 1) } }

/-- One CCLK edge. A card whose clocked logic stands still stays as it is (R26). -/
def tick (s : State) : State :=
  if s.clocked then
    let s := s.sampleAll.countHc.countProgress.countWindow
    let s : State := (rangeFrom 0 64).foldl (fun (s : State) i => s.countLease i) s
    ((s.countLink.admitHeld.countDies.flashEdge).freeDescs.countStageWaits.countResets.countReadback.escTick).settle
  else s

end Sys2Proof.Machine
end

