-- ==== Sys2Proof/Safety.lean ====
section
/-!
DEFINITION. The terms that claims use: what counts as a safe step, the parts of the card, when a state is well formed, what the
end of a step leaves alone, and where a command's fixed status stands.
-/
namespace Sys2Proof.Safety

open Sys2Proof.Machine

/-- Does an outcome go on? -/
def goesOn : Host.Outcome State Fault Refusal → Bool
  | .next _ => true
  | .fault _ => false
  | .refused _ => false

/-! The parts of the card. -/

/-- The fields of State. -/
inductive Part where
  | pending | regs | link | wire | cmds | descs | attn | seqs | origs | slices | shelf | flash | power | crust | sleepA | sleepB
  | opt | fw | esc | temp | fuses | tap | draws | keys
deriving DecidableEq, Repr

/-- Do two states agree on a part? -/
def Part.Same (p : Part) (s t : State) : Prop :=
  match p with
  | .pending => t.pending = s.pending
  | .regs => t.regs = s.regs
  | .link => t.link = s.link
  | .wire => t.wire = s.wire
  | .cmds => t.cmds = s.cmds
  | .descs => t.descs = s.descs
  | .attn => t.attn = s.attn
  | .seqs => t.seqs = s.seqs
  | .origs => t.origs = s.origs
  | .slices => t.slices = s.slices
  | .shelf => t.shelf = s.shelf
  | .flash => t.flash = s.flash
  | .power => t.power = s.power
  | .crust => t.crust = s.crust
  | .sleepA => t.sleepA = s.sleepA
  | .sleepB => t.sleepB = s.sleepB
  | .opt => t.opt = s.opt
  | .fw => t.fw = s.fw
  | .esc => t.esc = s.esc
  | .temp => t.temp = s.temp
  | .fuses => t.fuses = s.fuses
  | .tap => t.tap = s.tap
  | .draws => t.draws = s.draws
  | .keys => t.keys = s.keys

/-- Only the listed parts differ. -/
def Only (l : List Part) (s t : State) : Prop := ∀ p, p ∉ l → p.Same s t

/-! Well-formed states. -/

/-- The form that every step keeps: the stores stand in canonical form, every Crust cell and every attention SEQ has at most
16 bits (R201, R317), there are 64 Slices (R157). -/
def wf (s : State) : Prop :=
  storeWf s.regs = true ∧ (storeWf s.crust = true ∧ store16 s.crust = true) ∧
    (storeWf s.seqs = true ∧ store16 s.seqs = true) ∧ s.slices.length = 64

/-! The end of a step. Every command that moves the clocked logic ends with what holds on every CCLK edge: header parity,
the wake latch of a temperature alarm, the escalation, what the link can send, the ALERT latch (R47, R106, R371, R380, R418). -/

/-- The registers that the end of a step may write, by key: fault and attention stickies (indices 3 and 6 of every page) and
the counts and marks of attention entries, of escalation and of Quiet points. -/
def endKey (k : Nat) : Bool :=
  keyIndex k == 3 || keyIndex k == 6 ||
    [(0x02, 15), (0x04, 13), (0x07, 11), (0x07, 12), (0x07, 13), (0x08, 13), (0x08, 14), (0x24, 9), (0x24, 11),
     (0x27, 9)].contains (keyPage k, keyIndex k)

/-- The link apart from its queues, credit and acknowledgements, which the end of a step moves. -/
def linkRest (l : Link) : Link :=
  { l with txQueue := [], unacked := [], txLseq := 0, idleHc := 0, ackDue := false, owed := [], cmdLimit := 0,
           linkctlDue := false, nakDue := false, idResponse := none }

/-- The parts that the end of a step may change. -/
def stepParts : List Part := [.regs, .link, .wire, .cmds, .descs, .attn, .seqs, .origs, .crust, .esc]

/-- A command at work at the end of a step, and as it was before: its data phase may have opened, as its DATA_REQ was sent
(R117). -/
def Goes (before after : Cmd) : Prop :=
  after = before ∨ (before.phase = .asking ∧ after = { before with phase := .data })

/-- An Originator apart from its nonce, which is spent as its SLICE_BIND ends (R163). -/
def plain (o : Orig) : Orig := { o with nonce := none }

/-- The state `t` is `b` but for what the end of a step may move: the link's queues, completions of commands whose status
is fixed, attention entries, the escalation, the registers of `endKey` and the Crust cells 0, 24 and 25. Commands still at
work, their descriptors and all other registers and cells stand as they were; what has been sent stays sent. -/
structure Ends (b t : State) : Prop where
  parts : Only stepParts b t
  link : linkRest t.link = linkRest b.link
  wire : b.wire <+: t.wire
  regs : ∀ k, endKey k = false → storeRead t.regs k = storeRead b.regs k
  cells : ∀ n, n ≠ 0 → n ≠ 24 → n ≠ 25 → t.cell n = b.cell n
  cmds : ∀ c ∈ t.cmds, c.done? = false → ∃ d ∈ b.cmds, Goes d c
  descs : ∀ d ∈ t.descs, d.st ≠ .ending → d ∈ b.descs
  origs : t.origs.map plain = b.origs.map plain

/-- The parts that each command may change; every other part stands as it was. -/
def touches : Instr → List Part
  | .nop _ | .identify _ | .assignAddress _ | .switch _ | .declareClock _ => stepParts
  | .declareClockCountsLoad _ => stepParts ++ [.flash]
  | .hello _ => stepParts
  | .helloEpochRecord _ => stepParts ++ [.slices]
  | .sleepPropose _ | .sleepVeto | .vetoWindowEnd => stepParts ++ [.shelf]
  | .sleepCommit _ => stepParts
  | .sleepCommitComplete _ => stepParts ++ [.shelf]
  | .reset _ => stepParts ++ [.power]
  | .abort _ | .abortTakesEffect _ | .read _ _ | .write _ _ | .trim _ => stepParts ++ [.flash]
  | .barrier _ | .barrierRelease _ => stepParts
  | .verify _ _ | .rest _ | .restComplete _ => stepParts ++ [.flash]
  | .regread _ => stepParts
  | .regwrite _ _ => stepParts ++ [.slices, .flash, .sleepA, .sleepB, .opt, .fw, .temp, .fuses]
  | .sliceCreate _ => stepParts ++ [.slices, .sleepA, .sleepB, .fw, .keys]
  | .sliceBindChallenge _ => stepParts ++ [.draws]
  | .sliceBindAnswer _ => stepParts ++ [.slices]
  | .sliceUnbind _ => stepParts
  | .sliceUnbindComplete _ | .sliceLock _ | .sliceUnlock _ => stepParts ++ [.slices]
  | .sliceReset _ => stepParts ++ [.slices, .flash]
  | .sliceResetEnd _ => stepParts ++ [.slices]
  | .sliceSoftReset _ | .sliceDestroy _ => stepParts ++ [.slices, .flash]
  | .sliceDestroyComplete _ => stepParts ++ [.slices, .flash, .sleepA, .sleepB, .fw]
  | .fwStage _ => stepParts ++ [.fw]
  | .fwActivate _ _ => stepParts ++ [.power, .fw]
  | .fwConfirm _ => stepParts ++ [.fw]
  | .attnFetch _ => stepParts
  | .selftest _ _ => stepParts ++ [.flash]
  | .cmdFrame _ _ => stepParts ++ [.shelf, .flash]
  | .commandDecode => stepParts ++ [.flash, .fw]
  | .stagingReserved => stepParts ++ [.flash]
  | .dataDn _ _ | .linkctl _ _ | .frameDiscard _ _ | .nakReplay _ | .replayTimeout => stepParts ++ [.shelf, .flash]
  | .linkctlIdleAck | .tsd _ _ _ | .tse _ _ => stepParts
  | .returnToIdRequest => stepParts ++ [.shelf, .flash]
  | .returnToIdComplete => stepParts ++ [.flash]
  | .idCommandFrame _ => stepParts ++ [.shelf]
  | .idReceiverResync | .switchRegulated => stepParts
  | .switchConfirm => stepParts ++ [.flash]
  | .switchCancel _ | .switchTimeout | .progressInterval _ => stepParts
  | .arbiterGrant _ | .dieReady _ _ | .grantWatchdogBite _ | .hardDecodeDone _ _ _ _ _
  | .softDecodeDone _ _ _ _ _ => stepParts ++ [.flash]
  | .mapPageResident _ _ _ _ => stepParts ++ [.slices, .flash]
  | .blockErase _ _ _ | .pageRelocation _ _ _ _ _ | .refreshRelocation _ _ _ _ _ | .verificationRead _ _ _ _
  | .patrolStart | .reconfiguration _ _ => stepParts ++ [.flash]
  | .powerOn => stepParts ++ [.slices, .shelf, .flash, .power, .opt, .fw, .temp, .fuses, .tap, .draws]
  | .resetRelease _ => stepParts ++ [.flash, .power, .opt]
  | .powerUpRecovery _ => stepParts ++ [.slices, .flash, .power, .fw, .temp]
  | .detNArm => stepParts ++ [.power]
  | .rstN | .linkSystemReset => stepParts ++ [.slices, .shelf, .flash, .power, .opt, .fw, .temp]
  | .coreResetHalt => stepParts ++ [.shelf, .flash, .power]
  | .coreResetRestart _ => stepParts ++ [.slices, .flash, .power, .fw, .temp]
  | .blockSoftReset _ => stepParts ++ [.flash]
  | .blockSoftResetEnd _ => stepParts
  | .blockIsolate _ _ => stepParts ++ [.flash]
  | .blockEnable _ _ => stepParts
  | .removalTrigger _ _ | .removalRbWaitEnd _ => [.power, .crust]
  | .removalRestart => stepParts ++ [.slices, .shelf, .flash, .power, .opt, .fw, .temp, .fuses, .tap, .draws]
  | .holdDroop => stepParts ++ [.power]
  | .crustPowerOn => stepParts ++ [.slices, .shelf, .flash, .power, .opt, .fw, .temp, .fuses, .tap, .draws]
  | .sleepEntry => [.regs, .attn, .seqs, .flash, .power, .crust, .sleepA, .sleepB, .esc]
  | .wakePattern => stepParts ++ [.slices, .shelf, .flash, .power, .opt, .fw, .temp, .fuses, .tap, .draws]
  | .wakeForce | .wakeCauseClear _ _ => stepParts
  | .leaseExpired _ => stepParts ++ [.slices]
  | .tempConversion _ => stepParts ++ [.flash, .temp]
  | .faultSourceError _ _ _ _ => stepParts ++ [.flash]
  | .graceExpiry | .hdrParity _ _ _ => stepParts
  | .stageEcc _ => stepParts ++ [.flash]
  | .alertReadback _ _ | .faultGraceWrite _ | .inject _ _ _ => stepParts
  | .capacityWrite _ _ _ => stepParts ++ [.slices, .flash, .sleepA, .sleepB, .fw]
  | .capacityLowerLand _ => stepParts ++ [.slices, .flash, .sleepA, .sleepB, .opt, .fw, .temp, .fuses]
  | .mapPin _ _ => stepParts ++ [.slices, .sleepA, .sleepB, .fw]
  | .authClear _ => stepParts
  | .bindKeyWrite _ _ | .qosWrite _ _ _ _ => stepParts ++ [.slices, .sleepA, .sleepB, .fw]
  | .hwmClr _ | .wmCrossClear _ _ _ => stepParts
  | .optionStageLoad | .optionCommit | .optionCommitDone _ => stepParts ++ [.opt]
  | .tempRangeClr => stepParts ++ [.temp]
  | .crustLostClear => stepParts
  | .fuseProgram _ _ _ | .testSeal _ | .keyProgram _ _ | .keyRevoke _ _ => stepParts ++ [.fuses]
  | .fuseProgramDone _ => stepParts ++ [.fuses, .draws]
  | .wdStop _ => stepParts
  | .extest | .samplePreload _ | .idcode | .highz | .clamp | .bypass | .trstN => [.tap]
  | .vccLoss => [.power, .fuses, .draws]
  | .vbakLoss => [.power, .crust]
  | .vholdOk => [.power]
  | .enableWrite _ _ _ _ | .faultHandling _ _ _ _ _ | .alertControlWrite _ _ => stepParts

/-! A command's completion. -/

/-- A completion frame on the link that carries a status and a result for a command. -/
def Carries (f : UpFrame) (c : Cmd) (st r : Nat) : Prop :=
  f.ftype = .completion ∧ f.q = c.q ∧ f.orig = c.orig ∧ f.tag = c.tag ∧ f.opcode = c.opcode ∧ f.status = st ∧ f.payload = r

/-- The completion fields that stand under a status: the bytes that Table 5-5 names for the command (R119); in ID mode the data
that the response carries stand behind them (R72). -/
def completionFields (c : Cmd) (st r : Nat) (data : Nat := 0) : Nat :=
  if c.idMode then r % 2 ^ (8 * c.namedBytes st) + 2 ^ (8 * c.namedBytes st) * data else r % 2 ^ (8 * c.namedBytes st)

/-- The command's status is fixed at `st` with the result `r` (R116): the command stands settled with them, or its COMPLETION
has been sent, or its ID-mode response is out (R71), or its completion is posted on an attention ring (R131). -/
def Fixed (t : State) (c : Cmd) (st r : Nat) : Prop :=
  (∃ d ∈ t.cmds, d.q = c.q ∧ d.orig = c.orig ∧ d.tag = c.tag ∧ d.opcode = c.opcode ∧ d.done? = true ∧ d.status = st ∧
    d.result = r) ∨
  (∃ f ∈ t.link.unacked, Carries f c st r) ∨
  (∃ a, t.link.idResponse = some a ∧ a.orig = c.orig ∧ a.tag = c.tag ∧ a.opcode = c.opcode ∧ a.status = st ∧ a.body = r) ∨
  (∃ e ∈ t.attn, e.kind = .completion ∧ e.order = c.q ∧ e.tag = c.tag ∧ e.b1 = st ∧ e.b2 = c.orig ∧ e.b3 = c.opcode)

/-! What a claim says of a command. -/

/-- The command that a row acts on: In flight with number `q`, of the row's opcode and in the row's phase, on a card whose
clocked logic moves. -/
def AtWork (s : State) (q : Nat) (c : Cmd) (op : Nat) (ph : CmdPhase) : Prop :=
  s.cmd? q = some c ∧ s.clocked = true ∧ c.opcode = op ∧ c.phase = ph

/-- The row ends in the next state `t`: the state `x` in which the row's effect stands, with the status `st` and the completion
fields `r` fixed for `c`, and the end of the step behind it. All that is not the completion or the end of a step is as in `x`. -/
def Finishes (i : Instr) (s x : State) (c : Cmd) (st r : Nat) (t : State) : Prop :=
  exec i s = .next t ∧ t = (x.complete c.q st r).settle ∧ Ends x t ∧ Fixed t c st (completionFields c st r)

/-- The row ends in the next state `t`: the state `x` in which the row's effect stands, and the end of the step behind it. -/
def Moves (i : Instr) (s x t : State) : Prop := exec i s = .next t ∧ t = x.settle ∧ Ends x t

end Sys2Proof.Safety
end

