-- ==== Sys2Proof/Certificates/Slice0/Obligations.lean ====
section
/-!
DEFINITION. What is to be proved of the model. A statement of a row says the state in which its effect stands, as `Moves` and
`Finishes` of Safety put it; what the row leaves alone follows from them and from `touches`.
-/
open Sys2Proof Sys2Proof.Machine Sys2Proof.Safety

/-! The queue and the step. -/

/-- A step takes the command at the front of the queue and runs it on the card with the queue's rest. -/
def Obligations.StepRunsFrontCommand : Prop :=
  ∀ (c : Instr) (s : State), step { s with pending := c :: s.pending } = exec c s

/-- On an empty queue a step is one CCLK edge of the card's counts (log entry 1, the model's choice): it goes on with an empty
queue, a card whose clocked logic stands still stays as it is, and an edge alone changes no image, no option copy, no sleep record,
nothing of the temperature sensor and the test port, and draws no random value and no key. -/
def Obligations.EmptyQueueIsOneEdge : Prop :=
  ∀ s : State, s.pending = [] → ∃ t, step s = .next t ∧ t.pending = [] ∧ (s.clocked = false → t = s) ∧
    Only (stepParts ++ [.slices, .shelf, .flash, .power, .fuses]) s t

/-- Every step keeps a well-formed card well formed: the register store, the Crust and the attention numbering stand in canonical
form, every Crust cell and every attention SEQ fits 16 bits, and there are 64 Slices. -/
def Obligations.EveryStepKeepsForm : Prop :=
 ∀ s t : State, wf s → step s = .next t → wf t

/-- The card at reset is well formed; every register reads its reset value; nothing is In flight, queued, posted or bound; every
Slice is FREE; the link is in ID mode, not ready; the power-on reset is asserted (log entries 2 and 3 for the values that the spec
does not state). -/
def Obligations.ResetState : Prop :=
  wf State.reset ∧ (∀ f : Field, State.reset.rd f = f.reset) ∧ State.reset.pending = [] ∧ State.reset.cmds = [] ∧
  State.reset.descs = [] ∧ State.reset.attn = [] ∧ State.reset.origs = [] ∧ (∀ i, State.reset.slice i = Slice.free) ∧
  State.reset.link.phase = .idNotReady ∧ State.reset.wire = [] ∧ State.reset.clocked = false

/-- No step of a well-formed card changes the factory fuses (part, stepping, serial), and a blown test seal stays blown. -/
def Obligations.FactoryFusesStand : Prop :=
  ∀ s t : State, wf s → step s = .next t → t.fuses.part = s.fuses.part ∧ t.fuses.step = s.fuses.step ∧
    t.fuses.serial = s.fuses.serial ∧ (s.fuses.sealBlown = true → t.fuses.sealBlown = true)

/-- Every command of the table completes in every state of the card, without a condition: it answers a next state, in which only the
parts that `touches` lists for it differ. -/
def Obligations.CommandsChangeOnlyTheirParts : Prop :=
  ∀ (i : Instr) (s : State), ∃ t, exec i s = .next t ∧ Only (touches i) s t

/-! Operations that the rows share. -/

/-- A command's status is fixed at most once: completing a command whose status is fixed, or one that is not In flight, changes
nothing; completing any other fixes the status, and the end of the step leaves it fixed (R116). -/
def Obligations.StatusFixedOnce : Prop :=
  (∀ (s : State) (q st r : Nat), s.cmd? q = none → s.complete q st r = s) ∧
  (∀ (s : State) (q st r : Nat) (c : Cmd), s.cmd? q = some c → c.done? = true → s.complete q st r = s) ∧
  (∀ (s : State) (q st r : Nat) (c : Cmd), s.cmd? q = some c → c.done? = false →
    Fixed (s.complete q st r).settle c st (completionFields c st r))

/-- Posting an attention entry numbers it with its ring's SEQ and raises that SEQ by one modulo 2^16, whether the entry finds room
or is lost; a ring with room takes it at its end, marked as one of this edge; a full ring loses an EVENT or FAULT entry, a COMPLETION
entry displaces the oldest of them, and either way ATTN_LOST is set and LOST_COUNT rises (R201, R203). The ring of a FREE Slice takes
no EVENT or FAULT entry (R191). The end of an edge loses no entry and takes none in: those of the edge are put in the order of R201 and
R205, and every one keeps all but its SEQ. -/
def Obligations.AttentionNumbering : Prop :=
  (∀ (s : State) (e : AttnEntry), e.kind = .completion ∨ 64 ≤ e.ring ∨ (s.slice e.ring).st ≠ .free →
    (∀ r, storeRead (s.placeEntry e).seqs r = if r = e.ring then (storeRead s.seqs e.ring + 1) % 65536 else storeRead s.seqs r) ∧
    (s.aqLevel e.ring < 64 → (s.placeEntry e).attn = s.attn ++ [{ e with seq := storeRead s.seqs e.ring, fresh := true }]) ∧
    (64 ≤ s.aqLevel e.ring →
      (s.placeEntry e).attn = (if e.kind = .completion then
        dropOldest e.ring s.attn ++ [{ e with seq := storeRead s.seqs e.ring, fresh := true }] else s.attn) ∧
      (s.placeEntry e).rd (lostBit e.ring) = 1 ∧
      (s.placeEntry e).rd (lostCount e.ring) = satAdd (s.rd (lostCount e.ring)) 1 65535)) ∧
  (∀ (s : State) (e : AttnEntry), e.kind ≠ .completion → e.ring < 64 → (s.slice e.ring).st = .free → s.placeEntry e = s) ∧
  (∀ s : State, (s.endEdge.attn.map (fun e => { e with seq := 0, fresh := false })).Perm
    (s.attn.map (fun e => { e with seq := 0, fresh := false })))

/-- A Crust cell write stores the low 16 bits in that cell and in no other while VBAK is present; while VBAK is absent no cell
changes (R317, R444). -/
def Obligations.CrustCellWrites : Prop :=
  ∀ (s : State) (n v : Nat),
    (s.power.vbak = true → ∀ m, (s.setCell n v).cell m = if m = n then v % 65536 else s.cell m) ∧
    (s.power.vbak = false → s.setCell n v = s)

/-- INCREMENT48 on a count with no carry pending raises the 48-bit count by one modulo 2^48, and leaves no carry pending (R318).
-/
def Obligations.CountsRiseByOne : Prop :=
  ∀ (s : State) (c : Count48), c = resetCells ∨ c = removalCells → wf s → s.power.vbak = true →
    bitAt (s.cell c.cp) 15 = false →
    (s.increment48 c).count48 c = (s.count48 c + 1) % 2 ^ 48 ∧ bitAt ((s.increment48 c).cell c.cp) 15 = false

/-- An increment that loses its writer between two cell writes is repaired: after any number of the writes, COMPLETE_CARRY leaves
either the old value, where no write was made, or the old value raised by one (R318). -/
def Obligations.BrokenIncrementsAreRepaired : Prop :=
  ∀ (s : State) (c : Count48) (n : Nat), c = resetCells ∨ c = removalCells → wf s → s.power.vbak = true →
    bitAt (s.cell c.cp) 15 = false →
    (((s.setCells ((increment48Writes (s.cell c.low) (s.cell c.mid) (s.cell c.high) c).take n)).completeCarry c).count48 c =
      if n = 0 then s.count48 c else (s.count48 c + 1) % 2 ^ 48)

/-- The cause of the Safe state is recorded once: on a card in the Safe state no entry changes anything, and on any other the
entry sets SAFE, ends a pending escalation and records kind, page, bank and bit (R372, R375). -/
def Obligations.SafeCauseRecordedOnce : Prop :=
  (∀ (s : State) (k : Nat) (x : Source), s.safe = true → s.enterSafe k x = s) ∧
  (∀ (s : State) (k page bank bit : Nat), s.safe = false → k < 8 → page < 64 → bank < 64 → bit < 32 →
    let t := s.enterSafe k (page, bank, bit)
    t.safe = true ∧ t.escPending = false ∧ t.rd Reg.ESCALATE.SAFE_CAUSE.KIND = k ∧
      t.rd Reg.ESCALATE.SAFE_CAUSE.PAGE = page ∧ t.rd Reg.ESCALATE.SAFE_CAUSE.BIT = bit ∧
      t.rd Reg.ESCALATE.SAFE_CAUSE.BANK = if banked page then bank else 255)

/-! Identity, address and the voltage switch. -/

/-- NOP completes OK; IDENTIFY completes OK with serial, PART_NO, STEP, UNASSIGNED and the Card address of an assigned card as its
18 completion bytes (Table 5-5, R137). Neither changes anything else. -/
def Obligations.NopAndIdentify : Prop :=
  ∀ (q : Nat) (s : State) (c : Cmd),
    (AtWork s q c opNop .decoded → ∃ t, Finishes (.nop q) s s c stOk 0 t) ∧
    (AtWork s q c opIdentify .decoded → ∃ t, Finishes (.identify q) s s c stOk
      (s.fuses.serial % 2 ^ 96 + 2 ^ 96 * (s.fuses.part % 2 ^ 16) + 2 ^ 112 * (s.fuses.step % 2 ^ 8) +
        2 ^ 120 * (1 - s.rd Reg.SHELF.ADDR.ASSIGNED) +
        2 ^ 128 * (if s.rd Reg.SHELF.ADDR.ASSIGNED = 1 then s.rd Reg.SHELF.ADDR.CARD_ADDR else 0)) t)

/-- ASSIGN_ADDRESS takes the address of bytes 12 and 13, counts the assignment, posts ASSIGNED and completes OK (R138, R139). -/
def Obligations.AssignAddress : Prop :=
  ∀ (q : Nat) (s : State) (c : Cmd), AtWork s q c opAssign .decoded →
    ∃ t, Finishes (.assignAddress q) s
      (((((s.wr Reg.SHELF.ADDR.CARD_ADDR (c.field 12 12)).wr Reg.SHELF.ADDR.ASSIGNED 1).bump Reg.SHELF.COUNTS.ASSIGNS)).raise
        Evt.SHELF.ASSIGNED) c stOk 0 t ∧
      t.rd Reg.SHELF.ADDR.CARD_ADDR = c.field 12 12 ∧ t.rd Reg.SHELF.ADDR.ASSIGNED = 1

/-- The voltage switch (Table 4-4, R80–R82): SWITCH answers OK and waits for regulation; regulation starts the confirm edges, with
UP0_P low; the 16th confirm edge enters fast mode with the widths asked for and an empty link; a start bit, a confirm edge missed or
the end of the wait returns the link to ID mode with nothing else changed, but that the end of the wait reports SWITCH_TIMEOUT. Each of
`switch`, `switchRegulated`, `switchConfirm`, `switchCancel` and `switchTimeout` completes under the conditions stated here. -/
def Obligations.VoltageSwitch : Prop :=
  ∀ (q : Nat) (s : State) (c : Cmd),
    (AtWork s q c opSwitch .decoded → ∃ t, exec (.switch q) s = .next t ∧ t.link.phase = .switching ∧
      t.link.switchStep = .regulate ∧ t.link.switchHc = 0 ∧ t.link.wantW = c.field 0 4 ∧
      Fixed t c stOk (completionFields c stOk 0)) ∧
    (s.clocked = true → s.link.phase = .switching → s.link.switchStep = .regulate →
      (∃ t, Moves .switchRegulated s { s with link := { s.link with switchStep := .confirm, switchHc := 0 } } t ∧
        t.readyLevel = false) ∧
      (∃ t, Moves .switchTimeout s (({ s with link := { s.link with phase := .idReady, switchStep := .none, switchHc := 0 } }).report
        Src.LINK.SWITCH_TIMEOUT) t ∧ t.link.phase = .idReady ∧ t.link.switchStep = .none)) ∧
    (s.clocked = true → s.link.phase = .switching → ∃ t, Moves (.switchCancel true) s
      { s with link := { s.link with phase := .idReady, switchStep := .none, switchHc := 0, idPartial := true } } t ∧
      t.link.phase = .idReady) ∧
    (s.clocked = true → s.link.phase = .switching → s.link.switchStep = .confirm →
      (∃ t, Moves .switchConfirm s s.enterFast t ∧
        s.enterFast.link = { Link.reset with phase := .fastWait, fast := true, wantW := s.link.wantW } ∧
        t.rd Reg.LINK.STATE.DOWN_W = s.link.wantW % 4 ∧ t.rd Reg.LINK.STATE.UP_W = s.link.wantW / 4 % 4 ∧
        ∀ ch ∈ t.flash.chans, ch.reconf = true) ∧
      (∃ t, Moves (.switchCancel false) s
        { s with link := { s.link with phase := .idReady, switchStep := .none, switchHc := 0, idPartial := false } } t ∧
        t.link.phase = .idReady))

/-! The declaration of the clock, HELLO. -/

/-- DECLARE_CLOCK waits; once no earlier command is In flight and the dies are idle the declaration is stored, and it completes OK; in
fast mode a new value loads the counts of every channel and marks it for reconfiguration, in ID mode nothing of the channels changes
(R28, R29, R338). Until then nothing moves. A declaration that passes R28's range check fits the 22 bits of DECL_KHZ. Both rows
complete under the conditions stated here. -/
def Obligations.DeclareClock : Prop :=
  ∀ (q : Nat) (s : State) (c : Cmd),
    (AtWork s q c opDeclare .decoded → ∃ t, Moves (.declareClock q) s (s.setCmd q (fun c => { c with phase := .waiting })) t) ∧
    (AtWork s q c opDeclare .waiting → c.abortedBy = [] → s.earlier q = [] → s.diesIdle = true → c.field 0 32 < 2 ^ 22 →
      ∃ t, exec (.declareClockCountsLoad q) s = .next t ∧ t.rd Reg.CLOCK.DECL_FAST.DECL_KHZ = c.field 0 32 ∧
        Fixed t c stOk (completionFields c stOk 0) ∧ (s.link.fast = false → t.flash = s.flash) ∧
        (s.link.fast = true → s.rd Reg.CLOCK.DECL_FAST.DECL_KHZ ≠ c.field 0 32 →
          ∀ ch ∈ t.flash.chans, ch.countKhz = c.field 0 32 ∧ ch.reconf = true)) ∧
    (AtWork s q c opDeclare .waiting → c.abortedBy = [] → s.earlier q ≠ [] ∨ s.diesIdle = false →
      ∃ t, Moves (.declareClockCountsLoad q) s s t)

/-- HELLO by its Epoch (R145): lower than the held one, STALE_EPOCH; equal, OK; neither changes an Epoch. Higher, or the first,
waits, and is recorded once the sender's earlier commands have completed and been acknowledged: the Epoch is held, an outstanding
nonce is dropped, and no lock that the sender held under an older Epoch is left; until then nothing moves. `hello` and
`helloEpochRecord` complete under the conditions stated here. -/
def Obligations.HelloByEpoch : Prop :=
  ∀ (q : Nat) (s : State) (c : Cmd),
    (AtWork s q c opHello .decoded → (s.orig c.orig).helloSeen = true → c.field 0 32 < (s.orig c.orig).epoch →
      ∃ t, Finishes (.hello q) s (s.raise Evt.SHELF.STALE_EPOCH) c stStaleEpoch (s.helloResult c.orig) t) ∧
    (AtWork s q c opHello .decoded → (s.orig c.orig).helloSeen = true → c.field 0 32 = (s.orig c.orig).epoch →
      ∃ t, Finishes (.hello q) s s c stOk (s.helloResult c.orig) t) ∧
    (AtWork s q c opHello .decoded → (s.orig c.orig).helloSeen = false ∨ (s.orig c.orig).epoch < c.field 0 32 →
      ∃ t, Moves (.hello q) s (s.setCmd q (fun d => { d with phase := .waiting, steps := bit01 (decide ((s.orig c.orig).epoch < c.field 0 32)) })) t) ∧
    (AtWork s q c opHello .waiting → s.quietBefore q c.orig = true →
      ∃ t r, exec (.helloEpochRecord q) s = .next t ∧ Fixed t c stOk r ∧
        t.orig c.orig = { id := c.orig, epoch := c.field 0 32, helloSeen := true, nonce := none } ∧
        (∀ o, o ≠ c.orig → t.orig o = s.orig o) ∧
        (∀ i l, i < 64 → (t.slice i).lock = some l → l.orig = c.orig → c.field 0 32 ≤ l.epoch)) ∧
    (AtWork s q c opHello .waiting → s.quietBefore q c.orig = false → ∃ t, Moves (.helloEpochRecord q) s s t)

/-- Held Epochs are cleared by a system reset and a power-on and survive a core reset; while 0xFFFFFFFF is held, no HELLO of that
Originator announces a restart: it is answered at once and no Epoch changes (R147). -/
def Obligations.EpochsOverResets : Prop :=
  (∀ s t : State, s.clocked = true → exec .rstN s = .next t → t.origs = []) ∧
  (∀ (s t : State) (r : ResetReq), s.clocked = true → s.power.resetReq = some r → r.system = true →
    (∀ q, r.sender = some q → s.cmd? q = none ∧ ∀ f ∈ s.link.unacked, f.q ≠ q) → exec .linkSystemReset s = .next t → t.origs = []) ∧
  (∀ s t : State, s.power.st = .off → exec .powerOn s = .next t → t.origs = []) ∧
  (∀ s t : State, exec .coreResetHalt s = .next t →
    ∀ o, (t.orig o).epoch = (s.orig o).epoch ∧ (t.orig o).helloSeen = (s.orig o).helloSeen) ∧
  (∀ (q : Nat) (s : State) (c : Cmd), AtWork s q c opHello .decoded → (s.orig c.orig).helloSeen = true →
    (s.orig c.orig).epoch = 2 ^ 32 - 1 →
    ∃ t st r, exec (.hello q) s = .next t ∧ t.origs = s.origs ∧ Fixed t c st r)

/-! Shelf sleep, SLEEP and wake. -/

/-- A proposal (R150–R152): with shelf sleep disabled or ALERT restricted to faults it is vetoed at once with that reason; with an
escalation pending or in the Safe state it completes FAULT_PENDING; otherwise its window opens; it waits while another one's is open or
stands before it. A cause in the window closes it with a veto, an escalation with FAULT_PENDING; a window that ends without a cause
arms the card for the proposer with the round of the proposal. `sleepPropose`, `sleepVeto` and `vetoWindowEnd` complete under the
conditions stated here. -/
def Obligations.SleepProposals : Prop :=
  (∀ (q : Nat) (s : State) (c : Cmd), AtWork s q c opPropose .decoded →
    s.shelf.proposal ≠ none ∨ (s.earlier q).any (fun d => d.opcode == opPropose && !d.done?) = true →
    ∃ t, Moves (.sleepPropose q) s s t) ∧
  (∀ (q : Nat) (s : State) (c : Cmd), AtWork s q c opPropose .decoded → s.shelf.proposal = none →
    (s.earlier q).any (fun d => d.opcode == opPropose && !d.done?) = false →
    (s.rd Reg.SHELF.SLEEP_CFG.SLEEP_EN = 0 ∨ s.faultsOnly = true → ∃ t r, exec (.sleepPropose q) s = .next t ∧ Fixed t c stVetoed r ∧
      t.shelf = s.shelf) ∧
    (s.rd Reg.SHELF.SLEEP_CFG.SLEEP_EN ≠ 0 → s.faultsOnly = false → s.faultPending = true →
      ∃ t, Finishes (.sleepPropose q) s s c stFaultPending 0 t) ∧
    (s.rd Reg.SHELF.SLEEP_CFG.SLEEP_EN ≠ 0 → s.faultsOnly = false → s.faultPending = false →
      ∃ t, exec (.sleepPropose q) s = .next t ∧ t.rd Reg.SHELF.SLEEP_STAT.STATE = 1 ∧
        t.shelf = { s.shelf with proposal := some q, window := 0, armedBy := none })) ∧
  (∀ (q : Nat) (s : State) (c : Cmd), s.clocked = true → s.shelf.proposal = some q → s.cmd? q = some c → c.done? = false →
    s.faultPending = true → ∃ t, exec .sleepVeto s = .next t ∧ t.shelf.proposal = none ∧ t.rd Reg.SHELF.SLEEP_STAT.STATE = 0 ∧
      Fixed t c stFaultPending (completionFields c stFaultPending 0)) ∧
  (∀ s : State, s.clocked = true → s.shelf.proposal = none → (∃ t, Moves .sleepVeto s s t) ∧ ∃ t, Moves .vetoWindowEnd s s t) ∧
  (∀ (q : Nat) (s : State) (c : Cmd), s.clocked = true → s.shelf.proposal = some q → s.cmd? q = some c → c.done? = false →
    s.faultPending = false →
    (s.vetoCauses q ≠ 0 → ∃ t, exec .sleepVeto s = .next t ∧ t.shelf.proposal = none ∧ t.rd Reg.SHELF.SLEEP_STAT.STATE = 0 ∧
      t.rd Reg.SHELF.VETO.LAST_REASON = s.vetoCauses q ∧ Fixed t c stVetoed (completionFields c stVetoed 0)) ∧
    (s.vetoCauses q = 0 → ∃ t, Moves .sleepVeto s s t) ∧
    (s.vetoCauses q = 0 → ∃ t, exec .vetoWindowEnd s = .next t ∧ t.shelf.proposal = none ∧ t.shelf.armedBy = some c.orig ∧
      t.rd Reg.SHELF.SLEEP_STAT.STATE = 2 ∧ t.rd Reg.SHELF.SLEEP_STAT.ROUND = c.field 0 16 ∧
      Fixed t c stOk (completionFields c stOk 0)))

/-- SLEEP_COMMIT (R154, R373, R379, Table 15-2): named for the armed round it waits; otherwise it ends STATE_CONFLICT, with an
escalation pending too. Once every earlier command has completed, it ends FAULT_PENDING with the card IDLE, or OK, from where the WAKE
mask bit is ignored. When OK has been acknowledged, the dies are idle with nothing waiting for them and the hold-up charge is good, the
card enters SLEEP: cell 0 SLEEPING is set, cell 19 keeps address and assignment, both sleep records hold the Epochs, the bindings, the
locks and the declaration, and only WAKE is an ALERT cause (R413–R416, R139, R310). `sleepCommit`, `sleepCommitComplete` and
`sleepEntry` complete under the conditions stated here. -/
def Obligations.SleepCommitAndEntry : Prop :=
  (∀ (q : Nat) (s : State) (c : Cmd), AtWork s q c opCommit .decoded →
    (s.shelf.committing = some q → ∃ t, Moves (.sleepCommit q) s (s.setCmd q (fun c => { c with phase := .waiting })) t) ∧
    (s.shelf.committing ≠ some q → ∃ t, Finishes (.sleepCommit q) s s c stConflict 0 t)) ∧
  (∀ (q : Nat) (s : State) (c : Cmd), AtWork s q c opCommit .waiting → (s.earlier q).all (fun d => d.done?) = false →
    ∃ t, Moves (.sleepCommitComplete q) s s t) ∧
  (∀ (q : Nat) (s : State) (c : Cmd), AtWork s q c opCommit .waiting → (s.earlier q).all (fun d => d.done?) = true →
    (s.faultPending = true → ∃ t, exec (.sleepCommitComplete q) s = .next t ∧ t.shelf.committing = none ∧
      t.shelf.committed = s.shelf.committed ∧ t.rd Reg.SHELF.SLEEP_STAT.STATE = 0 ∧ Fixed t c stFaultPending (completionFields c stFaultPending 0)) ∧
    (s.faultPending = false → ∃ t, exec (.sleepCommitComplete q) s = .next t ∧ t.shelf.committing = none ∧
      t.shelf.committed = true ∧ t.esc.ignoreMask = true ∧ Fixed t c stOk (completionFields c stOk 0))) ∧
  (∀ s : State, s.clocked = true → s.commitAcked = true → s.diesIdle = true → s.flash.jobs = [] → s.power.vholdOk = true →
    s.power.vbak = true → ∃ t, exec .sleepEntry s = .next t ∧ t.power.st = .sleep ∧ bitAt (t.cell 0) 0 = true ∧
      t.cell 19 = (t.rd Reg.SHELF.ADDR.CARD_ADDR + 2 ^ 12 * t.rd Reg.SHELF.ADDR.ASSIGNED) % 65536 ∧
      t.cell 25 = (if t.wakePending then 4 else 0) ∧
      (∃ a b, t.sleepA = some a ∧ t.sleepB = some b ∧ a.consumed = false ∧ b.consumed = false ∧
        a.origs = s.origs.map (fun o => { o with nonce := none }) ∧ b.origs = a.origs ∧ a.owners = b.owners ∧
        a.locks = b.locks ∧ a.declKhz = t.rd Reg.CLOCK.DECL_FAST.DECL_KHZ ∧ b.declKhz = a.declKhz))

/-- A wake cause is latched in cell 24 with WAKE_PENDING in cell 0, the first one with its code in cell 24 [10:8]; causes already
latched, and the first cause's code, stand (R418). The WAKE pattern (R96, R417, R420): in SLEEP it latches HOST_WAKE and starts
the card as at power-on; elsewhere it does nothing. A forced cause is latched like any other; the Administrator's W1C clears exactly
the causes it names, but for those that arise on the same edge, and WAKE_PENDING falls when none is left (R418, R63). `wakePattern`,
`wakeForce` and `wakeCauseClear` complete under the conditions stated here. -/
def Obligations.Wake : Prop :=
  (∀ (s : State) (k : Nat), wf s → s.power.vbak = true → k < 5 →
     bitAt ((s.latchWake k).cell 24) k = true ∧ (s.latchWake k).wakePending = true ∧
     (∀ j, j < 5 → bitAt (s.cell 24) j = true → bitAt ((s.latchWake k).cell 24) j = true) ∧
     (s.cell 24 % 32 = 0 → bitsOf ((s.latchWake k).cell 24) 8 3 = k) ∧
     (s.cell 24 % 32 ≠ 0 → bitsOf ((s.latchWake k).cell 24) 8 3 = bitsOf (s.cell 24) 8 3)) ∧
  ((∀ s : State, s.power.st = .sleep → ∃ t, exec .wakePattern s = .next t ∧ t.power.st = .active ∧ t.power.startup = .held ∧
     t.power.fromWake = true ∧ t.cmds = [] ∧ t.origs = [] ∧ t.sleepA = s.sleepA ∧ t.sleepB = s.sleepB ∧
     (s.power.vbak = true → bitAt (t.cell 24) 0 = true ∧ t.wakePending = true ∧ bitAt (t.cell 0) 0 = false)) ∧
   (∀ s : State, s.power.st ≠ .sleep → exec .wakePattern s = .next s) ∧
   (∀ s : State, s.clocked = true → ∃ t, Moves .wakeForce s (s.latchWake 3) t) ∧
   (∀ (s : State) (m met : Nat), s.clocked = true → s.power.vbak = true →
     let x := s.clearWake (clearBits m met)
     ∃ t, Moves (.wakeCauseClear m met) s x t ∧
       (∀ j, j < 5 → bitAt (x.cell 24) j = (bitAt (s.cell 24) j && (!bitAt m j || bitAt met j))) ∧
       x.wakePending = (s.wakePending && x.cell 24 % 32 != 0)))

/-! Resets. -/

/-- RESET (R351, R354, R355): in sealed mode it completes NOT_SEALED and asks for nothing; in open mode it completes OK and a
reset of its LEVEL is requested, a system reset where either request asks for one. A system reset, by RST_N or once the COMPLETION
of the RESET that asked for it is out (R351, R352, R356–R358, R368, R377): every field of levels S, C and B stands at its reset
value (the cause of the reset and the attention registers of page RESET apart), the commands, descriptors, bindings, locks, Epochs
and nonces are gone, CAUSE takes level and source, PREV_CAUSE the one before. `reset`, `rstN` and `linkSystemReset` complete under the
conditions stated here. -/
def Obligations.Resets : Prop :=
  (∀ (q : Nat) (s : State) (c : Cmd), AtWork s q c opReset .decoded →
     (s.openMode = false → ∃ t, Finishes (.reset q) s s c stNotSealed 0 t) ∧
     (s.openMode = true → ∃ t r, exec (.reset q) s = .next t ∧ Fixed t c stOk (completionFields c stOk 0) ∧
       t.power.resetReq = some r ∧ (s.power.resetReq = none → r.system = (c.field 0 8 == 1)) ∧
       (∀ r0, s.power.resetReq = some r0 → r.system = (r0.system || c.field 0 8 == 1)) ∧
       r.source = (if c.field 0 8 = 1 then 3 else 4))) ∧
  (let after (s t : State) (source : Nat) : Prop :=
     t.power.startup = .held ∧ t.power.resetReq = none ∧ t.clocked = false ∧ t.link = Link.reset ∧ t.cmds = [] ∧ t.descs = [] ∧
     t.origs = [] ∧ (∀ i, t.slice i = Slice.free) ∧ t.safe = false ∧ t.escPending = false ∧
     t.rd Reg.RESET.CAUSE.LEVEL = 2 ∧ t.rd Reg.RESET.CAUSE.SOURCE = source % 8 ∧
     t.rd Reg.RESET.PREV_CAUSE.LEVEL = s.rd Reg.RESET.CAUSE.LEVEL % 4 ∧ t.rd Reg.RESET.PREV_CAUSE.SOURCE = s.rd Reg.RESET.CAUSE.SOURCE % 8 ∧
     (s.carryPending = false → (∀ f : Field, clearedBySystem f.key = true → t.rd f = f.reset) ∧ t.attn = []) ∧
     Only (stepParts ++ [.origs, .slices, .shelf, .flash, .power, .opt, .fw, .temp]) s t
   (∀ s : State, s.clocked = true → ∃ t, exec .rstN s = .next t ∧ after s t 2) ∧
   (∀ (s : State) (r : ResetReq), s.clocked = true → s.power.resetReq = some r → r.system = true →
     (∀ q, r.sender = some q → s.cmd? q = none ∧ ∀ f ∈ s.link.unacked, f.q ≠ q) →
     ∃ t, exec .linkSystemReset s = .next t ∧ after s t r.source) ∧
   (∀ s : State, s.clocked = false → exec .rstN s = .next s))

/-- A core reset (R354): it halts once the drain has ended, with the C fields at their reset values, no nonce outstanding, every
channel marked for reconfiguration and the shelf IDLE; the firmware core then restarts, and the card is ready unless the image
that starts rejects itself (R402). An image that starts on a card that has not recovered waits for the hold-up charge (R322, R310).
`coreResetHalt` and `coreResetRestart` complete under the conditions stated here. -/
def Obligations.CoreResets : Prop :=
  (∀ (s : State) (r : ResetReq), s.clocked = true → s.power.resetReq = some r → r.system = false → s.drained = true →
    ∃ t, exec .coreResetHalt s = .next t ∧ t.power.startup = .halted ∧ t.power.resetReq = none ∧
      t.rd Reg.RESET.CAUSE.LEVEL = 1 ∧ t.rd Reg.RESET.CAUSE.SOURCE = r.source % 8 ∧ t.rd Reg.SHELF.SLEEP_STAT.STATE = 0 ∧
      (∀ f : Field, clearedByCore f.key = true → endKey f.key = false → t.rd f = f.reset) ∧
      (∀ o ∈ t.origs, o.nonce = none) ∧ (∀ c ∈ t.flash.chans, c.reconf = true)) ∧
  (∀ s : State, s.drained = false → exec .coreResetHalt s = .next s) ∧
  (∀ (s : State) (env : RecoveryIn), s.clocked = true → s.power.startup = .halted → s.power.resetReq = none →
    let b := s.bootSelect false env.unreadable
    (b.power.resetReq ≠ none → ∃ t, Moves (.coreResetRestart env) s b t ∧ t.power.startup = .halted ∧
      t.power.resetReq = b.power.resetReq) ∧
    (b.power.resetReq = none → b.power.recovered = true ∨ b.minimal = true ∨ b.power.vholdOk = true →
      ∃ t, exec (.coreResetRestart env) s = .next t ∧ t.power.startup = .ready) ∧
    (b.power.resetReq = none → b.power.recovered = false → b.minimal = false → b.power.vholdOk = false →
      exec (.coreResetRestart env) s = .next s))

/-- Start-up (R320, R335, R353, R361, R364, R477, R79): power-on asserts the reset and senses the fuses; its release samples
TEST_EN, enters factory test mode only with the test seal unblown, and takes the valid option copy of higher sequence, or the
defaults, in force; recovery ends with the card ready unless the image that starts rejects itself, and waits for the hold-up charge
under an image that starts (R310); DET_N low arms the removal trigger. In ID mode the ready level comes up once both hold. `powerOn`,
`resetRelease`, `powerUpRecovery` and `detNArm` complete under the conditions stated here. -/
def Obligations.StartUp : Prop :=
  (∀ s : State, s.power.st = .off → ∃ t, exec .powerOn s = .next t ∧ t.power.st = .active ∧ t.power.startup = .held ∧
    t.power.armed = false ∧ t.cmds = [] ∧ t.link = Link.reset ∧ t.rd Reg.RESET.CAUSE.LEVEL = 3 ∧ t.rd Reg.RESET.CAUSE.SOURCE = 0 ∧
    t.fuses.mapSensed = t.fuses.map ∧ t.fuses.keysSensed = t.fuses.keys ∧ t.fuses.sealSensed = t.fuses.sealBlown ∧
    t.fuses.busy = none) ∧
  (∀ (s : State) (e : Bool), s.power.st = .active → s.power.startup = .held → ∃ t, exec (.resetRelease e) s = .next t ∧
    t.power.startup = .loaded ∧ t.power.testEn = e ∧ t.ftm = (e && !s.fuses.sealSensed) ∧
    t.opt.inForce = (if copyValid s.opt.copyA then
        (if copyValid s.opt.copyB ∧ copySeq s.opt.copyA < copySeq s.opt.copyB then s.opt.copyB else s.opt.copyA)
      else if copyValid s.opt.copyB then s.opt.copyB else optDefaults) ∧
    t.admin = storeRead t.opt.inForce 10 % 256) ∧
  (∀ (s : State) (env : RecoveryIn), s.power.st = .active → s.power.startup = .loaded → s.power.resetReq = none →
    let b := (s.identify env).bootSelect true env.unreadable
    (b.power.resetReq ≠ none → ∃ t, Moves (.powerUpRecovery env) s b t ∧ t.power.startup = .loaded) ∧
    (b.power.resetReq = none → b.minimal = true ∨ b.power.vholdOk = true →
      ∃ t, exec (.powerUpRecovery env) s = .next t ∧ t.power.startup = .ready) ∧
    (b.power.resetReq = none → b.minimal = false → b.power.vholdOk = false → exec (.powerUpRecovery env) s = .next s)) ∧
  (∀ s : State, s.clocked = true → ∃ t, exec .detNArm s = .next t ∧ t.power.armed = true ∧
    t.link.phase = (if s.power.startup = .ready ∧ s.link.phase = .idNotReady then .idReady else s.link.phase))

/-- A block's soft reset, isolation and enable (R48–R50): the soft reset puts the page's B fields at their reset values and sets
RESET_ACTIVE until its end, which on a channel waits for its dies and leaves ISOLATED as ISOLATE asks; ISOLATE and ENABLE are written
on pages of class E only; nothing is written on the page of an absent channel (R2). `blockSoftReset`, `blockSoftResetEnd`,
`blockIsolate` and `blockEnable` complete under the conditions stated here. -/
def Obligations.BlockRows : Prop :=
  ∀ s : State, s.clocked = true →
    (∀ page, softResets page = true → s.chanAbsent page = false → s.rd (resetActive page 0) = 0 → ∃ t, exec (.blockSoftReset page) s = .next t ∧
      t.rd (resetActive page 0) = 1 ∧
      (∀ f : Field, clearedByPage page f.key = true → endKey f.key = false → t.rd f = f.reset)) ∧
    (∀ page, softResets page = false ∨ s.chanAbsent page = true ∨ s.rd (resetActive page 0) = 1 →
      ∃ t, Moves (.blockSoftReset page) s (s.freshParity page 0 1) t) ∧
    (∀ page, s.rd (resetActive page 0) = 1 → page < 0x10 ∨ 0x1F < page ∨ s.channelIdle (page - 0x10) = true →
      ∃ t, exec (.blockSoftResetEnd page) s = .next t ∧
      t.rd (resetActive page 0) = 0 ∧ (s.rd (isolateBit page 0) = 1 → t.rd (isolatedBit page 0) = 1)) ∧
    (∀ page, s.rd (resetActive page 0) = 0 ∨ (0x10 ≤ page ∧ page ≤ 0x1F ∧ s.channelIdle (page - 0x10) = false) →
      ∃ t, Moves (.blockSoftResetEnd page) s s t) ∧
    (∀ page on, pageClass page = .engine → s.chanAbsent page = false → ∃ t, exec (.blockIsolate page on) s = .next t ∧
      t.rd (isolateBit page 0) = bit01 on ∧ t.rd (isolatedBit page 0) = bit01 on) ∧
    (∀ page on, pageClass page = .engine → s.chanAbsent page = false → ∃ t, Moves (.blockEnable page on) s
      ((s.wr (enableBit page 0) (bit01 on)).freshParity page 0 1) t ∧ t.rd (enableBit page 0) = bit01 on) ∧
    (∀ page on, pageClass page ≠ .engine ∨ s.chanAbsent page = true →
      (∃ t, Moves (.blockIsolate page on) s (s.freshParity page 0 1) t) ∧
      (∃ t, Moves (.blockEnable page on) s (s.freshParity page 0 1) t))

/-! Removal and supplies. -/

/-- Removal (R301, R304–R309, R324, R440): an armed trigger freezes the card, which then moves only for the removal sequence, with
HOLDSW at its active level; step 6 counts the removal and records the phase code, the channels and the completion; HOLDSW is inactive
again, the card is removed until power holds steady, and starts as at power-on with source 1. An unarmed trigger does nothing.
`removalTrigger`, `removalRbWaitEnd` and `removalRestart` complete under the conditions stated here. -/
def Obligations.RemovalRows : Prop :=
  (∀ (s : State) (d b : Bool), s.power.st = .active → ((d && s.power.armed) || (b && s.power.brownArmed)) = true →
    ∃ t r, exec (.removalTrigger d b) s = .next t ∧ t.power.st = .removing ∧ t.clocked = false ∧ t.power.removal = some r ∧
      r.detN = (d && s.power.armed) ∧ r.brownOut = (b && s.power.brownArmed) ∧ r.programs = s.programRunning ∧
      t.holdsw = (if s.holdswActiveLow then .low else .high) ∧ t.charges = false ∧
      (s.power.vbak = true → bitAt (t.cell 16) 8 = true) ∧ Only [.power, .crust] s t) ∧
  (∀ (s : State) (d b : Bool), ((d && s.power.armed) || (b && s.power.brownArmed)) = false →
    exec (.removalTrigger d b) s = .next s) ∧
  (∀ (s : State) (r : Removal) (rb : Bool), wf s → s.power.st = .removing → s.power.removal = some r →
    ∃ t, exec (.removalRbWaitEnd rb) s = .next t ∧ t.power.st = .removed ∧ Only [.power, .crust] s t ∧
      t.holdsw = (if s.holdswActiveLow then .high else .low) ∧
      (s.power.vbak = true → bitAt (s.cell 14) 15 = false →
        t.count48 removalCells = (s.count48 removalCells + 1) % 2 ^ 48 ∧ t.cell 17 = phaseCode r (!rb) ∧
        t.cell 18 = r.channels % 65536 ∧ bitAt (t.cell 16) 9 = true)) ∧
  (∀ s : State, s.power.st = .removed → ∃ t, exec .removalRestart s = .next t ∧ t.power.st = .active ∧
    t.power.startup = .held ∧ t.cmds = [] ∧ t.rd Reg.RESET.CAUSE.LEVEL = 3 ∧ t.rd Reg.RESET.CAUSE.SOURCE = 1)

/-- The supplies (R310, R319, R412, R443, R444, R446): HOLD_DROOP lets VHOLD_OK fall and is a fault while HCLK runs; VHOLD_OK brings it
back; the loss of VCC is OFF; the loss of VBAK takes the cells, ALERT then shows what the clocked logic last wrote and is undriven in
SLEEP; VBAK's return clears the cells, sets CRUST_LOST and latches CRUST_RESTART, and wakes a sleeping card; CRUST_LOST is cleared by
its W1C. The charger runs in ACTIVE and STILL only. `holdDroop`, `vholdOk`, `vccLoss`, `vbakLoss`, `crustPowerOn` and `crustLostClear`
complete under the conditions stated here. -/
def Obligations.SupplyRows : Prop :=
  (∀ s : State, ∃ t, exec .holdDroop s = .next t ∧ t.power = { s.power with vholdOk := false } ∧
    (s.clocked = false ∨ s.power.vholdOk = false → Only [.power] s t)) ∧
  (∀ s : State, s.power.st = .active → exec .vholdOk s = .next { s with power := { s.power with vholdOk := true } }) ∧
  (∀ s : State, s.power.st ≠ .off → ∃ t, exec .vccLoss s = .next t ∧ t.power.st = .off ∧ t.power.vholdOk = false ∧
    t.power.armed = false ∧ t.power.removal = none ∧ t.fuses.busy = none ∧ t.charges = false ∧ t.alertShown = none ∧ Only [.power, .fuses, .draws] s t) ∧
  (∀ s : State, ∃ t, exec .vbakLoss s = .next t ∧ t = { s with power := { s.power with vbak := false }, crust := [] } ∧
    (s.power.st = .active → t.alertShown = some (s.esc.written != 0)) ∧ (s.power.st = .sleep → t.alertShown = none)) ∧
  (∀ s : State, s.charges = true ↔ s.power.st = .active) ∧
  (∀ s : State, s.power.vbak = false → ∃ t, exec .crustPowerOn s = .next t ∧ t.power.vbak = true ∧ t.cell 16 = 2 ^ 15 ∧
    bitAt (t.cell 24) 4 = true ∧ t.wakePending = true ∧
    (s.power.st = .sleep → t.power.st = .active ∧ t.power.startup = .held ∧ t.power.crustRestart = true)) ∧
  (∀ s : State, s.clocked = true → s.power.vbak = true → ∃ t, exec .crustLostClear s = .next t ∧ bitAt (t.cell 16) 15 = false ∧
    (∀ j, j < 15 → bitAt (t.cell 16) j = bitAt (s.cell 16) j))

/-- The temperature sensor (R268, R423, R427): a conversion that ends is clamped to −60.0 to +135.0 °C and sets VALID, MIN and MAX;
one that does not end reports SENSOR; TEMP_RANGE.CLR makes the next one set MIN and MAX both. `tempConversion` and `tempRangeClr`
complete under the conditions stated here. -/
def Obligations.TemperatureRows : Prop :=
  (∀ (s : State) (v : Nat), s.clocked = true →
    let now : Int := max (-120) (min 270 (signed10 v))
    ∃ t, exec (.tempConversion (some v)) s = .next t ∧ t.temp.valid = true ∧ t.temp.fresh = false ∧
      signed10 t.temp.value = now ∧
      signed10 (t.rd Reg.POWER.TEMP_RANGE.MIN) =
        (if s.temp.fresh then now else min now (signed10 (s.rd Reg.POWER.TEMP_RANGE.MIN))) ∧
      signed10 (t.rd Reg.POWER.TEMP_RANGE.MAX) =
        (if s.temp.fresh then now else max now (signed10 (s.rd Reg.POWER.TEMP_RANGE.MAX)))) ∧
  (∀ s : State, s.clocked = true → ∃ t, Moves (.tempConversion none) s (s.report Src.POWER.SENSOR) t) ∧
  (∀ s : State, s.clocked = true → ∃ t, Moves .tempRangeClr s { s with temp := { s.temp with fresh := true } } t)

/-- The temperature alarm (R424): it rises on the conversion that reads above ALARM_HI, falls on the one that reads at or below
ALARM_HI − HYST, and stands on any other; a rise sets the sticky bit TEMP_ALARM. It does not escalate: a conversion that ends
sets no fault source and moves nothing of the escalation. -/
def Obligations.TemperatureAlarm : Prop :=
  ∀ (s : State) (v : Nat), s.clocked = true →
    let hi : Int := signed10 (s.rd Reg.POWER.TEMP_CFG.ALARM_HI)
    let hyst : Int := s.rd Reg.POWER.TEMP_CFG.HYST
    ∃ t, Moves (.tempConversion (some v)) s (s.takeTemp v).flashSettle t ∧
      (hi < signed10 t.temp.value → t.temp.alarm = true) ∧ (signed10 t.temp.value ≤ hi - hyst → t.temp.alarm = false) ∧
      (hi - hyst < signed10 t.temp.value → signed10 t.temp.value ≤ hi → t.temp.alarm = s.temp.alarm) ∧
      (s.temp.alarm = false → t.temp.alarm = true → bitAt (t.rd (attnSticky 0x26 0)) 0 = true) ∧
      (∀ page bank, (s.takeTemp v).rd (faultSticky page bank) = s.rd (faultSticky page bank)) ∧ (s.takeTemp v).esc = s.esc

/-! Slices. -/

/-- SLICE_CREATE (R170, R173): STATE_CONFLICT in probation or on a Slice that is not FREE, NO_SPACE without the capacity;
otherwise the Slice is ACTIVE with what the command asks for, an encrypted one under a key that no Slice had before, its counters
0; no other Slice changes. SLICE_DESTROY (R174): STATE_CONFLICT in probation, on a Slice that is not ACTIVE or against a lock;
otherwise the Slice is DESTROYING and has no owner. Once none of its operations runs, it is FREE, no mapping of it is left, none that a
loss of map pages had hidden either (R175), and the command is OK. What is stored waits for the hold-up charge (R310). `sliceCreate`,
`sliceDestroy` and `sliceDestroyComplete` complete under the conditions stated here. -/
def Obligations.SlicesComeAndGo : Prop :=
  (∀ (q : Nat) (s : State) (c : Cmd), AtWork s q c opCreate .decoded → wf s → c.field 0 8 < 64 →
     (s.probation = true ∨ (s.slice (c.field 0 8)).st ≠ .free → ∃ t, Finishes (.sliceCreate q) s s c stConflict 0 t) ∧
     (s.probation = false → (s.slice (c.field 0 8)).st = .free → s.flash.usable - s.allocated < c.field 8 40 →
       ∃ t, Finishes (.sliceCreate q) s s c stNoSpace 0 t) ∧
     (s.probation = false → (s.slice (c.field 0 8)).st = .free → c.field 8 40 ≤ s.flash.usable - s.allocated →
       s.power.vholdOk = false → ∃ t, Moves (.sliceCreate q) s s t) ∧
     (s.probation = false → (s.slice (c.field 0 8)).st = .free → c.field 8 40 ≤ s.flash.usable - s.allocated →
       s.power.vholdOk = true → ∃ t, exec (.sliceCreate q) s = .next t ∧ Fixed t c stOk (completionFields c stOk 0) ∧
         (t.slice (c.field 0 8)).st = .active ∧ (t.slice (c.field 0 8)).owner = none ∧ (t.slice (c.field 0 8)).lock = none ∧
         (t.slice (c.field 0 8)).cfg.cap = c.field 8 40 ∧ (t.slice (c.field 0 8)).cfg.cls = c.field 16 8 ∧
         (t.slice (c.field 0 8)).cfg.xtsKey = (if c.field 18 8 = 1 then s.keys + 1 else 0) ∧
         t.keys = (if c.field 18 8 = 1 then s.keys + 1 else s.keys) ∧
         t.rd (Reg.SLICE.COUNTS.RESETS.inBank (c.field 0 8)) = 0 ∧
         ∀ j, j ≠ c.field 0 8 → t.slice j = s.slice j)) ∧
  ((∀ (q : Nat) (s : State) (c : Cmd), AtWork s q c opDestroy .decoded → wf s → c.field 0 8 < 64 →
     (s.probation = true ∨ (s.slice (c.field 0 8)).st ≠ .active ∨ (s.slice (c.field 0 8)).lockedAgainst c.orig = true →
       ∃ t, Finishes (.sliceDestroy q) s s c stConflict 0 t) ∧
     (s.probation = false → (s.slice (c.field 0 8)).st = .active → (s.slice (c.field 0 8)).lockedAgainst c.orig = false →
       ∃ t, exec (.sliceDestroy q) s = .next t ∧ (t.slice (c.field 0 8)).st = .destroying ∧
         (t.slice (c.field 0 8)).owner = none ∧ ∀ j, j ≠ c.field 0 8 → t.slice j = s.slice j)) ∧
   (∀ (q : Nat) (s : State) (c : Cmd), AtWork s q c opDestroy .waiting → c.idMode = false → wf s → c.field 0 8 < 64 →
     ((s.slice (c.field 0 8)).st ≠ .destroying ∨ s.sliceBusy (c.field 0 8) = true ∨ s.power.vholdOk = false →
       ∃ t, Moves (.sliceDestroyComplete q) s s t) ∧
     ((s.slice (c.field 0 8)).st = .destroying → s.sliceBusy (c.field 0 8) = false → s.power.vholdOk = true →
     ∃ t, exec (.sliceDestroyComplete q) s = .next t ∧ t.slice (c.field 0 8) = Slice.free ∧
       (∀ e ∈ t.flash.map.entries, e.slice ≠ c.field 0 8) ∧ (∀ p ∈ t.flash.map.onFlash, p.slice ≠ c.field 0 8) ∧
       (∀ e ∈ t.flash.map.ghosts, e.slice ≠ c.field 0 8) ∧
       (∀ j, j ≠ c.field 0 8 → t.slice j = s.slice j) ∧ Fixed t c stOk (completionFields c stOk 0))))

/-- SLICE_BIND STEP 0 (R162): STATE_CONFLICT where R162 says so; otherwise OK with a nonce that is new on this card, which is from
then on the sender's one outstanding nonce, for that Slice. Nothing else changes. SLICE_BIND STEP 1 (R163–R165): STATE_CONFLICT
without an outstanding nonce for that Slice or where R162 says so; OK with the right MAC, or with any MAC while the binding is
open, from which edge the sender owns the Slice and AUTH.FAILS reads 0; AUTH_FAILED otherwise, counted up to 16, where the Slice
is blocked. The nonce is gone whichever way the command ends, in the checks before it too. `sliceBindChallenge` and `sliceBindAnswer`
complete under the conditions stated here. -/
def Obligations.Binding : Prop :=
  (∀ (q : Nat) (s : State) (c : Cmd), AtWork s q c opBind .decoded → c.field 1 8 = 0 →
     (s.bindConflict c.orig (c.field 0 8) = true → ∃ t, Finishes (.sliceBindChallenge q) s s c stConflict 0 t) ∧
     (s.bindConflict c.orig (c.field 0 8) = false → ∃ t x, Finishes (.sliceBindChallenge q) s x c stOk (Config.nonce s.draws).toNat t ∧
       (t.orig c.orig).nonce = some (c.field 0 8, s.draws) ∧ (t.orig c.orig).epoch = (s.orig c.orig).epoch ∧
       t.draws = s.draws + 1 ∧ (∀ o, o ≠ c.orig → t.orig o = s.orig o) ∧ Only [.draws, .origs] s x)) ∧
  (∀ (q : Nat) (s : State) (c : Cmd), AtWork s q c opBind .decoded → c.field 1 8 = 1 → wf s → c.field 0 8 < 64 →
     let i := c.field 0 8
     let fails := Reg.SLICE.AUTH.FAILS.inBank i
     ((s.orig c.orig).nonce = none → ∃ t, Finishes (.sliceBindAnswer q) s s c stConflict 0 t) ∧
     (∀ j n, (s.orig c.orig).nonce = some (j, n) → ∃ t, exec (.sliceBindAnswer q) s = .next t ∧ (t.orig c.orig).nonce = none ∧
       (∀ o, o ≠ c.orig → t.orig o = s.orig o) ∧ (∀ k, k ≠ i → t.slice k = s.slice k) ∧
       (j ≠ i ∨ s.bindConflict c.orig i = true → t.slice i = s.slice i ∧ t.rd fails = s.rd fails ∧
         Fixed t c stConflict (completionFields c stConflict 0)) ∧
       (j = i → s.bindConflict c.orig i = false → s.macGood c n i = true ∨ (s.slice i).cfg.bindKey = 0 →
         (t.slice i).owner = some c.orig ∧ t.rd fails = 0 ∧ Fixed t c stOk (completionFields c stOk 0)) ∧
       (j = i → s.bindConflict c.orig i = false → s.macGood c n i = false → (s.slice i).cfg.bindKey ≠ 0 →
         t.slice i = s.slice i ∧ t.rd fails = min 16 (s.rd fails + 1) ∧
         (15 ≤ s.rd fails → s.rd (Reg.SLICE.AUTH.BLOCKED.inBank i) = 0 → t.rd (Reg.SLICE.AUTH.BLOCKED.inBank i) = 1) ∧
         Fixed t c stAuthFailed (completionFields c stAuthFailed 0)))) ∧
  (∀ (q st r : Nat) (s : State) (c : Cmd), s.cmd? q = some c → c.done? = false → c.opcode = opBind → c.field 1 8 = 1 →
    ((s.complete q st r).orig c.orig).nonce = none)

/-- SLICE_UNBIND (R168, R181): STATE_CONFLICT without an owner or against a lock; otherwise it waits, and once every earlier
command of the Slice has completed it takes the owner away, with the lock that the owner held, and completes OK. `sliceUnbind` and
`sliceUnbindComplete` complete under the conditions stated here. -/
def Obligations.Unbinding : Prop :=
  (∀ (q : Nat) (s : State) (c : Cmd), AtWork s q c opUnbind .decoded →
    ((s.slice (c.field 0 8)).owner = none ∨ (s.slice (c.field 0 8)).lockedAgainst c.orig = true →
      ∃ t, Finishes (.sliceUnbind q) s s c stConflict 0 t) ∧
    ((s.slice (c.field 0 8)).owner ≠ none → (s.slice (c.field 0 8)).lockedAgainst c.orig = false →
      ∃ t, Moves (.sliceUnbind q) s (s.setCmd q (fun c => { c with phase := .waiting })) t)) ∧
  (∀ (q : Nat) (s : State) (c : Cmd), AtWork s q c opUnbind .waiting → wf s → c.field 0 8 < 64 →
    ((s.earlier q).all (fun d => d.ring != some (c.field 0 8) || d.done?) = true →
      ∃ t, exec (.sliceUnbindComplete q) s = .next t ∧ (t.slice (c.field 0 8)).owner = none ∧
        (t.slice (c.field 0 8)).cfg = (s.slice (c.field 0 8)).cfg ∧
        (∀ l, (t.slice (c.field 0 8)).lock = some l → (s.slice (c.field 0 8)).lock = some l ∧
          (s.slice (c.field 0 8)).owner ≠ some l.orig) ∧
        (∀ j, j ≠ c.field 0 8 → t.slice j = s.slice j) ∧ Fixed t c stOk (completionFields c stOk 0)) ∧
    ((s.earlier q).all (fun d => d.ring != some (c.field 0 8) || d.done?) = false →
      ∃ t, Moves (.sliceUnbindComplete q) s s t))

/-- Locks (R181–R184): SLICE_LOCK takes or renews the lock with the sender's Epoch and the lease, or ends LOCKED with holder and
Epoch while another holds it; SLICE_UNLOCK releases for the holder and for the Administrator, and is STATE_CONFLICT otherwise; a
lease that runs out releases the lock. No other Slice changes. `sliceLock`, `sliceUnlock` and `leaseExpired` complete under the
conditions stated here. -/
def Obligations.Locks : Prop :=
  (∀ (q : Nat) (s : State) (c : Cmd), AtWork s q c opLock .decoded → wf s → c.field 0 8 < 64 →
    (∀ l, (s.slice (c.field 0 8)).lock = some l → l.orig ≠ c.orig →
      ∃ t, Finishes (.sliceLock q) s (s.bump (Reg.SLICE.COUNTS.LOCK_REFUSED.inBank (c.field 0 8))) c stLocked
        (l.orig + 2 ^ 32 * l.epoch) t) ∧
    ((∀ l, (s.slice (c.field 0 8)).lock = some l → l.orig = c.orig) →
      ∃ t x, Finishes (.sliceLock q) s x c stOk 0 t ∧ Only [.slices] s x ∧
        (t.slice (c.field 0 8)).lock = some { orig := c.orig, epoch := (s.orig c.orig).epoch,
                                              lease := if c.field 4 32 = 0 then none else some (c.field 4 32) } ∧
        ∀ j, j ≠ c.field 0 8 → t.slice j = s.slice j)) ∧
  (∀ (q : Nat) (s : State) (c : Cmd), AtWork s q c opUnlock .decoded → wf s → c.field 0 8 < 64 →
    (∀ l, (s.slice (c.field 0 8)).lock = some l → l.orig = c.orig ∨ s.isAdmin c.orig = true →
      ∃ t x, Finishes (.sliceUnlock q) s x c stOk 0 t ∧ (t.slice (c.field 0 8)).lock = none ∧
        (l.orig ≠ c.orig → x = (s.setSlice (c.field 0 8) (fun sl => { sl with lock := none })).raise Evt.SLICE.LOCK_BROKEN (c.field 0 8)) ∧
        ∀ j, j ≠ c.field 0 8 → t.slice j = s.slice j) ∧
    (∀ l, (s.slice (c.field 0 8)).lock = some l → l.orig ≠ c.orig → s.isAdmin c.orig = false →
      ∃ t, Finishes (.sliceUnlock q) s s c stConflict 0 t) ∧
    ((s.slice (c.field 0 8)).lock = none → ∃ t, Finishes (.sliceUnlock q) s s c stConflict 0 t)) ∧
  (∀ (i n : Nat) (s : State) (l : Lock), s.clocked = true → (s.slice i).lock = some l → l.lease = some n →
    ∃ t, Moves (.leaseExpired i) s ((s.setSlice i (fun sl => { sl with lock := none })).raise Evt.SLICE.LEASE_EXPIRED i) t ∧
      (t.slice i).lock = none ∧ (t.slice i).owner = (s.slice i).owner)

/-- A Slice reset (R179, R56), by SLICE_RESET or by SOFT_RST of the bank: on an ACTIVE Slice the reset begins, with the B fields
of the Slice's two banks at their reset values and binding, lock and configuration kept; on any other SLICE_RESET is
STATE_CONFLICT and SOFT_RST does nothing. The reset ends once no operation of the Slice runs: the Slice is ACTIVE again, RESETS is
raised, the SLICE_RESET completes OK. `sliceReset`, `sliceSoftReset` and `sliceResetEnd` complete under the conditions stated here. -/
def Obligations.SliceResets : Prop :=
  (∀ (q : Nat) (s : State) (c : Cmd), AtWork s q c opSliceReset .decoded → wf s → c.field 0 8 < 64 →
    ((s.slice (c.field 0 8)).st ≠ .active → ∃ t, Finishes (.sliceReset q) s s c stConflict 0 t) ∧
    ((s.slice (c.field 0 8)).st = .active → ∃ t, exec (.sliceReset q) s = .next t ∧
      t.slice (c.field 0 8) = { s.slice (c.field 0 8) with st := .resetting, mover := some q } ∧
      (∀ j, j ≠ c.field 0 8 → t.slice j = s.slice j) ∧
      (∀ f : Field, clearedBySlice (c.field 0 8) f.key = true → endKey f.key = false → t.rd f = f.reset))) ∧
  (∀ (i : Nat) (s : State), s.clocked = true → wf s → i < 64 →
    ((s.slice i).st = .active → ∃ t, exec (.sliceSoftReset i) s = .next t ∧
      t.slice i = { s.slice i with st := .resetting, mover := none } ∧ (∀ j, j ≠ i → t.slice j = s.slice j) ∧
      (∀ f : Field, clearedBySlice i f.key = true → endKey f.key = false → t.rd f = f.reset)) ∧
    ((s.slice i).st ≠ .active → ∃ t, Moves (.sliceSoftReset i) s s t) ∧
    ((s.slice i).st = .resetting → s.sliceBusy i = false → ∃ t, exec (.sliceResetEnd i) s = .next t ∧
      t.slice i = { s.slice i with st := .active, mover := none } ∧
      t.rd (Reg.SLICE.COUNTS.RESETS.inBank i) = satAdd (s.rd (Reg.SLICE.COUNTS.RESETS.inBank i)) 1 (ones Reg.SLICE.COUNTS.RESETS.width) ∧
      (∀ q c, (s.slice i).mover = some q → s.cmd? q = some c → c.done? = false →
        Fixed t c stOk (completionFields c stOk 0))) ∧
    (s.sliceBusy i = true → exec (.sliceResetEnd i) s = .next s))

/-- Writes of a Slice's configuration (R166, R167, R171, R185–R188, R220): a capacity that is raised lands at once and one that is
lowered waits, nothing of the Slice changed; PIN, QOS and the binding key are stored; AUTH.CLEAR clears FAILS and BLOCKED; HWM_CLR
lets both high-water marks fall to the levels. No other Slice changes, and nothing does on a FREE Slice (R55, R191); what is stored
waits for the hold-up charge (R310). `capacityWrite`, `mapPin`, `qosWrite`, `bindKeyWrite`, `authClear` and `hwmClr` complete under the
conditions stated here. -/
def Obligations.SliceConfiguration : Prop :=
  (∀ (i : Nat) (s : State), (s.slice i).st = .free →
    (∀ q cap, exec (.capacityWrite q i cap) s = .next s) ∧ (∀ on, exec (.mapPin i on) s = .next s) ∧
    (∀ cls weight dieCap, exec (.qosWrite i cls weight dieCap) s = .next s) ∧ (∀ key, exec (.bindKeyWrite i key) s = .next s) ∧
    exec (.authClear i) s = .next s ∧ exec (.hwmClr i) s = .next s) ∧
  (∀ (i : Nat) (s : State), s.clocked = true → wf s → i < 64 → (s.slice i).st ≠ .free → s.power.vholdOk = true →
    (∀ q cap, s.capacityBad i cap (((s.cmd? q).map Cmd.orig).getD s.admin) = false →
      (cap < (s.slice i).cfg.cap → ∃ t, Moves (.capacityWrite q i cap) s
        (s.setSlice i (fun sl => { sl with lowering := some (q, cap) })) t) ∧
      ((s.slice i).cfg.cap ≤ cap → ∃ t, exec (.capacityWrite q i cap) s = .next t ∧
        t.slice i = { s.slice i with cfg := { (s.slice i).cfg with cap := cap } } ∧ ∀ j, j ≠ i → t.slice j = s.slice j)) ∧
    (∀ on, on = false ∨ s.pinBad i = false → ∃ t, exec (.mapPin i on) s = .next t ∧
      (t.slice i).cfg = { (s.slice i).cfg with pin := on } ∧ (on = false → (t.slice i).pinState = .off) ∧
      ∀ j, j ≠ i → t.slice j = s.slice j) ∧
    (∀ cls weight dieCap, cls < 3 → weight < 256 → dieCap ≤ 256 → (cls = 1 → weight ≠ 0) →
      ∃ t, exec (.qosWrite i cls weight dieCap) s = .next t ∧
        t.slice i = { s.slice i with cfg := { (s.slice i).cfg with cls := cls, weight := if cls = 1 then weight else 0,
                                                                   dieCap := dieCap } } ∧
        ∀ j, j ≠ i → t.slice j = s.slice j) ∧
    (∀ key, key < 2 ^ 256 → ∃ t, exec (.bindKeyWrite i key) s = .next t ∧
      t.slice i = { s.slice i with cfg := { (s.slice i).cfg with bindKey := key } } ∧ ∀ j, j ≠ i → t.slice j = s.slice j) ∧
    (∃ t, Moves (.authClear i) s (s.clearAuth i) t ∧ t.rd (Reg.SLICE.AUTH.FAILS.inBank i) = 0 ∧
      t.rd (Reg.SLICE.AUTH.BLOCKED.inBank i) = 0) ∧
    (∃ t, Moves (.hwmClr i) s (s.clearHwm i) t ∧
      (s.clearHwm i).rd (Reg.QUEUE.HWM.SQ_HWM.inBank i) = (s.sqLevel i &&& Reg.QUEUE.HWM.SQ_HWM.mask) ∧
      (s.clearHwm i).rd (Reg.QUEUE.HWM.AQ_HWM.inBank i) = (s.aqLevel i &&& Reg.QUEUE.HWM.AQ_HWM.mask)))

/-! The queue of the commands In flight. -/

/-- The decoder (R193, R195, R120, R31, R78): while the firmware core runs, the command it pops is checked; a check that fails
ends it with its status, a command that passes is decoded. Gate D ends UNDECLARED while no clock is declared, whatever else fails;
after it, a command that ID mode does not serve ends NEEDS_FAST there. `commandDecode` completes under the conditions stated here. -/
def Obligations.DecoderRows : Prop :=
  (∀ (s : State) (c : Cmd), s.up = true → s.popped = some c → s.cmd? c.q = some c →
    let d := { c with phase := CmdPhase.decoded, popped := true }
    let b := s.setCmd c.q (fun _ => d)
    (b.decodeChecks d ≠ stOk → ∃ t, exec .commandDecode s = .next t ∧
      Fixed t c (b.decodeChecks d) (completionFields c (b.decodeChecks d) 0)) ∧
    (b.decodeChecks d = stOk → ∃ t, Moves .commandDecode s (b.decoded d) t)) ∧
  (∀ s : State, s.up = false ∨ s.popped = none → exec .commandDecode s = .next s) ∧
  (∀ (s : State) (c : Cmd), gateD c.opcode = true → s.declared = false → s.decodeChecks c = stUndeclared) ∧
  (∀ (s : State) (c : Cmd), isRegOp c.opcode = false → gateD c.opcode = false ∨ s.declared = true → c.idMode = true →
    idServed c.opcode = false → s.decodeChecks c = stNeedsFast)

/-- Staging (R211, R15): the first waiting command whose Slice's cap does not hold it reserves its sectors as soon as 1,024 hold
them, and the card asks for its data, unless an ABORT takes effect first (Table 5-8); until then nothing moves. ATTN_FETCH (R205, R206): without an entry on the sender's rings,
or with MAX 0, it completes OK with their level and LOST; otherwise the oldest entries, at most MAX, go up in one data frame,
stand marked, and the command waits for its acknowledgement. SELFTEST (R482, R483): STATE_CONFLICT beside another one, and for
scopes 1 and 5 outside factory test mode; otherwise OK, with the findings of the scopes that ran. `stagingReserved`, `attnFetch` and
`selftest` complete under the conditions stated here. -/
def Obligations.QueueServices : Prop :=
  (∀ (s : State) (c : Cmd), s.clocked = true → s.nextStage = some c →
     (s.staged + c.stageNeed ≤ 1024 → c.abortedBy ≠ [] → s.cmd? c.q = some c → ∃ t, exec .stagingReserved s = .next t ∧
       Fixed t c stAborted (completionFields c stAborted 0)) ∧
     (s.staged + c.stageNeed ≤ 1024 → c.abortedBy = [] → ∃ t, Moves .stagingReserved s (s.reserve c) t ∧
       ∃ d, (s.reserve c).desc? c.q = some d ∧ d.st = .data ∧ d.reserved = c.stageNeed) ∧
     (1024 < s.staged + c.stageNeed → exec .stagingReserved s = .next s)) ∧
  (∀ (q : Nat) (s : State) (c : Cmd), AtWork s q c opFetch .decoded →
     let l := s.oldest c.rings (c.field 0 8)
     (l = [] → ∃ t, Finishes (.attnFetch q) s s c stOk (s.fetchResult c.rings) t) ∧
     (l ≠ [] → ∃ t x f, Moves (.attnFetch q) s x t ∧ x.link.txQueue = s.link.txQueue ++ [f] ∧ f.ftype = .dataUp ∧ f.q = q ∧
       f.units = ceilDiv (16 * l.length) 64 ∧ x.attn = markSending c.rings l.length s.attn ∧
       Only [.link, .cmds, .attn] s x)) ∧
  (∀ (q f : Nat) (s : State) (c : Cmd), AtWork s q c opSelftest .decoded →
     (s.cmds.any (fun d => d.opcode == opSelftest && d.working && d.q != q) = true ∨
         (c.field 0 8 = 1 ∨ c.field 0 8 = 5) ∧ s.ftm = false →
       ∃ t, Finishes (.selftest q f) s s c stConflict 0 t) ∧
     (s.cmds.any (fun d => d.opcode == opSelftest && d.working && d.q != q) = false →
         (c.field 0 8 ≠ 1 ∧ c.field 0 8 ≠ 5) ∨ s.ftm = true →
       let x := if bitAt (scopeBits (c.field 0 8)) 3 then s.sampleDies else s
       x.cmd? q = some c → ∃ t, Finishes (.selftest q f) s x c stOk (selftestResult (c.field 0 8) f) t))

/-- ABORT (R127, R128): NO_SUCH_COMMAND without a target, NOT_OWNER for a sender that is neither its Originator nor the
Administrator; otherwise it waits and the target takes note of it; a target that has not been decoded ends ABORTED at once. At a
boundary that lets it, the target ends ABORTED, a TRIM of which ranges have taken effect once their record is programmed (R253).
`abort` and `abortTakesEffect` complete under the conditions stated here. -/
def Obligations.AbortRows : Prop :=
  (∀ (q : Nat) (s : State) (c : Cmd), AtWork s q c opAbort .decoded →
    (s.abortTarget c = none → ∃ t, Finishes (.abort q) s s c stNoSuch 0 t) ∧
    (∀ g, s.abortTarget c = some g → g.orig ≠ c.orig → s.isAdmin c.orig = false →
      ∃ t, Finishes (.abort q) s s c stNotOwner 0 t) ∧
    (∀ g, s.abortTarget c = some g → g.orig = c.orig ∨ s.isAdmin c.orig = true → g.phase = .queued → s.cmd? g.q = some g →
      g.q ≠ q → ∃ t, exec (.abort q) s = .next t ∧ Fixed t g stAborted (completionFields g stAborted 0)) ∧
    (∀ g, s.abortTarget c = some g → g.orig = c.orig ∨ s.isAdmin c.orig = true → g.phase ≠ .queued →
      ∃ t, Moves (.abort q) s ((s.setCmd q (fun c => { c with phase := .waiting })).setCmd g.q
        (fun g => { g with abortedBy := g.abortedBy ++ [q] })) t)) ∧
  (∀ (q : Nat) (s : State) (c : Cmd), s.clocked = true → s.cmd? q = some c → c.abortedBy ≠ [] → s.abortable c = true →
    (c.opcode = opRest → ∃ t, exec (.abortTakesEffect q) s = .next t ∧
      Fixed t c stAborted (completionFields c stAborted (s.restResult c))) ∧
    (c.opcode ≠ opRest → c.opcode ≠ opTrim ∨ c.done = 0 → ∃ t, exec (.abortTakesEffect q) s = .next t ∧
      Fixed t c stAborted (completionFields c stAborted 0)) ∧
    (c.opcode = opTrim → 0 < c.done → c.phase ≠ .recording → ∃ t x, Moves (.abortTakesEffect q) s x t ∧
      x.flash.jobs.any (fun j => j.work == .trimRecord q stAborted) = true)) ∧
  (∀ (q : Nat) (s : State) (c : Cmd), s.cmd? q = some c → s.abortable c = false → exec (.abortTakesEffect q) s = .next s)

/-! The link. -/

/-- Frames of fast mode (R89, R104, R105, R107, R113, R117, R130): a good command or data frame that the receiver accepts is taken; one
that it does not accept only moves the link. A frame with a header error or a failing CRC is counted and calls for a NAK, and the
receiver waits for an idle code; a good one out of sequence, or a duplicate, is discarded. An accepted command frame is stamped at once
unless COMPLETIONs are owed, behind which it waits. A good frame that arrives in RETURNING is counted in DROPPED; one that the receiver
does not hear changes nothing. `cmdFrame`, `dataDn` and `frameDiscard` complete under the conditions stated here. -/
def Obligations.FramesInFastMode : Prop :=
  (∀ (s : State) (idle : Bool) (b : List Nat), s.hears idle = true →
    let r := s.inStep.receive (linkHdr b)
    (goodFrame b = some .cmd →
      (r.2 = true → ∃ t, Moves (.cmdFrame idle b) s (r.1.acceptCommand (cmdOf b)).admitHeld t) ∧
      (r.2 = false → ∃ t, Moves (.cmdFrame idle b) s r.1.admitHeld t)) ∧
    (goodFrame b = some .dataDn →
      (r.2 = true → ∃ t, Moves (.dataDn idle b) s (r.1.takeData (cmdOf b).addr (cmdOf b).orig (cmdOf b).tag (fieldAt b 12 2)
        (fieldAt b 16 (64 * fieldAt b 7 1))).admitHeld t) ∧
      (r.2 = false → ∃ t, Moves (.dataDn idle b) s r.1.admitHeld t)) ∧
    (goodFrame b = none → ∃ t, Moves (.frameDiscard idle b) s
      ((((s.tally Reg.LINKERR.RX_BAD.COUNT).onLink (fun l => { l with hunting := true })).nak (linkHdr b).lseq (linkHdr b).retx).admitHeld) t) ∧
    (∀ y, goodFrame b = some y → y ≠ .linkctl → (linkHdr b).lseq ≠ s.link.rxExpected →
      (s.link.rxExpected < 256 → (linkHdr b).lseq < 256 → r.2 = false) ∧
      ∃ t, Moves (.frameDiscard idle b) s r.1.admitHeld t)) ∧
  (∀ (x : State) (f : CmdIn), x.link.phase = .up →
    (x.link.owed = [] → x.link.held = [] → (x.acceptCommand f).admitHeld = x.takeCommand f) ∧
    (x.link.owed ≠ [] → (x.acceptCommand f).admitHeld = { x with link := { x.link with held := x.link.held ++ [f] } })) ∧
  (∀ (s : State) (idle : Bool) (b : List Nat), s.clocked = true → s.link.phase = .returning →
    (goodFrame b = some .cmd → ∃ t, Moves (.cmdFrame idle b) s (s.bump Reg.LINK.ID_ERRORS.DROPPED) t) ∧
    (goodFrame b = some .dataDn → ∃ t, Moves (.dataDn idle b) s (s.bump Reg.LINK.ID_ERRORS.DROPPED) t) ∧
    (goodFrame b = some .linkctl → ∃ t, Moves (.linkctl idle b) s (s.bump Reg.LINK.ID_ERRORS.DROPPED) t)) ∧
  (∀ (s : State) (idle : Bool) (b : List Nat), s.hears idle = false → s.link.phase ≠ .returning →
    exec (.cmdFrame idle b) s = .next s ∧ exec (.dataDn idle b) s = .next s ∧ exec (.linkctl idle b) s = .next s ∧
    exec (.frameDiscard idle b) s = .next s)

/-- The receiver's judgement of a good frame without an acknowledgement (R107): the expected LSEQ is accepted, and the next one
expected; one of the 32 before it is a duplicate, acknowledged and discarded; any other is answered with a NAK. -/
def Obligations.ReceiverJudgement : Prop :=
  ∀ (s : State) (h : LinkHdr), s.link.phase = .up → h.ackv = false → s.link.rxExpected < 256 → h.lseq < 256 →
    (h.lseq = s.link.rxExpected → (s.receive h).2 = true ∧ (s.receive h).1 = { s with link := { s.link with
      rxExpected := (s.link.rxExpected + 1) % 256, nakAt := none, nakSent := 0, nakDue := false, ackDue := true } }) ∧
    (h.lseq ≠ s.link.rxExpected → (s.receive h).2 = false ∧
      ((s.link.rxExpected + 256 - h.lseq) % 256 ≤ 32 →
        (s.receive h).1 = { s with link := { s.link with ackDue := true } }) ∧
      (32 < (s.link.rxExpected + 256 - h.lseq) % 256 → (s.receive h).1 = s.nak h.lseq h.retx))

/-- ORIG 0xFF is reserved (R144): a command frame carrying it is not stamped. In fast mode the accepted frame is acknowledged,
counts as stray and raises CMD_LIMIT by one, on a card that does not send 0x4A (R89); in ID mode it is discarded without a response. -/
def Obligations.ReservedOriginator : Prop :=
  (∀ (s : State) (idle : Bool) (b : List Nat), s.hears idle = true → goodFrame b = some .cmd → (cmdOf b).orig = 0xFF →
    (s.inStep.receive (linkHdr b)).2 = true →
    let r := (s.inStep.receive (linkHdr b)).1
    r.ready = true → r.link.owed = [] → r.link.held = [] →
    ∃ t x, Moves (.cmdFrame idle b) s x t ∧ x.cmds = r.cmds ∧
      x.rd Reg.LINK.ORDER_SEQ.LAST = r.rd Reg.LINK.ORDER_SEQ.LAST ∧
      x.rd Reg.LINKERR.STRAY.COUNT = satAdd (r.rd Reg.LINKERR.STRAY.COUNT) 1 (ones Reg.LINKERR.STRAY.COUNT.width) ∧
      x.link.cmdLimit = (r.link.cmdLimit + 1) % 65536 ∧ x.link.ackDue = true) ∧
  (∀ (s : State) (b : List Nat), s.clocked = true → s.link.fast = false → idCrcGood b = true → (idCmdOf b).orig = 0xFF →
    ∃ t x, Moves (.idCommandFrame b) s x t ∧ x.cmds = s.cmds ∧ x.link.idResponse = s.link.idResponse ∧ x.wire = s.wire ∧
      (s.cmds = [] → s.ready = true → x.regs = s.regs))

/-- A command frame that passes every check of acceptance (R112–R115) is stamped with the next ORDER_SEQ: the command is In flight
with its Originator, TAG, opcode and fields. -/
def Obligations.CommandsAreStamped : Prop :=
  ∀ (s : State) (f : CmdIn), f.bcast = false → s.mine f = true → f.orig ≠ 0xFF → s.ready = true → s.sleepBound = false →
    s.known f.orig f.tag = false →
    1 ≤ (s.link.cmdLimit + 65536 - s.link.cmdCount) % 65536 → (s.link.cmdLimit + 65536 - s.link.cmdCount) % 65536 ≤ 1024 →
    let t := s.takeCommand f
    let q := (s.rd Reg.LINK.ORDER_SEQ.LAST + 1) % 2 ^ 32
    s.cmd? q = none → t.rd Reg.LINK.ORDER_SEQ.LAST = q ∧ t.link.cmdCount = (s.link.cmdCount + 1) % 65536 ∧
    ∃ c ∈ t.cmds, c.q = q ∧ c.orig = f.orig ∧ c.tag = f.tag ∧ c.opcode = f.opcode ∧ c.fields = f.fields ∧
      (c.phase = .queued ∨ c.phase = .settled)

/-- Acknowledgement (R106, R108, R109): the host's LINKCTL and a NAK are taken on an UP link; at the end of the replay count every
unacknowledged frame is replayed once more with RETX = 1, or the link is lost where one has used up its budget; an acknowledgement
due asks for a LINKCTL. Training (R91, R92, R111): a TSD block on a configured lane counts towards its lock, or clears it; the TSE
blocks of an aligned link bring it UP, with its state restarted where training began from FAST_WAIT or LOST. `linkctl`, `nakReplay`,
`replayTimeout`, `linkctlIdleAck`, `tsd` and `tse` complete under the conditions stated here. -/
def Obligations.LinkUpkeep : Prop :=
  (∀ (s : State) (idle : Bool) (b : List Nat), s.hears idle = true → goodFrame b = some .linkctl →
     ∃ t, Moves (.linkctl idle b) s (s.inStep.takeLinkctl (linkHdr b) (bitAt (fieldAt b 12 4) 0)).admitHeld t) ∧
  (∀ s : State, s.clocked = true → s.link.phase = .up →
     (∀ a, ∃ t, Moves (.nakReplay a) s
       (s.takeAck { lseq := 0, ackSeq := a, ackv := true, retx := false, nak := true }).admitHeld t) ∧
     (s.link.unacked ≠ [] → (∃ t, Moves .replayTimeout s s.replay t) ∧
       ((∀ f ∈ s.link.unacked, f.retries + 1 ≤ s.retryMax) →
         s.replay.link.unacked = s.link.unacked.map (fun f => { f with retx := true, retries := f.retries + 1 }) ∧
         s.replay.wire.length = s.wire.length + s.link.unacked.length) ∧
       ((∃ f ∈ s.link.unacked, s.retryMax < f.retries + 1) → s.replay = s.loseLink)) ∧
     (s.link.ackDue = true → ∃ t, Moves .linkctlIdleAck s { s with link := { s.link with linkctlDue := true } } t)) ∧
  (∀ s : State, s.clocked = true →
     (∀ lane b slot, ∃ t, Moves (.tsd lane b slot) s (s.takeTsd lane b slot) t) ∧
     (∀ lane b slot, s.link.fast = true → s.link.phase ≠ .returning → lane < s.downLanes → lane < s.link.lockRun.length →
       (s.takeTsd lane b slot).link.lockRun.getD lane 0 =
         (if b = tsdBlock lane then min 2 (s.link.lockRun.getD lane 0 + 1) else 0)) ∧
     (s.link.phase = .training → s.link.aligned = true →
       ∃ t, exec (.tse ((rangeFrom 0 s.downLanes).map tseBlock) true) s = .next t ∧ t.link.phase = .up ∧
         t.link.firstCtl = true ∧ (s.link.trainedFrom ≠ .up → t.link.rxExpected = 0 ∧ t.link.cmdCount = 0)) ∧
     (∀ l slot, s.link.phase ≠ .training ∨ s.link.aligned = false ∨ slot = false ∨ l ≠ (rangeFrom 0 s.downLanes).map tseBlock →
       ∃ t, Moves (.tse l slot) s s t))

/-- The return to ID mode (R94, R23, R130, R131): from UP, TRAINING or LOST the request returns the link, with the link-loss rule
applied; once nothing is In flight the link is in ID mode with an empty link state, ready again, and the channels need
reconfiguration. ID mode (R72–R78, R36, R129): a frame moves the card as its checks say; one with a bad CRC, or for another card,
or under a reserved Originator is not stamped; a repeated one is answered from the kept response; resynchronisation drops a
partial frame. A command's progress count that reaches the interval queues a PROGRESS frame on a link that carries one.
`returnToIdRequest`, `returnToIdComplete`, `idCommandFrame`, `idReceiverResync` and `progressInterval` complete under the conditions
stated here. -/
def Obligations.IdMode : Prop :=
  ((∀ s : State, s.clocked = true → s.link.fast = true → s.link.phase = .up ∨ s.link.phase = .training ∨ s.link.phase = .lost →
     ∃ t, Moves .returnToIdRequest s s.beginReturn t ∧ t.link.phase = .returning ∧ s.beginReturn.link.txQueue = [] ∧
       s.beginReturn.link.unacked = []) ∧
   (∀ s : State, s.clocked = true → s.link.phase = .returning → s.cmds = [] →
     ∃ t, exec .returnToIdComplete s = .next t ∧ t.link.fast = false ∧
       t.link.phase = (if s.power.armed = true ∧ s.power.startup = .ready then .idReady else .idNotReady) ∧
       ∀ c ∈ t.flash.chans, c.reconf = true) ∧
   (∀ s : State, s.clocked = true → s.link.phase = .returning → s.cmds ≠ [] → ∃ t, Moves .returnToIdComplete s s t)) ∧
  ((∀ (s : State) (b : List Nat), s.clocked = true → ∃ t, Moves (.idCommandFrame b) s (s.takeIdFrame b) t) ∧
   (∀ (s : State) (b : List Nat), s.link.fast = false →
     idCrcGood b = false ∨ ((idCmdOf b).bcast = false ∧ s.mine (idCmdOf b) = false) ∨ (idCmdOf b).orig = 0xFF ∨
       s.cmds ≠ [] ∨ s.link.repeats (idCmdOf b).orig (idCmdOf b).tag (idCmdOf b).opcode = true →
     (s.takeIdFrame b).cmds = s.cmds) ∧
   (∀ (s : State) (b : List Nat) (r : IdResponse), s.link.fast = false → s.link.idResponse = some r → idCrcGood b = true →
     (idCmdOf b).bcast = false → s.mine (idCmdOf b) = true → s.cmds = [] → s.ready = true → s.sleepBound = false →
     (idCmdOf b).orig ≠ 0xFF → idLen b ≤ 192 → r.orig = (idCmdOf b).orig → r.tag = (idCmdOf b).tag →
     r.opcode = (idCmdOf b).opcode → (s.takeIdFrame b).wire = s.wire ++ [.response r.bytes]) ∧
   (∀ s : State, s.clocked = true → s.link.fast = false →
     ∃ t, Moves .idReceiverResync s { s with link := { s.link with idPartial := false } } t) ∧
   (∀ (q : Nat) (s : State) (c : Cmd), s.clocked = true → s.cmd? q = some c →
     ∃ t x, Moves (.progressInterval q) s x t ∧
       (c.done? = false → s.link.phase = .up → s.link.txQueue = [] →
         x.link.txQueue = [upFrame s c .progress q 0 0])))

/-! Data commands. -/

/-- What a sector holds for a command with no earlier one over it (R14, R172, R244, R248, R249, R315): what the command's own snapshot of
that Slice's sector kept, or else the map; an unmapped sector is zero bytes, a torn one ends TORN, a lost one and one of a failed map page
UNCORRECTABLE, any other lies where the map says. READ and VERIFY (R14–R18, R123, Table 5-6): with COUNT 0 they wait as BARRIER does; one
whose sectors have all passed completes OK; one whose next sector reads TORN or UNCORRECTABLE ends there with that status and the offset; a
sector that holds zero bytes or staged data passes at once; an array read whose codeword decodes puts the slot's payload into the up buffer.
A sector that passes goes up in one data frame of a READ; a VERIFY sends none. `read` and `verify` complete under the conditions stated
here. -/
def Obligations.ReadsAndVerifies : Prop :=
  (∀ (q i lba : Nat) (s : State) (m : Option MapEntry), s.pendingOver q i lba = none →
     (s.snapOf q i lba = none ∧ m = s.entry i lba) ∨ (∃ n, s.snapOf q i lba = some n ∧ m = n.old) →
     (s.pageFailed i lba = true → s.content q i lba = .ends stUncorrectable) ∧
     (s.pageFailed i lba = false → m = none → s.content q i lba = .known 0) ∧
     (∀ e, s.pageFailed i lba = false → m = some e → s.content q i lba =
       (match e.loc with
         | .torn => .ends stTorn
         | .lost => .ends stUncorrectable
         | .at d b p k => .flash d b p k))) ∧
  ((∀ (i : Instr) (op q r : Nat) (outs : List SlotOut) (s : State) (c : Cmd) (d : Desc),
     (i = .read q outs ∧ op = opRead) ∨ (i = .verify q outs ∧ op = opVerify) → AtWork s q c op .decoded →
     (c.count = 0 → ∃ t, Moves i s (s.setCmd q (fun c => { c with phase := .waiting })) t) ∧
     (c.count ≠ 0 → c.ring = some r → s.desc? q = some d → s.flash.jobs = [] → s.descHeld q = false →
       (c.count ≤ d.next → c.count ≤ d.offset → ∃ t, exec i s = .next t ∧ Fixed t c stOk (completionFields c stOk 0)) ∧
       (∀ st, d.offset < c.count → d.found.find? (fun y => y.1 == d.offset) = some (d.offset, .ends st) →
         ∃ t, exec i s = .next t ∧ Fixed t c st (completionFields c st d.offset)) ∧
       (d.offset = 0 → d.next = 0 → d.found = [] → c.abortedBy = [] → s.stopped q = false → s.resident r (c.lba / 1024) = true →
         (∀ st, s.content q r c.lba = .ends st → ∃ t, exec i s = .next t ∧ Fixed t c st (completionFields c st 0)) ∧
         (∀ v, s.content q r c.lba = .known v → c.count = 1 → outs.head? ≠ some .upBuffer →
           ∃ t, exec i s = .next t ∧ Fixed t c stOk (completionFields c stOk 0))))) ∧
   (∀ (s : State) (q i n d b p k bits : Nat) (u : Bool) (x : Sector) (y : Desc), s.desc? q = some y → s.slotData d b p k = some x →
     ∃ e, (s.readNow q i n d b p k u (.hard bits)).desc? q = some e ∧ e.found = y.found ++ [(n, .data x.toNat)]) ∧
   (∀ (q x : Nat) (s : State) (c : Cmd) (d : Desc), s.cmd? q = some c → s.desc? q = some d →
     (∃ e, (s.deliver q x).desc? q = some e ∧ e.offset = d.offset + 1) ∧
     (c.opcode = opRead → ∃ f, (s.deliver q x).link.txQueue = s.link.txQueue ++ [f] ∧ f.ftype = .dataUp ∧ f.q = q ∧
       f.arg = d.offset ∧ f.units = 64 ∧ f.payload = x) ∧
     (c.opcode ≠ opRead → (s.deliver q x).link = s.link)))

/-- WRITE (R15, R17, R251, R263, Table 5-6): with COUNT 0 it waits as BARRIER does; one that is the only WRITE of its Slice whose data
phase has ended, and whose sectors lie in pages that have passed with their Proofing parity, commits: each sector that no later-stamped
command has committed is mapped to where its program put it, and the command, where it carries no further work, completes OK. TRIM (R247,
R253, Table 5-6): with COUNT 0 it waits as BARRIER does; its map pages are fetched first; a range of at most 4,096 sectors takes effect on
one edge, and every sector of it that no later-stamped command has committed is unmapped; with the last range the trim record is programmed,
and where the dies of the map are free the command completes OK. `write` and `trim` complete under the conditions stated here. -/
def Obligations.WritesAndTrims : Prop :=
  let listedOnce (s : State) : Prop := s.flash.map.cache.Pairwise (fun p r => (p.slice, p.idx) ≠ (r.slice, r.idx))
  ((∀ (q : Nat) (l : List ProgOut) (s : State) (c : Cmd), AtWork s q c opWrite .decoded → c.count = 0 →
     ∃ t, Moves (.write q l) s (s.setCmd q (fun c => { c with phase := .waiting })) t) ∧
   (∀ (q i : Nat) (l : List ProgOut) (s : State) (c : Cmd) (d : Desc), AtWork s q c opWrite .ready → c.ring = some i →
     s.desc? q = some d → c.count ≠ 0 → c.done < c.count → c.count ≤ d.offset → c.count ≤ d.next → s.stopped q = false →
     (s.awaiting i).contains q = false → s.missing i c.lba c.count = [] → listedOnce s →
     s.dirtyExcess (mapPagesOf i c.lba c.count) = 0 → s.flash.jobs = [] → s.checkpointDue = false →
     (∀ b, c.lba ≤ b → b < c.lba + c.count → s.placed i b c.seqNo ≠ none) →
     s.cmds.filter (fun e => e.opcode == opWrite && e.ring == some i && e.phase == .ready) = [c] →
     c.erases = 0 → c.moves = 0 → s.forcedRuns q = false → (s.wearCauses.readOnly = true → s.flash.wear.readOnly = true) →
     ∃ t, exec (.write q l) s = .next t ∧ Fixed t c stOk (completionFields c stOk 0) ∧
       (∀ b m, c.lba ≤ b → b < c.lba + c.count → s.placed i b c.seqNo = some m → s.superseded q i b c.seqNo = false →
         t.entry i b = some { slice := i, lba := b, seq := c.seqNo, loc := m }))) ∧
  ((∀ (q : Nat) (s : State) (c : Cmd), AtWork s q c opTrim .decoded → c.count = 0 →
     ∃ t, Moves (.trim q) s (s.setCmd q (fun c => { c with phase := .waiting })) t) ∧
   (∀ (q i : Nat) (s : State) (c : Cmd), AtWork s q c opTrim .decoded → c.ring = some i → c.count ≠ 0 →
     let n := min 4096 (c.count - c.done)
     let a := c.lba + c.done
     (c.abortedBy ≠ [] → ∃ t, Moves (.trim q) s (s.abortNow c) t) ∧
     (c.abortedBy = [] → s.missing i a n ≠ [] → ∃ t, Moves (.trim q) s (s.fetchAll q i (s.missing i a n)) t) ∧
     (c.abortedBy = [] → s.missing i a n = [] → c.done < c.count → listedOnce s → s.dirtyExcess (mapPagesOf i a n) = 0 →
       ∃ t, exec (.trim q) s = .next t ∧
         (∀ b, a ≤ b → b < a + n → s.superseded q i b c.seqNo = false → t.entry i b = none) ∧
         (c.count ≤ c.done + 4096 → s.flash.jobs = [] → s.checkpointDue = false →
           (∀ d ∈ s.mapDies, s.dieFree d 66 0 .program false = true ∧ ∀ y, s.die? d = some y → y.hasJob s.flash.nextJob = false) →
           Fixed t c stOk (completionFields c stOk 0)))))

/-- BARRIER and its release (R122, Table 5-6): it waits, and completes OK once every earlier command of its Slice has completed.
REST (R122, R124, R259, R260, R262): with BUDGET 0 it completes at once with DEBT and STEPS 0; otherwise its window opens with the map work
that is due, and it completes OK with DEBT and STEPS when its budget has passed or no debt is left while upkeep is enabled, and no step
started for it runs; in the Safe state when no step of an engine runs. Until then nothing moves. `barrier`, `barrierRelease`, `rest` and
`restComplete` complete under the conditions stated here. -/
def Obligations.BarriersAndRests : Prop :=
  (∀ (q : Nat) (s : State) (c : Cmd), AtWork s q c opBarrier .decoded →
    ∃ t, Moves (.barrier q) s (s.setCmd q (fun c => { c with phase := .waiting })) t) ∧
  (∀ (q i : Nat) (s : State) (c : Cmd), AtWork s q c c.opcode .waiting → c.isBarrier = true → c.ring = some i →
    ((s.earlier q).all (fun d => d.ring != some i || d.done?) = true →
      ∃ t, Finishes (.barrierRelease q) s s c stOk 0 t) ∧
    ((s.earlier q).all (fun d => d.ring != some i || d.done?) = false → ∃ t, Moves (.barrierRelease q) s s t)) ∧
  (∀ (q : Nat) (s : State) (c : Cmd), AtWork s q c opRest .decoded →
    (c.budget = 0 → ∃ t, Finishes (.rest q) s s c stOk (s.debt % 2 ^ 64) t) ∧
    (c.budget ≠ 0 → ∃ t, Moves (.rest q) s
      ((s.setCmd q (fun c => { c with phase := .waiting, steps := 0 })).mapWork.flashSettle) t)) ∧
  (∀ (q : Nat) (s : State) (c : Cmd), AtWork s q c opRest .waiting →
    let ends : Prop := if s.safe = true then s.engineRuns = false
      else c.awaits = [] ∧ (c.budget ≤ c.progress ∨ (s.rd (enableBit 0x0D 0) = 1 ∧ s.debt = 0))
    (ends → ∃ t, exec (.restComplete q) s = .next t ∧
      Fixed t c stOk (completionFields c stOk (s.debt % 2 ^ 64 + 2 ^ 64 * (c.steps % 2 ^ 32)))) ∧
    (¬ ends → ∃ t, Moves (.restComplete q) s s t))

/-! The dies. -/

/-- ARBITER_GRANT (R225–R227): a free die that may be granted goes to the head of its urgent FIFO before anything else; a channel
whose reconfiguration is due and whose dies are idle is held for it instead; a die that is held is not granted. DIE_READY (R230,
R327, R342): a holder that was told to make way yields the die to the urgent FIFO, and the reset by which it does leaves the other
dies alone where the target supports Reset LUN; an array read that has ended keeps the die for its data output; a program that has ended
frees the die and hands its page its status. The bus of a channel (R229) is granted only where it is free, to an urgent step first and
otherwise in the order in which the steps came to need it. `arbiterGrant` and `dieReady` complete under the conditions stated here. -/
def Obligations.GrantsAndReadiness : Prop :=
  ((∀ (d : Nat) (s : State) (w x : Die) (r : Req) (l : List Req), s.clocked = true → s.die? d = some w → w.holder = none →
     let y := s.arbSettle
     y.die? d = some x → x.holder = none → x.failed = false → y.chanGate d = true → y.chanOpen (d / 16) = true → x.fifo = r :: l →
     r.op = .read → y.opMay d r.block .read = true →
     ∃ t z, Moves (.arbiterGrant d) s (((y.grantUrgent d).grantBegun d).flashSettle) t ∧ (y.grantUrgent d).die? d = some z ∧
       z.holder = some (.step { r with waited := 0 }) ∧ z.fifo = l ∧ z.activity = .reading) ∧
   (∀ (d : Nat) (s : State) (w : Die) (c : Chan), s.clocked = true → s.die? d = some w → w.holder = none →
     let y := s.arbSettle
     y.chanOf? (d / 16) = some c → c.reconf = true → y.rd (resetActive (0x10 + d / 16) 0) = 0 → y.channelIdle (d / 16) = true →
     ∃ t, Moves (.arbiterGrant d) s (y.holdChannel (d / 16)) t) ∧
   (∀ (d : Nat) (s : State), s.clocked = true → (s.die? d = none ∨ ∃ x, s.die? d = some x ∧ x.holder ≠ none) →
     ∃ t, Moves (.arbiterGrant d) s s t)) ∧
  ((∀ (d : Nat) (pass : Bool) (s : State) (x : Die), s.clocked = true → s.die? d = some x → x.preempting = true →
     ∃ t, Moves (.dieReady d pass) s (((s.wayReset d x).makeWay d).grantUrgent d) t) ∧
   (∀ (d : Nat) (s : State) (x : Die), s.die? d = some x → x.resetLun = true → s.resetMates d = s) ∧
   (∀ (d : Nat) (pass : Bool) (s : State) (x : Die) (r : Req), s.clocked = true → s.die? d = some x → x.preempting = false →
     x.holder = some (.step r) → x.activity = .reading →
     ∃ t y, Moves (.dieReady d pass) s ((s.readMade d r).arbSettle.goOn.flashSettle) t ∧ (s.readMade d r).die? d = some y ∧
       y.holder = x.holder ∧ y.activity = .dataOut ∧ y.watchdog = 0) ∧
   (∀ (d : Nat) (pass : Bool) (s : State) (x : Die) (r : Req), s.clocked = true → s.die? d = some x → x.preempting = false →
     x.holder = some (.step r) → x.activity = .programming →
     ∃ t y, Moves (.dieReady d pass) s (((s.release_ d).opEnds d r pass).arbSettle.goOn.flashSettle) t ∧
       (s.release_ d).die? d = some y ∧ y.holder = none ∧ y.activity = .idle)) ∧
  ((∀ (n : Nat) (s : State) (c : Chan), s.chanOf? n = some c → c.bus ≠ none → s.grantBus n = s) ∧
   (∀ (n d : Nat) (s : State) (c : Chan), s.chanOf? n = some c → c.bus = none → d ∈ c.busWait →
     (s.urgentHolds d = true ∧ ∀ e ∈ c.busWait.takeWhile (fun e => e != d), s.urgentHolds e = false) ∨
       ((∀ e ∈ c.busWait, s.urgentHolds e = false) ∧ c.busWait.head? = some d) →
     ∃ z, (s.grantBus n).chanOf? n = some z ∧ z.bus = some d ∧ z.busWait = c.busWait.erase d))

/-- The grant watchdog (R235–R237, R478): a first bite issues Reset LUN, records the holder and counts; a second one before any
step has completed declares the die failed; a die that no step holds is not bitten, and a stopped watchdog does not bite.
`grantWatchdogBite` completes under the conditions stated here. -/
def Obligations.WatchdogBites : Prop :=
  (∀ (d : Nat) (s : State) (x : Die) (h : Holder), s.clocked = true → s.wdRuns = true → s.die? d = some x → x.holder = some h →
    x.bitten = false → ∃ t y, exec (.grantWatchdogBite d) s = .next t ∧ t.die? d = some y ∧
      y.holder = some (.resetLun h.back.1 h.back.2) ∧ y.bitten = true ∧ t.rd Reg.WATCHDOG.WD_LAST_REQ.VALID = 1 ∧
      t.rd Reg.WATCHDOG.WD_BITES.BITES = satAdd (s.rd Reg.WATCHDOG.WD_BITES.BITES) 1 (ones Reg.WATCHDOG.WD_BITES.BITES.width)) ∧
  (∀ (d : Nat) (s : State) (x : Die) (h : Holder), s.clocked = true → s.wdRuns = true → s.die? d = some x → x.holder = some h →
    x.bitten = true → ∃ t, Moves (.grantWatchdogBite d) s
      ((((s.recordBite x h).report Src.WATCHDOG.DIE_STUCK).bump Reg.WATCHDOG.WD_BITES.STUCK).dieFails d) t) ∧
  (∀ (d : Nat) (s : State) (x : Die), s.clocked = true → s.wdRuns = true → s.die? d = some x → x.holder = none →
    ∃ t, Moves (.grantWatchdogBite d) s s t) ∧
  (∀ (d : Nat) (s : State), s.wdRuns = false → exec (.grantWatchdogBite d) s = .next s)

/-- Decodes (R217, R224, R342–R346, R348): a codeword that fails hard decode is marked for soft decode and its page is read again, one read
at a time; any other outcome of hard decode, and the outcome of soft decode once the three further reads have been made and a decoder has
taken the codeword, ends it. While its command is held or the decoders take no codewords it stays. A codeword that decodes yields the
slot's payload. A map page fetch (R215, R248): a copy that has arrived and decodes makes the page resident, without a further copy the page
is resident and lost, and either way it is no longer being fetched; nothing happens where no such fetch runs. A channel's reconfiguration
ends with the channel no longer marked (R338). `hardDecodeDone`, `softDecodeDone`, `mapPageResident` and `reconfiguration` complete under
the conditions stated here. -/
def Obligations.DecodesAndFetches : Prop :=
  (∀ (d b p k : Nat) (out : SlotOut) (s : State) (w : Codeword), s.clocked = true → s.word? d b p k = some w →
     (s.eccOpen = true → s.descHeld w.q = false → w.soft = false →
       (out.needsSoft = true → ∃ t, Moves (.hardDecodeDone d b p k out) s
         (((s.setWord w (fun _ => { w with soft := true })).softRead { w with soft := true }).flashSettle) t) ∧
       (out.needsSoft = false → ∃ t, Moves (.hardDecodeDone d b p k out) s (s.wordEnds w out) t)) ∧
     (s.eccOpen = true → s.descHeld w.q = false → w.soft = true → w.reads = 3 → w.decoder ≠ none → out.needsSoft = true →
       ∃ t, Moves (.softDecodeDone d b p k out) s (s.wordEnds w out) t) ∧
     (s.eccOpen = false ∨ s.descHeld w.q = true → (∃ t, Moves (.hardDecodeDone d b p k out) s s t) ∧
       ∃ t, Moves (.softDecodeDone d b p k out) s s t)) ∧
  (∀ (s : State) (d b p k bits : Nat) (u : Bool), (s.decodeEnds d b p k u (.hard bits)).2 = s.slotData d b p k ∧
     (s.decodeEnds d b p k u .soft).2 = s.slotData d b p k) ∧
  ((∀ (i p : Nat) (a b : Bool) (s : State) (f : Fetch), s.clocked = true → s.fetch? i p = some f → s.fetchMay f = true →
     (∃ t, Moves (.mapPageResident i p a b) s ((State.fetchOn i p a b 3 s).goOn.flashSettle) t) ∧
     (∀ e, s.fetchCopy f = some e → f.arrived = true → (if f.tried = 0 then a else b) = true →
       State.fetchOn i p a b 3 s = s.fetchEnds f true) ∧
     (s.fetchCopy f = none → State.fetchOn i p a b 3 s = s.fetchEnds f false)) ∧
   (∀ (s : State) (f : Fetch) (good : Bool), (s.fetchEnds f good).resident f.slice f.idx = true ∧
     (s.fetchEnds f good).fetch? f.slice f.idx = none) ∧
   (∀ (i p : Nat) (a b : Bool) (s : State), s.fetch? i p = none → exec (.mapPageResident i p a b) s = .next s) ∧
   (∀ (n : Nat) (l : List (Nat × Nat)) (s : State) (c : Chan) (pr : Profile), s.clocked = true → s.chanOf? n = some c →
     s.chanProfile n = some pr → c.reconf = true → s.channelIdle n = true → ∃ t, exec (.reconfiguration n l) s = .next t ∧
       ∀ e ∈ t.flash.chans, e.id = n → e.reconf = false))

/-- The upkeep steps (R222, R248, R254–R256, R259, R260, R269, R283, Table 10-2): a step that a Rest window may start takes a free die at
once, and on any other die its request is presented; a step whose source page has been transferred goes on to its end and frees its die;
an erased block is erased; a patrol round owes one sample of every closed block. `blockErase`, `pageRelocation`, `refreshRelocation`,
`verificationRead` and `patrolStart` complete under the conditions stated here. -/
def Obligations.UpkeepSteps : Prop :=
  (∀ (d b p : Nat) (s : State), s.clocked = true → s.stepsMay = true →
    (∀ pass, s.relocates = true → s.erasable d b = true → s.rankFree (if s.shortfall = 0 then 6 else s.gcRank) = true →
      s.engineAsked d b .erase = false →
      (s.engineFree d b .erase = true → ∃ t, Moves (.blockErase d b pass) s
        (((s.countGrant 64 d 0).eraseStep d b pass).stepEnded d) t ∧ (pass = true → (t.block d b).st = .erased)) ∧
      (s.engineFree d b .erase = false → ∃ t, Moves (.blockErase d b pass) s
        (s.present d (newReq 64 0 .steady (s.engineWeight 64) .erase b 0 .other)) t)) ∧
    (∀ (i : Instr) (who : Nat) outs prog, s.relocates = true → s.eccOpen = true → s.pageValid d b p = true →
      (i = .pageRelocation d b p outs prog ∧ who = 64 ∧ s.shortfall ≠ 0 ∧ s.isVictim d b = true ∧ s.rankFree s.gcRank = true) ∨
        (i = .refreshRelocation d b p outs prog ∧ who = 67 ∧ s.refreshDue (s.block d b) = true ∧ s.rankFree 3 = true) →
      s.engineHolds who d b p = false → s.sourceMissing d b p = [] → s.engineAsked d b .read = false →
      (s.engineFree d b .read = true → ∃ t, Moves i s
        ((((s.countGrant who d 0).arrayRead d b).relocateStep who d b p outs prog).stepEnded d) t) ∧
      (s.engineFree d b .read = false → ∃ t, Moves i s
        (s.present d (newReq who 0 .steady (s.engineWeight who) .read b p .other)) t)) ∧
    (∀ outs, s.eccOpen = true → s.pageOpen 0x0E = true → s.dieGood d = true → s.engineHolds 65 d b p = false →
      s.engineAsked d b .read = false → s.engineFree d b .read = true →
      (∀ i k, s.awaitsVerify d b p = some (i, k) → s.rankFree 4 = true → ∃ t, Moves (.verificationRead d b p outs) s
        ((((s.countGrant 65 d 0).arrayRead d b).verifyStep i k d b p outs).stepEnded d) t) ∧
      (s.awaitsVerify d b p = none → s.patrolOwed d b p = true → s.rankFree 7 = true → ∃ t, Moves (.verificationRead d b p outs) s
        ((((s.countGrant 65 d 0).arrayRead d b).patrolStep d b p outs).stepEnded d) t))) ∧
  (∀ (d b p : Nat) outs prog (s : State), s.clocked = true → s.relocates = true → s.sourceMissing d b p = [] →
    (s.engineHolds 64 d b p = true → ∃ t, Moves (.pageRelocation d b p outs prog) s
      (((s.relocateStep 64 d b p outs prog).stepEnded d).release_ d) t) ∧
    (s.engineHolds 67 d b p = true → ∃ t, Moves (.refreshRelocation d b p outs prog) s
      (((s.relocateStep 67 d b p outs prog).stepEnded d).release_ d) t)) ∧
  (∀ s : State, s.clocked = true → ∃ t, Moves .patrolStart s s.startPatrol.flashSettle t ∧
    ∀ e, e ∈ t.flash.upkeep.patrol ↔ ∃ x ∈ s.flash.blocks, x.st = .closed ∧ s.dieGood x.die = true ∧ e = (x.die, x.num))

/-! Firmware and registers. -/

/-- FW_STAGE (R398), FW_ACTIVATE (R394, R395, R400) and FW_CONFIRM (R405). A stage whose data phase has ended records its units in
its slot. An activation is STATE_CONFLICT beside a stage of its target, in probation or with a reset asked for; IMAGE_REJECTED
with the first failing check, which rejects the slot; otherwise the slot is in PROBATION, cell 23 names what starts, and a core
reset is asked for. A confirmation needs a probation with a shadow and microcode that fits; the shadow becomes both settings
copies and the boot record names the running pair. What a stage or a confirmation stores waits for the hold-up charge (R310), a stage also
while its descriptor is held (R217). `fwStage`, `fwActivate` and `fwConfirm` complete under the conditions stated here. -/
def Obligations.FirmwareCommands : Prop :=
  (∀ (q i : Nat) (s : State) (c : Cmd), AtWork s q c opStage .ready → c.slice = some i → i < s.fw.slots.length →
    (s.power.vholdOk = true → s.descHeld q = false → ∃ t x, Finishes (.fwStage q) s x c stOk 0 t ∧ Only [.fw] s x ∧
      (t.fwSlot i).units = stageFrames (s.fwSlot i).units (c.field 4 32 / 64) (c.field 8 32 / 64) c.payload ∧
      ∀ j, j ≠ i → t.fwSlot j = s.fwSlot j) ∧
    (s.power.vholdOk = false ∨ s.descHeld q = true → ∃ t, Moves (.fwStage q) s s t)) ∧
  (∀ (q : Nat) (r : Bool) (s : State) (c : Cmd), AtWork s q c opActivate .decoded →
    let busy := s.cmds.any (fun d => d.opcode == opStage && d.working && d.field 0 8 == c.field 0 8)
    (busy = true ∨ s.targetProbation (c.field 0 8) = true ∨ s.power.resetReq ≠ none ∨ s.stagingSlot (c.field 0 8) = none →
      ∃ t, Finishes (.fwActivate q r) s s c stConflict 0 t) ∧
    (∀ i, busy = false → s.targetProbation (c.field 0 8) = false → s.power.resetReq = none →
      s.stagingSlot (c.field 0 8) = some i → i < s.fw.slots.length →
      (s.checkSlot i r ≠ 0 → ∃ t, Finishes (.fwActivate q r) s (s.rejectSlot i (s.checkSlot i r)) c stImageRejected 0 t ∧
        (t.fwSlot i).st = .rejected) ∧
      (s.checkSlot i r = 0 → ∃ t x, Finishes (.fwActivate q r) s x c stOk 0 t ∧ (t.fwSlot i).st = .probation ∧
        (∃ e, t.power.resetReq = some e ∧ e.system = false ∧ e.source = 5) ∧
        (s.power.vbak = true → t.cell 23 = s.startRequest i)))) ∧
  (∀ (q : Nat) (s : State) (c : Cmd), AtWork s q c opConfirm .decoded →
    let other := s.cmds.any (fun d => d.opcode == opConfirm && d.working && d.q != q)
    (s.fw.run = none ∨ s.fw.shadow = none ∨ other = true ∨ s.probation = false ∨ s.safeIf = true →
      ∃ t, Finishes (.fwConfirm q) s s c stConflict 0 t) ∧
    (∀ m e, s.fw.run = some m → s.fw.shadow = some e → m.probation = true → m.safeIf = false → other = false →
      (s.power.vholdOk = false → ∃ t, Moves (.fwConfirm q) s s t) ∧
      (s.power.vholdOk = true → ∃ t, Finishes (.fwConfirm q) s (s.confirm m e.2) c stOk 0 t ∧ t.probation = false ∧
        t.fw.shadow = none ∧ t.fw.boot.map (fun b => b.main) = some m.main ∧ t.fw.settings.map (fun x => x.cfgs) = some e.2.cfgs ∧
        (s.power.vbak = true → t.cell 23 = 0))))

/-- REGREAD and REGWRITE (R53–R62, R171): behind an earlier register command, or under a reset of their page, they wait. A REGREAD
samples one word per CCLK edge, a word it has not latched with its SNAP group as the register reads then, and completes OK with its words
on the edge of the last; a REGWRITE with a value out of range ends OUT_OF_RANGE, one that lowers a capacity waits, one that writes the
stored configuration waits for the hold-up charge (R310), any other lands on one edge; a lowered capacity lands once every earlier command
of the Slice has completed and no reset of its page is active. `regread`, `regwrite` and `capacityLowerLand` complete under the conditions
stated here. -/
def Obligations.RegisterCommands : Prop :=
  (∀ (q : Nat) (ph : CmdPhase) (s : State) (c : Cmd), AtWork s q c opRegread ph → ph = .decoded ∨ ph = .sampling →
    let bank := (s.regBank c).getD 0
    let next : Cmd := { c with phase := .sampling, done := c.done + 1, snap := s.sampleWord c.regPage bank (c.regIndex + c.done) c.snap }
    (ph = .decoded → s.regHeld c bank = true → ∃ t, Moves (.regread q) s s t) ∧
    (ph = .sampling ∨ s.regHeld c bank = false →
      (c.done + 1 < c.regCount → ∃ t, Moves (.regread q) s (s.setCmd q (fun _ => next)) t) ∧
      (c.regCount ≤ c.done + 1 → ∃ t, exec (.regread q) s = .next t ∧ Fixed t c stOk (completionFields c stOk 0 next.wordsRead)))) ∧
  (∀ (s : State) (page bank i : Nat) (got : List (Nat × Nat)),
    (got.any (fun e => e.1 == i) = true → s.sampleWord page bank i got = got) ∧
    (got.any (fun e => e.1 == i) = false →
      (s.sampleWord page bank i got).find? (fun e => e.1 == i) = some (i, s.regWord page bank i))) ∧
  (∀ (q b : Nat) (met : List (Nat × Nat)) (s : State) (c : Cmd), AtWork s q c opRegwrite .ready → (s.regBank c).getD 0 = b →
    let lowers := c.regPage = 6 ∧ (c.covers 9 ∨ c.covers 10) ∧ s.newCapacity c b < (s.slice b).cfg.cap
    (s.regHeld c b = true → ∃ t, Moves (.regwrite q met) s s t) ∧
    (s.regHeld c b = false → s.valuesBad c b = true → ∃ t, Finishes (.regwrite q met) s s c stOutOfRange 0 t) ∧
    (s.regHeld c b = false → s.valuesBad c b = false → s.storeHeld c = true → ∃ t, Moves (.regwrite q met) s s t) ∧
    (s.regHeld c b = false → s.valuesBad c b = false → s.storeHeld c = false → lowers → ∃ t, Moves (.regwrite q met) s
      ((s.setCmd q (fun c => { c with phase := .waiting })).setSlice b
        (fun sl => { sl with lowering := some (q, s.newCapacity c b) })) t) ∧
    (s.regHeld c b = false → s.valuesBad c b = false → s.storeHeld c = false → ¬ lowers →
      ∃ t, Moves (.regwrite q met) s (s.landWrite c b met) t ∧
        ((∀ e ∈ s.cmds, (e.q = q → e = c) ∧ q ∉ e.abortedBy) → Fixed t c stOk (completionFields c stOk 0)))) ∧
  (∀ (q i cap : Nat) (s : State), s.clocked = true → (s.slice i).lowering = some (q, cap) →
    let may := (s.earlier q).all (fun d => d.ring != some i || d.done?) = true ∧ s.pageResetting 6 i = false ∧ s.power.vholdOk = true
    (∀ c, s.cmd? q = some c → c.opcode = opRegwrite → c.phase = .waiting → may → ∃ t, Moves (.capacityLowerLand i) s
      ((s.setSlice i (fun sl => { sl with lowering := none })).landWrite c i []) t) ∧
    (s.cmd? q = none → may → ∃ t, Moves (.capacityLowerLand i) s
      ((s.setSlice i (fun sl => { sl with lowering := none })).landCapacity i cap) t) ∧
    (¬ may → exec (.capacityLowerLand i) s = .next s))

/-- What a written word stores (R51, R379): a read-write field takes its bits of the word, clamped where its table says so, a W1C
field falls where they are 1, and a read-only one stands; the ALERT mask stands under the faults-only restriction. Writes of the
common header (R46, R63, R371, R209) reach no register of an absent channel or of a FREE Slice's bank (R2, R55). Elsewhere FAULT_ENABLE,
FAULT_ACTION and ATTN_ENABLE take the writable bits of the word; FAULT_STICKY falls where the word is 1 and no source errs on the same
edge; the count of a watermark's crossings falls with its bit, to 1 where a crossing meets the clear. `enableWrite`, `faultHandling` and
`wmCrossClear` complete under the conditions stated here. -/
def Obligations.RegisterWrites : Prop :=
  (∀ (s : State) (f : Field) (w : Nat), f.live = false →
     (f.acc = .rw → f.page ≠ 0x24 ∨ f.index ≠ 14 ∨ s.faultsOnly = false →
       s.writeField f w = s.wr f (clampField f (bitsOf w f.lo f.width))) ∧
     (f.acc = .rw → f.page = 0x24 → f.index = 14 → s.faultsOnly = true → s.writeField f w = s) ∧
     (f.acc = .w1c → s.writeField f w = s.wr f (clearBits (s.rd f) (bitsOf w f.lo f.width))) ∧
     (f.acc = .ro → s.writeField f w = s)) ∧
  ((∀ (page bank v met : Nat) (s : State), s.clocked = true → bank < 64 → s.reaches page bank = true →
     (∃ t, Moves (.enableWrite page bank 4 v) s (s.landHeader page bank 4 v 0) t ∧
       t.rd (faultEnable page (bankOf page bank)) = (v &&& Reg.faultMask page)) ∧
     (∃ t, Moves (.enableWrite page bank 5 v) s (s.landHeader page bank 5 v 0) t ∧
       t.rd (faultAction page (bankOf page bank)) = (v &&& actionMask page)) ∧
     (∃ t, Moves (.enableWrite page bank 7 v) s (s.landHeader page bank 7 v 0) t ∧
       t.rd (attnEnable page (bankOf page bank)) = (v &&& Reg.attnMask page)) ∧
     (∃ t, Moves (.faultHandling page bank 3 v met) s (s.landHeader page bank 3 v met) t) ∧
     (s.writeHeader page bank 3 v met).rd (faultSticky page (bankOf page bank)) =
       (clearBits (s.rd (faultSticky page (bankOf page bank))) (clearBits v met) &&& (Reg.faultMask page ||| 2 ^ 31))) ∧
   (∀ (page bank v met : Nat) (s : State), s.clocked = true → s.reaches page bank = false →
     (∃ t, Moves (.enableWrite page bank 4 v) s s t) ∧ ∃ t, Moves (.faultHandling page bank 3 v met) s s t) ∧
   (∀ (r m met : Nat) (s : State), s.clocked = true → r ≤ 64 → (∃ t, Moves (.wmCrossClear r m met) s
     (if r < 64 then s.landHeader 7 r 6 (m % 4) met else s.landHeader 8 0 6 (m % 4) met) t) ∧
     ∀ w b, w = sqMark r ∨ w = aqMark r →
       (s.clearCrossings w b).rd w.crossings = (if b then min 1 (s.rd w.crossings) else 0)))

/-! Faults. -/

/-- A fault source that errs (R45, R370, R371, R383): its sticky bit rises where it is enabled and not set, without another effect
where its action posts nothing; a disabled one changes nothing; MAP_ECC of a dirty page takes the card to the Safe state in any
case (R249, R374). The error spoils what it is found in: a cached map page is given up, and one that was dirty stands as failed, so
that its sectors end a READ (R249); a parity buffer is discarded (R280); a scratch word reads 0 (R386). INJECT acts in factory test
mode only and on assigned sources only, inverts header parity at bit 31 (R384), and a second time turns it back. `faultSourceError`,
`inject` and `hdrParity` complete under the conditions stated here. -/
def Obligations.FaultSources : Prop :=
  (∀ (page bank bit : Nat) (place : Option (Nat × Nat)) (s : State), s.clocked = true → bit < 16 →
    bitAt (Reg.faultMask page) bit = true →
    let b := bankOf page bank
    let v := s.rd (faultSticky page b)
    let forced := decide (page = 0x0C ∧ bit = 0) && place.any (fun p => s.mapDirty p.1 p.2)
    (s.reaches page bank = true →
      ∃ t, Moves (.faultSourceError page bank bit place) s ((s.report (page, bit) bank forced).errorAt page bit place) t) ∧
    (s.reaches page bank = false → exec (.faultSourceError page bank bit place) s = .next s) ∧
    (forced = false → forcedSource page bit = false → bitAt (s.rd (faultEnable page b)) bit = true → bitAt v bit = false →
      bitsOf (s.rd (faultAction page b)) (2 * bit) 2 ≠ 1 →
      s.report (page, bit) bank forced = s.wr (faultSticky page b) (v + 2 ^ bit)) ∧
    (forced = false → forcedSource page bit = false → bitAt (s.rd (faultEnable page b)) bit = false ∨ bitAt v bit = true →
      s.report (page, bit) bank forced = s) ∧
    (forced = true ∨ forcedSource page bit = true → (s.report (page, bit) bank forced).safe = true)) ∧
  (∀ (s : State) (i idx : Nat), Only [.flash] s (s.errorAt 0x0C 0 (some (i, idx))) ∧
    (s.errorAt 0x0C 0 (some (i, idx))).resident i idx = false ∧
    (∀ j k, (j, k) ≠ (i, idx) → (s.errorAt 0x0C 0 (some (i, idx))).resident j k = s.resident j k) ∧
    (s.mapDirty i idx = true → ∀ lba, lba / 1024 = idx → (s.errorAt 0x0C 0 (some (i, idx))).pageFailed i lba = true) ∧
    (s.mapDirty i idx = false → (s.errorAt 0x0C 0 (some (i, idx))).flash.map.failed = s.flash.map.failed)) ∧
  (∀ (s : State) (i n : Nat), Only [.flash] s (s.errorAt 0x0E 0 (some (i, n))) ∧
    ∀ v ∈ (s.errorAt 0x0E 0 (some (i, n))).flash.versions, v.sb = i → v.stripe = n → v.cached = false) ∧
  (∀ (s : State) (k n : Nat), storeWf s.regs = true → k < 8 →
    (s.errorAt 0x27 0 (some (k, n))).rd (Reg.DEBUG.SCRATCH.DATA.plus k) = 0 ∧
    (s.errorAt 0x27 0 (some (k, n))).regs = (s.wr (Reg.DEBUG.SCRATCH.DATA.plus k) 0).regs) ∧
  (∀ (page bank bit : Nat) (s : State), s.clocked = true →
    (s.ftm = true → injectable page bit = true → ∃ t x, Moves (.inject page bank bit) s x t ∧ x.rd Reg.TEST.INJECT.PAGE = page ∧
      x.rd Reg.TEST.INJECT.BIT = bit) ∧
    (s.ftm = false ∨ injectable page bit = false → exec (.inject page bank bit) s = .next s)) ∧
  (∀ (page bank : Nat) (s : State), 1 ≤ page → page ≤ 0x27 → s.chanAbsent page = false →
    (s.esc.hdrBad.contains (page, bankOf page bank, 1) = false →
      (s.inject page bank 31).esc.hdrBad = (page, bankOf page bank, 1) :: s.esc.hdrBad) ∧
    (s.esc.hdrBad.contains (page, bankOf page bank, 1) = true →
      (s.inject page bank 31).esc.hdrBad = s.esc.hdrBad.erase (page, bankOf page bank, 1))) ∧
  (∀ (page bank index : Nat) (s : State), s.clocked = true → page ≤ 0x28 → index ∈ [1, 4, 5, 7] →
    (s.chanAbsent page = false → ∃ t x, Moves (.hdrParity page bank index) s x t ∧
      x.esc.hdrBad.contains (page, bankOf page bank, index) = true ∧ Only [.esc] s x) ∧
    (s.chanAbsent page = true → exec (.hdrParity page bank index) s = .next s))

/-- Escalation (R372–R375, R379–R381): an at-once source enters the Safe state with kind 2; a source of action 2 opens a pending
escalation, and with COUNT at FAULT_GRACE enters the Safe state with kind 1; with none left a pending escalation closes; the Safe
state stands. FAULT_GRACE, the ALERT mask and FORCE take what is written, the mask not under the faults-only restriction; the
expiry row brings COUNT to FAULT_GRACE; pads that have differed from the latch report ALERT_READBACK. A staging sector in error
takes the card to the Safe state and ends its command, a READ or VERIFY UNCORRECTABLE at its offset, a WRITE or FW_STAGE SAFE_STATE (R219).
`graceExpiry`, `faultGraceWrite`, `alertControlWrite`, `alertReadback` and `stageEcc` complete under the conditions stated here. -/
def Obligations.EscalationRows : Prop :=
  (∀ (s : State) (x : Source), s.safe = false → firstSource (s.sources 3) = some x → s.escEval = s.enterSafe 2 x) ∧
  (∀ (s : State) (x : Source), s.safe = false → s.sources 3 = [] → firstSource (s.sources 2) = some x → s.escPending = true →
    (s.rd Reg.ESCALATE.FAULT_GRACE.CCLK ≤ s.esc.count → s.escEval = s.enterSafe 1 x) ∧
    (s.esc.count < s.rd Reg.ESCALATE.FAULT_GRACE.CCLK → s.escEval = s)) ∧
  (∀ s : State, s.safe = false → s.sources 3 = [] → s.sources 2 = [] → s.escPending = true →
    s.escEval.escPending = false ∧ s.escEval.esc.count = 0) ∧
  (∀ s : State, s.safe = true → s.escEval = s) ∧
  (∀ s : State, s.clocked = true → s.escPending = true → ∃ t, Moves .graceExpiry s
    { s with esc := { s.esc with count := max s.esc.count (s.rd Reg.ESCALATE.FAULT_GRACE.CCLK) } } t) ∧
  (∀ (v : Nat) (s : State), s.clocked = true → v < 2 ^ 32 → ∃ t, Moves (.faultGraceWrite v) s
    (s.wr Reg.ESCALATE.FAULT_GRACE.CCLK v) t ∧ t.rd Reg.ESCALATE.FAULT_GRACE.CCLK = v) ∧
  (∀ (m : Nat) (f : Bool) (s : State), s.clocked = true → m < 8 → ∃ t x, Moves (.alertControlWrite m f) s x t ∧
    t.rd Reg.ESCALATE.ALERT_CTRL.FORCE = bit01 f ∧
    (s.faultsOnly = false → t.rd Reg.ESCALATE.ALERT_MASK.MASK = m) ∧
    (s.faultsOnly = true → t.rd Reg.ESCALATE.ALERT_MASK.MASK = s.rd Reg.ESCALATE.ALERT_MASK.MASK)) ∧
  (∀ (p n : Bool) (s : State), s.clocked = true →
    ((p, n) = s.alertPads → ∃ t, exec (.alertReadback p n) s = .next t ∧ t.esc.pads = none ∧ t.esc.readback = 0 ∧ Only [.esc] s t) ∧
    ((p, n) ≠ s.alertPads → ∃ t x, Moves (.alertReadback p n) s x t ∧ x.esc.pads = some (p, n))) ∧
  (∀ (q : Nat) (s : State) (c : Cmd) (d : Desc), s.clocked = true → s.cmd? q = some c → s.desc? q = some d → c.done? = false →
    c.idMode = false → (∀ e ∈ s.cmds, e.q = q → e = c) →
    (s.report Src.DMA.STAGE_ECC).safe = true ∧
    (c.opcode = opRead ∨ c.opcode = opVerify → ∃ t, exec (.stageEcc q) s = .next t ∧
      Fixed t c stUncorrectable (completionFields c stUncorrectable d.offset)) ∧
    (c.opcode = opWrite ∨ c.opcode = opStage → ∃ t, exec (.stageEcc q) s = .next t ∧
      Fixed t c stSafeState (completionFields c stSafeState 0)))

/-! The option store, the fuses, the test port. -/

/-- The option store (R366): STAGE.LOAD copies what is in force into the staging buffer; COMMIT.GO is REJECTED unless the staged
copy checks, reserves nothing and follows in sequence, and otherwise writes the copy that is not in force; the end of the write
reads DONE or VERIFY_FAIL. `optionStageLoad`, `optionCommit` and `optionCommitDone` complete under the conditions stated here. -/
def Obligations.OptionStoreRows : Prop :=
  ∀ s : State, s.clocked = true →
    (∃ t, Moves .optionStageLoad s { s with opt := { s.opt with staging := s.opt.inForce } } t) ∧
    (s.opt.commit = none → s.commitAccepted = false → ∃ t, exec .optionCommit s = .next t ∧
      t.rd Reg.OPTION.COMMIT.RESULT = 2 ∧ t.opt = s.opt) ∧
    (s.opt.commit = none → s.commitAccepted = true → ∃ t, exec .optionCommit s = .next t ∧ t.rd Reg.OPTION.COMMIT.RESULT = 0 ∧
      t.opt.commit = some (decide (s.rd Reg.OPTION.IN_FORCE.COPY = 0), s.opt.staging)) ∧
    (s.opt.commit ≠ none → ∃ t, Moves .optionCommit s s t) ∧
    (∀ good toB m, s.opt.commit = some (toB, m) → ∃ t, exec (.optionCommitDone good) s = .next t ∧ t.opt.commit = none ∧
      t.rd Reg.OPTION.COMMIT.RESULT = (if good then 1 else 3) ∧ t.rd Reg.OPTION.OTHER.VALID = bit01 good ∧
      (good = true → (if toB then t.opt.copyB else t.opt.copyA) = m))

/-- Fuse programming (R478, R479): in factory test mode, in ID mode, with CONFIRM 0x5A, nothing running and the target in the
state that Table 21-1 requires, each GO starts its pulses, 256 HC for a bit; otherwise it is REJECTED with nothing programmed;
outside factory test mode nothing happens at all. Good pulses leave the bits blown and DONE. The watchdog's stop is a factory test
mode register. `fuseProgram`, `testSeal`, `keyProgram`, `keyRevoke`, `fuseProgramDone` and `wdStop` complete under the conditions stated
here. -/
def Obligations.FuseRows : Prop :=
  (∀ (i : Instr) (g : FuseTarget) (k : Nat) (s : State), s.clocked = true → s.ftm = true →
    ((∃ e c, e ≤ 359 ∧ c < 8 ∧ k < 256 ∧ i = .fuseProgram e c k ∧ g = .entry e c) ∨ (k < 256 ∧ i = .testSeal k ∧ g = .seal) ∨
      (∃ n, n < 4 ∧ k < 256 ∧ i = .keyProgram n k ∧ g = .key n s.keyDigest) ∨
      (∃ n, n < 4 ∧ k < 256 ∧ i = .keyRevoke n k ∧ g = .revoke n)) → s.fuses.busy = none →
    (s.link.fast = false → k = 0x5A → s.fuseReady g = true → ∃ t, exec i s = .next t ∧ t.fuses.busy = some g ∧
      t.fuses.pulse = 256 * g.bits ∧ t.rd g.result = 0 ∧ t.fuses.map = s.fuses.map ∧ t.fuses.keys = s.fuses.keys) ∧
    (s.link.fast = true ∨ k ≠ 0x5A ∨ s.fuseReady g = false → ∃ t, exec i s = .next t ∧ t.fuses = s.fuses ∧ t.rd g.result = 2)) ∧
  (∀ (e c k : Nat) (s : State), s.ftm = false → exec (.fuseProgram e c k) s = .next s ∧ exec (.testSeal k) s = .next s ∧
    exec (.keyProgram c k) s = .next s ∧ exec (.keyRevoke c k) s = .next s ∧ exec (.wdStop true) s = .next s) ∧
  (∀ (good : Bool) (g : FuseTarget) (s : State), s.clocked = true → s.fuses.busy = some g →
    ∃ t, exec (.fuseProgramDone good) s = .next t ∧ t.fuses.busy = none ∧ t.rd g.result = (if good then 1 else 3) ∧
      (good = true → t.fuses = { s.fuses.blow g (ones 257) with busy := none, pulse := 0 })) ∧
  (∀ (on : Bool) (s : State), s.clocked = true → s.ftm = true → ∃ t, Moves (.wdStop on) s (s.wr Reg.TEST.WD_CTRL.STOP (bit01 on)) t ∧
    t.rd Reg.TEST.WD_CTRL.STOP = bit01 on)

/-- The IDCODE register (R450): its fields are the low four bits of STEP, PART_NO, 0x6E5 and 1, and on stepping 1 it reads what
R450 gives for the three parts. `idcode` completes on a powered port. -/
def Obligations.IdcodeRegister : Prop :=
  (∀ s : State, s.fuses.part < 65536 → bitsOf s.idCode 28 4 = s.fuses.step % 16 ∧ bitsOf s.idCode 12 16 = s.fuses.part ∧
    bitsOf s.idCode 1 11 = 0x6E5 ∧ bitsOf s.idCode 0 1 = 1 ∧ s.idCode < 2 ^ 32) ∧
  (∀ s : State, s.fuses.step = 1 → (s.fuses.part = 0x9130 → s.idCode = 0x19130DCB) ∧
    (s.fuses.part = 0x9118 → s.idCode = 0x19118DCB) ∧ (s.fuses.part = 0x9104 → s.idCode = 0x19104DCB)) ∧
  (∀ s : State, s.tapPowered = true → ∃ t, exec .idcode s = .next t ∧ t.tap.captured = s.idCode)

/-- The test access port (Table 18-11, R449, R451): each instruction is put in force on a powered port; outside factory test mode
EXTEST, HIGHZ and CLAMP act as BYPASS; TRST_N selects IDCODE; SAMPLE/PRELOAD takes the levels of 1,080 cells, and captures 0 for the balls
of absent channels. Nothing but the port changes, and an unpowered port does nothing. `extest`, `samplePreload`, `highz`, `clamp`, `bypass`
and `trstN` complete under the conditions stated here. -/
def Obligations.TestPort : Prop :=
  (∀ (i : Instr) (k : TapInstr) (s : State), (i = .extest ∧ k = .extest) ∨ (i = .highz ∧ k = .highz) ∨ (i = .clamp ∧ k = .clamp) ∨
      (i = .idcode ∧ k = .idcode) ∨ (i = .bypass ∧ k = .bypass) ∨ (i = .trstN ∧ k = .idcode) →
    (s.tapPowered = true → ∃ t, exec i s = .next t ∧ Only [.tap] s t ∧ t.tap.instr =
      (if s.ftm = false ∧ (k = .extest ∨ k = .highz ∨ k = .clamp) then .bypass else k)) ∧
    (s.tapPowered = false → exec i s = .next s)) ∧
  (∀ (l : Nat) (s : State), (s.tapPowered = true → ∃ t, exec (.samplePreload l) s = .next t ∧ Only [.tap] s t ∧
      t.tap.instr = .sample ∧ t.tap.boundary = l % 2 ^ 1080 ∧
      ∀ e j, e < 360 → j < 3 → bitAt t.tap.captured (3 * e + j) = (bitAt l (3 * e + j) && !s.entryAbsent e)) ∧
    (s.tapPowered = false → exec (.samplePreload l) s = .next s))
end

