-- ==== Sys2Proof/Laws/Store.lean ====
section
/-!
SUPPORT. The sparse stores: reading after writing, and the canonical form kept by every store operation.
-/
namespace Sys2Proof.Machine

/-- Raising the floor keeps the form of a store whose keys lie above it. -/
theorem storeWfFrom_mono {lo hi : Nat} {m : Store} (h : storeWfFrom hi m = true) (hl : lo ≤ hi) : storeWfFrom lo m = true := by
  cases m with
  | nil => rfl
  | cons e m =>
    simp only [storeWfFrom, Bool.and_eq_true, decide_eq_true_eq] at h ⊢
    exact ⟨⟨Nat.le_trans hl h.1.1, h.1.2⟩, h.2⟩

/-- A key below the floor is not listed. -/
theorem storeRead_below {lo key : Nat} {m : Store} (h : storeWfFrom lo m = true) (hk : key < lo) : storeRead m key = 0 := by
  induction m generalizing lo with
  | nil => rfl
  | cons e m ih =>
    simp only [storeWfFrom, Bool.and_eq_true, decide_eq_true_eq] at h
    have hne : e.1 ≠ key := by omega
    simp only [storeRead, hne, if_false]
    exact ih h.2 (by omega)

/-- Selecting cells keeps the form. -/
theorem storeWfFrom_filter {lo : Nat} {m : Store} (p : Nat × Nat → Bool) (h : storeWfFrom lo m = true) :
    storeWfFrom lo (m.filter p) = true := by
  induction m generalizing lo with
  | nil => rfl
  | cons e m ih =>
    simp only [storeWfFrom, Bool.and_eq_true, decide_eq_true_eq] at h
    rw [List.filter_cons]
    split
    · simp only [storeWfFrom, Bool.and_eq_true, decide_eq_true_eq]
      exact ⟨h.1, ih h.2⟩
    · exact ih (storeWfFrom_mono h.2 (by omega))

/-- An erased key is not listed; the other keys read as before. -/
theorem storeRead_erase (m : Store) (k key : Nat) :
    storeRead (storeErase m k) key = if key = k then 0 else storeRead m key := by
  induction m with
  | nil => simp [storeErase, storeRead]
  | cons e m ih =>
    unfold storeErase at ih ⊢
    rw [List.filter_cons]
    by_cases h : e.1 = k
    · simp only [h, bne_self_eq_false, Bool.false_eq_true, if_false, ih, storeRead]
      split
      · rfl
      · rename_i hne
        simp [Ne.symm hne]
    · simp only [bne_iff_ne, ne_eq, h, not_false_iff, if_true, storeRead, ih]
      split
      · rename_i h2
        have : key ≠ k := fun h3 => h (h2.trans h3)
        simp [this]
      · rfl

/-- Inserting a key leaves every other key as it was. -/
theorem storeRead_insert_ne {k key : Nat} (v : Nat) (m : Store) (h : key ≠ k) :
    storeRead (storeInsert k v m) key = storeRead m key := by
  induction m with
  | nil => simp [storeInsert, storeRead, Ne.symm h]
  | cons e m ih =>
    simp only [storeInsert]
    split
    · simp [storeRead, Ne.symm h]
    · simp only [storeRead, ih]

/-- A key that the store did not list reads the value inserted for it. -/
theorem storeRead_insert_self {k v : Nat} {m : Store} (h : ∀ e ∈ m, e.1 ≠ k) : storeRead (storeInsert k v m) k = v := by
  induction m with
  | nil => simp [storeInsert, storeRead]
  | cons e m ih =>
    simp only [storeInsert]
    split
    · simp [storeRead]
    · have he : e.1 ≠ k := h e (List.mem_cons_self ..)
      simp only [storeRead, he, if_false]
      exact ih (fun x hx => h x (List.mem_cons_of_mem _ hx))

/-- What a store reads after a write: the value at the key, everything else as before. -/
@[simp] theorem storeRead_write (m : Store) (k v key : Nat) :
    storeRead (storeWrite m k v) key = if key = k then v else storeRead m key := by
  unfold storeWrite
  split
  · rename_i hv
    rw [storeRead_erase, hv]
  · split
    · rename_i hk
      rw [hk]
      refine storeRead_insert_self (fun e he => ?_)
      unfold storeErase at he
      simpa using (List.mem_filter.mp he).2
    · rename_i hk
      rw [storeRead_insert_ne _ _ hk, storeRead_erase, if_neg hk]

/-- Inserting a key above the floor that is not listed keeps the form. -/
theorem storeWfFrom_insert {lo k v : Nat} {m : Store} (h : storeWfFrom lo m = true) (hk : lo ≤ k) (hv : v ≠ 0)
    (hn : ∀ e ∈ m, e.1 ≠ k) : storeWfFrom lo (storeInsert k v m) = true := by
  induction m generalizing lo with
  | nil => simp [storeInsert, storeWfFrom, hk, hv]
  | cons e m ih =>
    simp only [storeWfFrom, Bool.and_eq_true, decide_eq_true_eq] at h
    have he : e.1 ≠ k := hn e (List.mem_cons_self ..)
    simp only [storeInsert]
    split
    · rename_i hlt
      simp only [storeWfFrom, Bool.and_eq_true, decide_eq_true_eq]
      exact ⟨⟨hk, hv⟩, ⟨by omega, h.1.2⟩, h.2⟩
    · simp only [storeWfFrom, Bool.and_eq_true, decide_eq_true_eq]
      exact ⟨h.1, ih h.2 (by omega) (fun x hx => hn x (List.mem_cons_of_mem _ hx))⟩

/-- A write keeps the canonical form. -/
theorem storeWf_write {m : Store} (k v : Nat) (h : storeWf m = true) : storeWf (storeWrite m k v) = true := by
  unfold storeWf storeWrite at *
  split
  · exact storeWfFrom_filter _ h
  · rename_i hv
    refine storeWfFrom_insert (storeWfFrom_filter _ h) (Nat.zero_le _) hv ?_
    intro e he
    simpa using (List.mem_filter.mp he).2

/-- A reset of a level keeps the canonical form. -/
theorem storeWf_clear {m : Store} (p : Nat → Bool) (h : storeWf m = true) : storeWf (regClear m p) = true :=
  storeWfFrom_filter _ h

/-- A field write keeps the canonical form. -/
theorem storeWf_regWrite {m : Store} (f : Field) (v : Nat) (h : storeWf m = true) : storeWf (regWrite m f v) = true :=
  storeWf_write _ _ h

/-- A 16-bit write keeps every value within 16 bits. -/
theorem store16_write {m : Store} {k v : Nat} (h : store16 m = true) (hv : v < 65536) : store16 (storeWrite m k v) = true := by
  have hi : ∀ l : Store, store16 l = true → store16 (storeInsert k v l) = true := by
    intro l
    induction l with
    | nil => intro _; simp [storeInsert, store16, hv]
    | cons e l ih =>
      intro hl
      simp only [store16, List.all_cons, Bool.and_eq_true] at hl ih ⊢
      simp only [storeInsert]
      split
      · simp [hv, hl]
      · simp [hl, ih hl.2]
  have he : store16 (storeErase m k) = true := by
    simp only [store16, List.all_eq_true] at h ⊢
    intro e hm
    exact h e (List.mem_filter.mp hm).1
  unfold storeWrite
  split
  · exact he
  · exact hi _ he

/-- A field that has just been written reads the value, cut to the field's bits. -/
theorem regRead_write_self (r : Store) (f : Field) (v : Nat) : regRead (regWrite r f v) f = v &&& f.mask := by
  simp [regRead, regWrite]

/-- A write of one field leaves every field of another key as it was. -/
theorem regRead_write_ne (r : Store) {f g : Field} (v : Nat) (h : g.key ≠ f.key) :
    regRead (regWrite r f v) g = regRead r g := by
  simp [regRead, regWrite, h]

end Sys2Proof.Machine
end

