-- ==== Sys2Proof/Laws/Ends.lean ====
section
/-!
SUPPORT. What the end of a step leaves alone, operation by operation, apart from the parts (Laws/Agree).
-/
namespace Sys2Proof.Machine
open Sys2Proof.Safety

/-! Keys of fields. -/

theorem Field.keyIndex_key (f : Field) : keyIndex f.key = f.index % 32 := by
  unfold keyIndex Field.key levelCode
  cases f.level <;> simp only <;> omega

theorem Field.keyPage_key (f : Field) : keyPage f.key = f.page % 64 := by
  unfold keyPage Field.key levelCode
  cases f.level <;> simp only <;> omega

theorem attnSticky_endKey (p b : Nat) : endKey (attnSticky p b).key = true := by
  unfold endKey
  rw [Field.keyIndex_key]
  simp [attnSticky, hdrField]

theorem faultSticky_endKey (p b : Nat) : endKey (faultSticky p b).key = true := by
  unfold endKey
  rw [Field.keyIndex_key]
  simp [faultSticky, hdrField]

/-- A field's key is one that the end of a step may write. -/
theorem endKey_of {f : Field} {p i : Nat} (hp : f.page = p) (hi : f.index = i)
    (h : [(0x02, 15), (0x04, 13), (0x07, 11), (0x07, 12), (0x07, 13), (0x08, 13), (0x08, 14), (0x24, 9), (0x24, 11),
     (0x27, 9)].contains (p % 64, i % 32) = true) : endKey f.key = true := by
  unfold endKey
  rw [Field.keyIndex_key, Field.keyPage_key, hp, hi, h, Bool.or_true]

/-! What the end of a step leaves alone, apart from the parts. -/

structure Tail (b t : State) : Prop where
  link : linkRest t.link = linkRest b.link
  wire : b.wire <+: t.wire
  regs : ∀ k, endKey k = false → storeRead t.regs k = storeRead b.regs k
  cells : ∀ n, n ≠ 0 → n ≠ 24 → n ≠ 25 → t.cell n = b.cell n
  cmds : ∀ c ∈ t.cmds, c.done? = false → ∃ d ∈ b.cmds, Goes d c
  descs : ∀ d ∈ t.descs, d.st ≠ .ending → d ∈ b.descs
  origs : t.origs.map plain = b.origs.map plain

theorem Tail.refl (s : State) : Tail s s :=
  ⟨rfl, List.prefix_rfl, fun _ _ => rfl, fun _ _ _ _ => rfl, fun c h _ => ⟨c, h, .inl rfl⟩, fun _ h _ => h, rfl⟩

theorem Tail.upd {b s t : State} (h : Tail b s) (hl : linkRest t.link = linkRest s.link) (hr : t.regs = s.regs)
    (hc : t.crust = s.crust) (hm : t.cmds = s.cmds) (hd : t.descs = s.descs) (ho : t.origs = s.origs)
    (hw : t.wire = s.wire) : Tail b t :=
  ⟨hl.trans h.link, hw ▸ h.wire, fun k hk => hr ▸ h.regs k hk, fun n a b c => by
    have := h.cells n a b c
    simpa [State.cell, hc] using this, fun c => hm ▸ h.cmds c, fun d => hd ▸ h.descs d, ho ▸ h.origs⟩

theorem foldl_tail {b : State} {α : Type} {f : State → α → State} {s : State} {l : List α} (h : Tail b s)
    (hf : ∀ s x, Tail b s → Tail b (f s x)) : Tail b (l.foldl f s) := by
  induction l generalizing s with
  | nil => exact h
  | cons a l ih => exact ih (hf _ _ h)

theorem storeRead_regWrite_ne (r : Store) (f : Field) (v k : Nat) (h : k ≠ f.key) :
    storeRead (regWrite r f v) k = storeRead r k := by
  unfold regWrite
  rw [storeRead_write, if_neg h]

theorem State.wr_tail {b s : State} {f : Field} {v : Nat} (hf : endKey f.key = true) (hs : Tail b s) :
    Tail b (s.wr f v) :=
  ⟨hs.link, hs.wire, fun k hk => by
    have hne : k ≠ f.key := fun e => by rw [e, hf] at hk; cases hk
    exact (storeRead_regWrite_ne _ _ _ _ hne).trans (hs.regs k hk), hs.cells, hs.cmds, hs.descs, hs.origs⟩

theorem State.bump_tail {b s : State} {f : Field} {n : Nat} (hf : endKey f.key = true) (hs : Tail b s) :
    Tail b (s.bump f n) := State.wr_tail hf hs

theorem State.setCell_tail {b s : State} {n v : Nat} (hn : n = 0 ∨ n = 24 ∨ n = 25) (hs : Tail b s) :
    Tail b (s.setCell n v) := by
  unfold State.setCell
  split
  · refine ⟨hs.link, hs.wire, hs.regs, fun k h0 h1 h2 => ?_, hs.cmds, hs.descs, hs.origs⟩
    have hne : k ≠ n := by omega
    have := hs.cells k h0 h1 h2
    simp only [State.cell] at *
    rw [storeRead_write, if_neg hne, this]
  · exact hs

theorem State.cellBit_tail {b s : State} {n i : Nat} {v : Bool} (hn : n = 0 ∨ n = 24 ∨ n = 25) (hs : Tail b s) :
    Tail b (s.cellBit n i v) := State.setCell_tail hn hs

theorem mem_mapIf {α : Type} {p : α → Bool} {f : α → α} {l : List α} {x : α} (h : x ∈ mapIf p f l) :
    (x ∈ l ∧ p x = false) ∨ ∃ y ∈ l, p y = true ∧ x = f y := by
  induction l with
  | nil => cases h
  | cons a l ih =>
    unfold mapIf at h
    rcases List.mem_cons.mp h with e | e
    · by_cases hp : p a = true
      · exact .inr ⟨a, List.mem_cons_self, hp, by rw [e, if_pos hp]⟩
      · rw [if_neg hp] at e
        exact .inl ⟨e ▸ List.mem_cons_self, by rw [e]; simpa using hp⟩
    · rcases ih e with ⟨h1, h2⟩ | ⟨y, h1, h2, h3⟩
      · exact .inl ⟨List.mem_cons_of_mem _ h1, h2⟩
      · exact .inr ⟨y, List.mem_cons_of_mem _ h1, h2, h3⟩

/-- A change of commands that fixes their status, or opens their data phase. -/
theorem State.setCmd_tail {b s : State} {q : Nat} {f : Cmd → Cmd}
    (hf : ∀ c, (f c).done? = false → f c = c ∨ c.phase = .asking ∧ f c = { c with phase := .data }) (hs : Tail b s) :
    Tail b (s.setCmd q f) :=
  ⟨hs.link, hs.wire, hs.regs, hs.cells, (fun c hc hd => by
    rcases mem_mapIf hc with ⟨h, _⟩ | ⟨y, hy, _, e⟩
    · exact hs.cmds c h hd
    · rw [e] at hd ⊢
      rcases hf y hd with h | ⟨hp, h⟩
      · rw [h] at hd ⊢
        exact hs.cmds y hy hd
      · have hyd : y.done? = false := by unfold Cmd.done?; rw [hp]; rfl
        obtain ⟨d, hdm, h' | ⟨hpd, h'⟩⟩ := hs.cmds y hy hyd
        · subst h'
          exact ⟨y, hdm, .inr ⟨hp, h⟩⟩
        · rw [h'] at hp; cases hp), hs.descs, hs.origs⟩

theorem State.fixCmd_tail {b s : State} {q : Nat} {f : Cmd → Cmd} (hf : ∀ c, (f c).done? = true) (hs : Tail b s) :
    Tail b (s.setCmd q f) :=
  State.setCmd_tail (fun c h => by rw [hf c] at h; cases h) hs

theorem State.emit_tail {b s : State} {x : Sent} (hs : Tail b s) : Tail b (s.emit x) :=
  ⟨hs.link, hs.wire.trans (List.prefix_append _ _), hs.regs, hs.cells, hs.cmds, hs.descs, hs.origs⟩

theorem State.loseEntry_tail {b s : State} {ring : Nat} (hs : Tail b s) : Tail b (s.loseEntry ring) := by
  unfold State.loseEntry
  refine State.bump_tail ?_ (State.wr_tail ?_ hs)
  · unfold lostCount; split
    · exact endKey_of rfl rfl rfl
    · exact endKey_of rfl rfl rfl
  · unfold lostBit; split
    · exact endKey_of rfl rfl rfl
    · exact endKey_of rfl rfl rfl

theorem State.placeEntry_tail {b s : State} {e : AttnEntry} (hs : Tail b s) : Tail b (s.placeEntry e) := by
  unfold State.placeEntry
  split
  · exact hs
  · extract_lets v0 v1 v2 v3
    have hv1 : Tail b v1 := Tail.upd hs rfl rfl rfl rfl rfl rfl rfl
    have hv3 : Tail b v3 := Tail.upd hv1 rfl rfl rfl rfl rfl rfl rfl
    split
    · split
      · exact State.wr_tail (endKey_of rfl rfl rfl) hv3
      · exact hv3
    · split
      · exact State.loseEntry_tail (Tail.upd hv1 rfl rfl rfl rfl rfl rfl rfl)
      · exact State.loseEntry_tail hv1

/-- The registers of a watermark that a crossing writes. -/
def Watermark.atEnd (w : Watermark) : Prop := endKey w.crossings.key = true ∧ endKey w.sticky.key = true

theorem aqMark_atEnd (ring : Nat) : (aqMark ring).atEnd := by
  unfold aqMark Watermark.atEnd
  split
  · exact ⟨endKey_of rfl rfl rfl, attnSticky_endKey _ _⟩
  · exact ⟨endKey_of rfl rfl rfl, attnSticky_endKey _ _⟩

theorem State.cross_tail {b s : State} {w : Watermark} {before after ring : Nat} (hw : w.atEnd) (hs : Tail b s) :
    Tail b (s.cross w before after ring).1 := by
  unfold State.cross
  extract_lets v0 v1 v2 v3 v4
  have hv1 : Tail b v1 := State.bump_tail hw.1 hs
  have hv3 : Tail b v3 := State.wr_tail hw.2 hv1
  split
  · split
    · exact hv1
    · exact hv3
  · exact hs

theorem State.attnRose_tail {b s : State} {ring before : Nat} (hs : Tail b s) : Tail b (s.attnRose ring before) := by
  unfold State.attnRose
  extract_lets r
  have hr : Tail b r.1 := State.cross_tail (aqMark_atEnd _) hs
  clear_value r
  split
  · exact State.placeEntry_tail hr
  · exact hr

theorem State.post_tail {b s : State} {e : AttnEntry} (hs : Tail b s) : Tail b (s.post e) :=
  State.attnRose_tail (State.placeEntry_tail hs)

theorem State.endEdge_tail {b s : State} (hs : Tail b s) : Tail b s.endEdge := Tail.upd hs rfl rfl rfl rfl rfl rfl rfl

theorem State.raise_tail {b s : State} {ev : Nat × Nat} {bank : Nat} (hs : Tail b s) : Tail b (s.raise ev bank) := by
  unfold State.raise
  extract_lets v0 v1 v2
  have hv2 : Tail b v2 := State.wr_tail (attnSticky_endKey _ _) hs
  split
  · exact hs
  · split
    · exact State.post_tail hv2
    · exact hv2

theorem State.tally_tail {b s : State} {f : Field} {n : Nat} (hf : endKey f.key = true) (hs : Tail b s) :
    Tail b (s.tally f n) := by
  unfold State.tally
  extract_lets v0
  have hv0 : Tail b v0 := State.bump_tail hf hs
  split
  · exact State.raise_tail hv0
  · exact hv0

theorem State.enqueue_tail {b s : State} {f : UpFrame} (hs : Tail b s) : Tail b (s.enqueue f) :=
  Tail.upd hs rfl rfl rfl rfl rfl rfl rfl

theorem State.owe_tail {b s : State} {c : Cmd} (hs : Tail b s) : Tail b (s.owe c) := by
  unfold State.owe
  split
  · exact hs
  · exact State.enqueue_tail hs

theorem State.answerAborts_tail {b s : State} {c : Cmd} (hs : Tail b s) : Tail b (s.answerAborts c) := by
  unfold State.answerAborts
  refine foldl_tail hs ?_
  intro u0 x1 h2
  split
  · split
    · exact h2
    · extract_lets l v1 v2
      have hv1 : Tail b v1 := Tail.upd h2 rfl rfl rfl rfl rfl rfl rfl
      exact State.owe_tail (State.fixCmd_tail (fun _ => rfl) hv1)
  · exact h2

theorem State.leave_tail {b s : State} {q : Nat} (hs : Tail b s) : Tail b (s.leave q) := by
  unfold State.leave
  split
  · exact hs
  · extract_lets v0 v1 v2
    have hv1 : Tail b v1 :=
      ⟨hs.link, hs.wire, hs.regs, hs.cells, fun c hc => hs.cmds c (List.mem_of_mem_filter hc), hs.descs, hs.origs⟩
    have hv2 : Tail b v2 := by
      unfold v2
      split
      · exact State.bump_tail (endKey_of rfl rfl rfl) hv1
      · exact hv1
    exact State.answerAborts_tail hv2

theorem map_mapIf {α β : Type} {p : α → Bool} {f : α → α} {g : α → β} (h : ∀ x, g (f x) = g x) (l : List α) :
    (mapIf p f l).map g = l.map g := by
  induction l with
  | nil => rfl
  | cons a l ih =>
    unfold mapIf
    split
    · rw [List.map_cons, List.map_cons, h, ih]
    · rw [List.map_cons, List.map_cons, ih]

theorem State.spendNonce_tail {b s : State} {c : Cmd} (hs : Tail b s) : Tail b (s.spendNonce c) := by
  unfold State.spendNonce
  split
  · refine ⟨hs.link, hs.wire, hs.regs, hs.cells, hs.cmds, hs.descs, Eq.trans ?_ hs.origs⟩
    exact map_mapIf (f := fun (o : Orig) => { o with nonce := none }) (g := plain) (fun _ => rfl) _
  · exact hs

theorem State.complete_tail {b s : State} {q status result data dataLen : Nat} (hs : Tail b s) :
    Tail b (s.complete q status result data dataLen) := by
  unfold State.complete
  split
  · exact hs
  · split
    · exact hs
    · extract_lets v0 v1 v2 v3 v4 v5 v6 v7 v8
      have hv0 : Tail b v0 := State.spendNonce_tail hs
      have hv4 : Tail b v4 := State.fixCmd_tail (fun _ => by
        unfold v3
        split <;> rfl) hv0
      have hv5 : Tail b v5 :=
        ⟨hv4.link, hv4.wire, hv4.regs, hv4.cells, hv4.cmds, (fun d hd hne => by
          rcases mem_mapIf hd with ⟨h, _⟩ | ⟨y, _, _, e⟩
          · exact hv0.descs d h hne
          · exact absurd (by rw [e]) hne), hv4.origs⟩
      split
      · exact State.leave_tail (State.emit_tail (Tail.upd hv5 rfl rfl rfl rfl rfl rfl rfl))
      · exact State.owe_tail (Tail.upd hv5 rfl rfl rfl rfl rfl rfl rfl)

theorem State.transmit_tail {b s : State} {f : UpFrame} (hs : Tail b s) : Tail b (s.transmit f) :=
  Tail.upd (State.emit_tail hs) rfl rfl rfl rfl rfl rfl rfl

theorem State.sendLinkctl_tail {b s : State} (hs : Tail b s) : Tail b s.sendLinkctl :=
  Tail.upd (State.emit_tail hs) rfl rfl rfl rfl rfl rfl rfl

theorem State.sendHead_tail {b s : State} (hs : Tail b s) : Tail b s.sendHead := by
  unfold State.sendHead
  split
  · exact hs
  · extract_lets v0 v1 v2 v3
    have hv1 : Tail b v1 := State.transmit_tail hs
    have hv3 : Tail b v3 := Tail.upd hv1 rfl rfl rfl rfl rfl rfl rfl
    split
    · exact State.leave_tail hv3
    · split
      · refine State.setCmd_tail (fun c _ => ?_) hv3
        split
        · rename_i h
          exact .inr ⟨eq_of_beq h, rfl⟩
        · exact .inl rfl
      · exact hv3

theorem State.postCompletion_tail {b s : State} {c : Cmd} (hs : Tail b s) : Tail b (s.postCompletion c) := by
  unfold State.postCompletion State.placeCompletion
  extract_lets v0 v1
  refine State.attnRose_tail ?_
  split
  · exact State.fixCmd_tail (fun _ => rfl) hs
  · exact State.leave_tail (State.tally_tail (endKey_of rfl rfl rfl) (State.placeEntry_tail hs))

theorem State.flush_tail {b : State} {n : Nat} {s : State} (hs : Tail b s) : Tail b (State.flush n s) := by
  induction n generalizing s with
  | zero => exact hs
  | succ n ih =>
    unfold State.flush
    split
    · split
      · exact ih (State.sendHead_tail hs)
      · exact hs
    · split
      · split
        · exact ih (State.postCompletion_tail hs)
        · exact hs
      · exact hs

theorem State.pump_tail {b s : State} (hs : Tail b s) : Tail b s.pump := by
  unfold State.pump
  extract_lets v0
  have hv0 : Tail b v0 := State.flush_tail hs
  split
  · exact State.sendLinkctl_tail hv0
  · exact hv0

theorem State.latchWake_tail {b s : State} {cause : Nat} (hs : Tail b s) : Tail b (s.latchWake cause) :=
  State.cellBit_tail (.inl rfl) (State.setCell_tail (.inr (.inl rfl)) hs)

theorem State.endDataPhase_tail {b s : State} {q : Nat} (hs : Tail b s) : Tail b (s.endDataPhase q) := by
  unfold State.endDataPhase
  split
  · split
    · exact hs
    · exact State.complete_tail hs
  · exact hs

theorem State.endDataPhases_tail {b s : State} (hs : Tail b s) : Tail b s.endDataPhases := by
  unfold State.endDataPhases
  exact foldl_tail hs fun _ _ h => State.endDataPhase_tail h

theorem State.enterSafe_tail {b s : State} {kind : Nat} {x : Source} (hs : Tail b s) : Tail b (s.enterSafe kind x) := by
  unfold State.enterSafe
  split
  · exact hs
  · extract_lets v0 v1 v2 v3 v4 v5 v6 v7
    have hv1 : Tail b v1 := State.wr_tail (endKey_of rfl rfl rfl) (State.wr_tail (endKey_of rfl rfl rfl) hs)
    have hv3 : Tail b v3 := Tail.upd hv1 rfl rfl rfl rfl rfl rfl rfl
    have hv7 : Tail b v7 := State.wr_tail (endKey_of rfl rfl rfl) (State.wr_tail (endKey_of rfl rfl rfl)
      (State.wr_tail (endKey_of rfl rfl rfl) (State.wr_tail (endKey_of rfl rfl rfl) hv3)))
    exact State.endDataPhases_tail (State.bump_tail (endKey_of rfl rfl rfl) hv7)

theorem State.headerParity_tail {b s : State} {page bank : Nat} (hs : Tail b s) : Tail b (s.headerParity page bank) :=
  State.enterSafe_tail (State.wr_tail (faultSticky_endKey _ _) hs)

theorem State.escEval_tail {b s : State} (hs : Tail b s) : Tail b s.escEval := by
  unfold State.escEval
  split
  · exact hs
  · split
    · exact State.enterSafe_tail hs
    · split
      · extract_lets v0 v1 v2
        have hv0 : Tail b v0 := State.wr_tail (endKey_of rfl rfl rfl) hs
        have hv2 : Tail b v2 := by
          unfold v2
          split
          · exact hs
          · exact State.raise_tail (Tail.upd hv0 rfl rfl rfl rfl rfl rfl rfl)
        split
        · exact State.enterSafe_tail hv2
        · exact hv2
      · split
        · refine State.bump_tail (endKey_of rfl rfl rfl) (State.raise_tail ?_)
          extract_lets v3 v4
          have hv3 : Tail b v3 := State.wr_tail (endKey_of rfl rfl rfl) hs
          exact Tail.upd hv3 rfl rfl rfl rfl rfl rfl rfl
        · exact hs

theorem State.writeAlert_tail {b s : State} {causes : Nat} (hs : Tail b s) : Tail b (s.writeAlert causes) := by
  unfold State.writeAlert
  extract_lets v0 v1
  have hv0 : Tail b v0 := State.cellBit_tail (.inl rfl) (State.setCell_tail (.inr (.inr rfl)) hs)
  exact Tail.upd hv0 rfl rfl rfl rfl rfl rfl rfl

theorem State.settle_tail {b s : State} (hs : Tail b s) : Tail b s.settle := by
  unfold State.settle
  split
  · have h1 : Tail b s.headerCheck := by
      unfold State.headerCheck
      exact foldl_tail hs fun _ _ h => State.headerParity_tail h
    have h2 : Tail b s.headerCheck.relatchAlarm := by
      unfold State.relatchAlarm
      split
      · exact State.latchWake_tail h1
      · exact h1
    have h3 := State.endEdge_tail (State.pump_tail (State.endEdge_tail (State.escEval_tail h2)))
    unfold State.alertUpdate
    split
    · exact State.writeAlert_tail h3
    · exact h3
  · exact hs

end Sys2Proof.Machine
end

