-- ==== Sys2Proof/Laws/Fixed.lean ====
section
/-!
SUPPORT. A status that is fixed stands (R116): each operation of the end of a step keeps it, and completing a command sets it.
-/
namespace Sys2Proof.Machine
open Sys2Proof.Safety

/-- A command that stands settled with a status and a result for `c`. -/
def Settled (d c : Cmd) (st r : Nat) : Prop :=
  d.orig = c.orig ∧ d.tag = c.tag ∧ d.opcode = c.opcode ∧ d.done? = true ∧ d.status = st ∧ d.result = r

/-- The ID-mode response carries the status for `c`. -/
def Answers (t : State) (c : Cmd) (st r : Nat) : Prop :=
  ∃ a, t.link.idResponse = some a ∧ a.orig = c.orig ∧ a.tag = c.tag ∧ a.opcode = c.opcode ∧ a.status = st ∧ a.body = r

/-- `c`'s COMPLETION has left the card or stands on an attention ring. -/
def Gone (t : State) (c : Cmd) (st r : Nat) : Prop :=
  (∃ f ∈ t.link.unacked, Carries f c st r) ∨
  (∃ e ∈ t.attn, e.kind = .completion ∧ e.order = c.q ∧ e.tag = c.tag ∧ e.b1 = st ∧ e.b2 = c.orig ∧ e.b3 = c.opcode)

/-- The status stands, and nothing that is still to be sent says otherwise. A response of ID mode counts for a command of ID
mode. -/
def Held (c : Cmd) (st r : Nat) (t : State) : Prop :=
  (c.idMode = true ∧ Answers t c st r) ∨
  ((∀ d ∈ t.cmds, d.q = c.q → Settled d c st r) ∧
   (∀ f ∈ t.link.txQueue, f.q = c.q → f.ftype = .completion → Carries f c st r) ∧
   ((∃ d ∈ t.cmds, d.q = c.q) ∨ Gone t c st r))

theorem Held.fixed {c : Cmd} {st r : Nat} {t : State} (h : Held c st r t) : Fixed t c st r := by
  rcases h with h | ⟨h1, _, ⟨d, hd, hq⟩ | h3 | h4⟩
  · exact .inr (.inr (.inl h.2))
  · obtain ⟨a1, a2, a3, a4, a5, a6⟩ := h1 d hd hq
    exact .inl ⟨d, hd, hq, a1, a2, a3, a4, a5, a6⟩
  · exact .inr (.inl h3)
  · exact .inr (.inr (.inr h4))

theorem Held.upd {c : Cmd} {st r : Nat} {s t : State} (h : Held c st r s) (hi : t.link.idResponse = s.link.idResponse)
    (hm : t.cmds = s.cmds) (hq : ∀ f ∈ t.link.txQueue, f ∈ s.link.txQueue) (hu : t.link.unacked = s.link.unacked)
    (ha : t.attn = s.attn) : Held c st r t := by
  rcases h with ⟨k, a, h⟩ | ⟨h1, h2, h3⟩
  · exact .inl ⟨k, a, hi ▸ h⟩
  · refine .inr ⟨hm ▸ h1, fun f hf => h2 f (hq f hf), ?_⟩
    unfold Gone at *
    rw [hm, hu, ha]
    exact h3

theorem foldl_held {c : Cmd} {st r : Nat} {α : Type} {f : State → α → State} {s : State} {l : List α} (h : Held c st r s)
    (hf : ∀ s x, Held c st r s → Held c st r (f s x)) : Held c st r (l.foldl f s) := by
  induction l generalizing s with
  | nil => exact h
  | cons a l ih => exact ih (hf _ _ h)

theorem State.wr_held {c : Cmd} {st r : Nat} {s : State} {f : Field} {v : Nat} (hs : Held c st r s) : Held c st r (s.wr f v) :=
  Held.upd hs rfl rfl (fun _ h => h) rfl rfl

theorem State.bump_held {c : Cmd} {st r : Nat} {s : State} {f : Field} {n : Nat} (hs : Held c st r s) :
    Held c st r (s.bump f n) := State.wr_held hs

theorem State.setCell_held {c : Cmd} {st r : Nat} {s : State} {n v : Nat} (hs : Held c st r s) :
    Held c st r (s.setCell n v) := by
  unfold State.setCell
  split
  · exact Held.upd hs rfl rfl (fun _ h => h) rfl rfl
  · exact hs

/-- Completion entries are never the ones that a full ring loses (R203). -/
theorem mem_dropOldest {ring : Nat} {l : List AttnEntry} {e : AttnEntry} (h : e ∈ l) (hk : e.kind = .completion) :
    e ∈ dropOldest ring l := by
  induction l with
  | nil => exact h
  | cons a l ih =>
    unfold dropOldest
    split
    · rename_i hc
      rcases List.mem_cons.mp h with rfl | h
      · rw [hk] at hc; simp at hc
      · exact h
    · rcases List.mem_cons.mp h with rfl | h
      · exact List.mem_cons_self
      · exact List.mem_cons_of_mem _ (ih h)

/-- An attention entry posts the same completion as another. -/
def SameEntry (e x : AttnEntry) : Prop :=
  x.kind = e.kind ∧ x.order = e.order ∧ x.tag = e.tag ∧ x.b1 = e.b1 ∧ x.b2 = e.b2 ∧ x.b3 = e.b3

theorem SameEntry.refl (e : AttnEntry) : SameEntry e e := ⟨rfl, rfl, rfl, rfl, rfl, rfl⟩

/-- Completions that were posted stand on. -/
theorem Held.attn {c : Cmd} {st r : Nat} {s t : State} (h : Held c st r s) (hl : t.link = s.link) (hm : t.cmds = s.cmds)
    (ha : ∀ e ∈ s.attn, e.kind = .completion → ∃ x ∈ t.attn, SameEntry e x) : Held c st r t := by
  rcases h with ⟨k, a, h⟩ | ⟨h1, h2, h3⟩
  · exact .inl ⟨k, a, hl ▸ h⟩
  · refine .inr ⟨hm ▸ h1, hl ▸ h2, ?_⟩
    rcases h3 with h3 | ⟨f, hf⟩ | ⟨e, he, hk, h4, h5, h6, h7, h8⟩
    · exact .inl (hm ▸ h3)
    · exact .inr (.inl ⟨f, hl ▸ hf⟩)
    · obtain ⟨x, hx, k1, k2, k3, k4, k5, k6⟩ := ha e he hk
      exact .inr (.inr ⟨x, hx, k1.trans hk, k2.trans h4, k3.trans h5, k4.trans h6, k5.trans h7, k6.trans h8⟩)

/-! The order of an edge's entries. -/

theorem mem_insertAttn {e x : AttnEntry} {l : List AttnEntry} (h : x = e ∨ x ∈ l) : x ∈ insertAttn e l := by
  induction l with
  | nil => rcases h with rfl | h; exacts [List.mem_cons_self, absurd h List.not_mem_nil]
  | cons a l ih =>
    unfold insertAttn
    split
    · rcases h with rfl | h; exacts [List.mem_cons_self, List.mem_cons_of_mem _ h]
    · rcases h with rfl | h
      · exact List.mem_cons_of_mem _ (ih (.inl rfl))
      · rcases List.mem_cons.mp h with rfl | h
        · exact List.mem_cons_self
        · exact List.mem_cons_of_mem _ (ih (.inr h))

theorem mem_orderEntries {x : AttnEntry} {l : List AttnEntry} (h : x ∈ l) : x ∈ orderEntries l := by
  unfold orderEntries
  suffices ∀ acc : List AttnEntry, x ∈ acc ∨ x ∈ l → x ∈ l.foldl (fun acc e => insertAttn e acc) acc from this [] (.inr h)
  clear h
  induction l with
  | nil => intro acc h; exact h.elim id (fun h => absurd h List.not_mem_nil)
  | cons a l ih =>
    intro acc h
    refine ih _ ?_
    rcases h with h | h
    · exact .inl (mem_insertAttn (.inr h))
    · rcases List.mem_cons.mp h with rfl | h
      · exact .inl (mem_insertAttn (.inl rfl))
      · exact .inr h

theorem mem_takeSeqs {e : AttnEntry} {l : List AttnEntry} (h : e ∈ l) :
    ∀ l' : List AttnEntry, ∃ x ∈ takeSeqs l' l, SameEntry e x := by
  induction l with
  | nil => cases h
  | cons a l ih =>
    intro l'
    unfold takeSeqs
    rcases List.mem_cons.mp h with rfl | h
    · split
      · exact ⟨_, List.mem_cons_self, .refl _⟩
      · exact ⟨_, List.mem_cons_self, .refl _⟩
    · split
      · obtain ⟨x, hx, k⟩ := ih h (l'.erase _)
        exact ⟨x, List.mem_cons_of_mem _ hx, k⟩
      · obtain ⟨x, hx, k⟩ := ih h l'
        exact ⟨x, List.mem_cons_of_mem _ hx, k⟩

/-- The end of an edge loses no entry. -/
theorem State.endEdge_mem {s : State} {e : AttnEntry} (h : e ∈ s.attn) : ∃ x ∈ s.endEdge.attn, SameEntry e x := by
  unfold State.endEdge
  by_cases hf : e.fresh = true
  · obtain ⟨x, hx, k⟩ := mem_takeSeqs (mem_orderEntries (List.mem_filter.mpr ⟨h, hf⟩)) (s.attn.filter (fun e => e.fresh))
    exact ⟨x, List.mem_append_right _ hx, k⟩
  · exact ⟨e, List.mem_append_left _ (List.mem_filter.mpr ⟨h, by simp [hf]⟩), .refl e⟩

theorem State.endEdge_held {c : Cmd} {st r : Nat} {s : State} (hs : Held c st r s) : Held c st r s.endEdge :=
  Held.attn hs rfl rfl fun _ h _ => State.endEdge_mem h

theorem State.loseEntry_held {c : Cmd} {st r : Nat} {s : State} {ring : Nat} (hs : Held c st r s) :
    Held c st r (s.loseEntry ring) := State.bump_held (State.wr_held hs)

theorem State.placeEntry_held {c : Cmd} {st r : Nat} {s : State} {e : AttnEntry} (hs : Held c st r s) :
    Held c st r (s.placeEntry e) := by
  unfold State.placeEntry
  split
  · exact hs
  · extract_lets v0 v1 v2 v3
    have hv1 : Held c st r v1 := Held.upd hs rfl rfl (fun _ h => h) rfl rfl
    have hv3 : Held c st r v3 := Held.attn hv1 rfl rfl (fun e h _ => ⟨e, List.mem_append_left _ h, .refl e⟩)
    split
    · split
      · exact State.wr_held hv3
      · exact hv3
    · split
      · exact State.loseEntry_held (Held.attn hv1 rfl rfl (fun e h hk => ⟨e, List.mem_append_left _ (mem_dropOldest h hk), .refl e⟩))
      · exact State.loseEntry_held hv1

/-- A completion that is placed stands on its ring (R131, R203). -/
theorem State.placeEntry_mem {s : State} {e : AttnEntry} (hk : e.kind = .completion) :
    { e with seq := storeRead s.seqs e.ring, fresh := true } ∈ (s.placeEntry e).attn := by
  unfold State.placeEntry
  split
  · rename_i h
    rw [hk] at h
    simp at h
  · extract_lets v0 v1 v2 v3
    split
    · split
      · exact List.mem_append_right _ (List.mem_singleton.mpr rfl)
      · exact List.mem_append_right _ (List.mem_singleton.mpr rfl)
    · split
      · exact List.mem_append_right _ (List.mem_singleton.mpr rfl)
      · rename_i hc
        have : v2.kind = .completion := hk
        rw [this] at hc
        exact absurd rfl hc

theorem State.cross_held {c : Cmd} {st r : Nat} {s : State} {w : Watermark} {before after ring : Nat}
    (hs : Held c st r s) : Held c st r (s.cross w before after ring).1 := by
  unfold State.cross
  extract_lets v0 v1 v2 v3 v4
  have hv1 : Held c st r v1 := State.bump_held hs
  have hv3 : Held c st r v3 := State.wr_held hv1
  split
  · split
    · exact hv1
    · exact hv3
  · exact hs

theorem State.attnRose_held {c : Cmd} {st r : Nat} {s : State} {ring before : Nat} (hs : Held c st r s) :
    Held c st r (s.attnRose ring before) := by
  unfold State.attnRose
  extract_lets v0
  have hv0 : Held c st r v0.1 := State.cross_held hs
  clear_value v0
  split
  · exact State.placeEntry_held hv0
  · exact hv0

theorem State.post_held {c : Cmd} {st r : Nat} {s : State} {e : AttnEntry} (hs : Held c st r s) : Held c st r (s.post e) :=
  State.attnRose_held (State.placeEntry_held hs)

theorem State.raise_held {c : Cmd} {st r : Nat} {s : State} {ev : Nat × Nat} {bank : Nat} (hs : Held c st r s) :
    Held c st r (s.raise ev bank) := by
  unfold State.raise
  extract_lets v0 v1 v2
  have hv2 : Held c st r v2 := State.wr_held hs
  split
  · exact hs
  · split
    · exact State.post_held hv2
    · exact hv2

theorem State.tally_held {c : Cmd} {st r : Nat} {s : State} {f : Field} {n : Nat} (hs : Held c st r s) :
    Held c st r (s.tally f n) := by
  unfold State.tally
  extract_lets v0
  have hv0 : Held c st r v0 := State.bump_held hs
  split
  · exact State.raise_held hv0
  · exact hv0

theorem mem_insertControl {f g : UpFrame} {l : List UpFrame} (h : g ∈ insertControl f l) : g = f ∨ g ∈ l := by
  induction l with
  | nil => exact .inl (List.mem_singleton.mp h)
  | cons a l ih =>
    unfold insertControl at h
    split at h
    · exact List.mem_cons.mp h
    · rcases List.mem_cons.mp h with rfl | h
      · exact .inr List.mem_cons_self
      · rcases ih h with e | e
        · exact .inl e
        · exact .inr (List.mem_cons_of_mem _ e)

/-- A frame that is no completion of `c`, or carries what is held, is queued. -/
theorem State.enqueue_held {c : Cmd} {st r : Nat} {s : State} {f : UpFrame} (hs : Held c st r s)
    (hf : f.q = c.q → f.ftype = .completion → Carries f c st r) : Held c st r (s.enqueue f) := by
  rcases hs with h | ⟨h1, h2, h3⟩
  · exact .inl h
  · refine .inr ⟨h1, fun g hg => ?_, h3⟩
    unfold State.enqueue at hg
    simp only at hg
    split at hg
    · rcases List.mem_append.mp hg with hg | hg
      · exact h2 g hg
      · rw [List.mem_singleton.mp hg]; exact hf
    · rcases mem_insertControl hg with e | e
      · rw [e]; exact hf
      · exact h2 g e

theorem State.owe_held {c d : Cmd} {st r : Nat} {s : State} (hd : d.q ≠ c.q) (hs : Held c st r s) : Held c st r (s.owe d) := by
  unfold State.owe
  split
  · exact hs
  · exact State.enqueue_held hs (fun e => absurd e hd)

theorem State.cmd?_mem {s : State} {q : Nat} {d : Cmd} (h : s.cmd? q = some d) : d ∈ s.cmds ∧ d.q = q :=
  ⟨List.mem_of_find?_eq_some h, by simpa using List.find?_some h⟩

theorem mem_mapIf_of {α : Type} {p : α → Bool} {f : α → α} {l : List α} {x : α} (h : x ∈ l) :
    (if p x then f x else x) ∈ mapIf p f l := by
  induction l with
  | nil => cases h
  | cons a l ih =>
    unfold mapIf
    rcases List.mem_cons.mp h with rfl | h
    · exact List.mem_cons_self
    · exact List.mem_cons_of_mem _ (ih h)

/-- A change of commands that keeps their numbers and what is held. -/
theorem State.setCmd_held {c : Cmd} {st r : Nat} {s : State} {q : Nat} {f : Cmd → Cmd}
    (hq : ∀ d ∈ s.cmds, d.q = q → (f d).q = q) (hf : q = c.q → ∀ d ∈ s.cmds, Settled d c st r → Settled (f d) c st r)
    (hs : Held c st r s) : Held c st r (s.setCmd q f) := by
  rcases hs with h | ⟨h1, h2, h3⟩
  · exact .inl h
  · refine .inr ⟨fun d hd e => ?_, h2, ?_⟩
    · rcases mem_mapIf hd with ⟨h, _⟩ | ⟨y, hy, hp, he⟩
      · exact h1 d h e
      · have hyq : y.q = q := by simpa using hp
        have hqc : q = c.q := by rw [← hq y hy hyq, ← he, e]
        rw [he]
        exact hf hqc y hy (h1 y hy (hyq.trans hqc))
    · rcases h3 with ⟨d, hd, e⟩ | h3
      · refine .inl ⟨_, mem_mapIf_of hd, ?_⟩
        split
        · rename_i hp
          have hdq : d.q = q := by simpa using hp
          rw [hq d hd hdq, ← hdq, e]
        · exact e
      · exact .inr h3

theorem Held.open_ne {c d : Cmd} {st r : Nat} {s : State} (hs : Held c st r s) (hd : d ∈ s.cmds) (ho : d.done? = false) :
    (c.idMode = true ∧ Answers s c st r) ∨ d.q ≠ c.q := by
  rcases hs with h | ⟨h1, _, _⟩
  · exact .inl h
  · refine .inr fun e => ?_
    have := (h1 d hd e).2.2.2.1
    rw [ho] at this; cases this

theorem Answers.held {c : Cmd} {st r : Nat} {s t : State} (h : c.idMode = true ∧ Answers s c st r)
    (hi : t.link.idResponse = s.link.idResponse) : Held c st r t :=
  h.2.elim fun a x => .inl ⟨h.1, a, hi ▸ x⟩

theorem State.owe_idResponse (s : State) (c : Cmd) : (s.owe c).link.idResponse = s.link.idResponse := by
  unfold State.owe
  split <;> rfl

theorem State.answerAborts_held {c d : Cmd} {st r : Nat} {s : State} (hs : Held c st r s) :
    Held c st r (s.answerAborts d) := by
  unfold State.answerAborts
  refine foldl_held hs ?_
  intro s a h
  split
  · rename_i ab hab
    split
    · exact h
    · rename_i ho
      obtain ⟨hm, hq⟩ := State.cmd?_mem hab
      extract_lets l v1 v2
      rcases h.open_ne hm (by simpa using ho) with hA | hne
      · exact Answers.held hA (State.owe_idResponse _ _)
      · have h1 : Held c st r v1 := Held.upd h rfl rfl (fun _ h => List.mem_of_mem_filter h) rfl rfl
        exact State.owe_held hne (State.setCmd_held (fun _ _ _ => hq) (fun e => absurd (hq.trans e) hne) h1)
  · exact h

/-- A command that leaves; the one of which the status is held has left a completion behind. -/
theorem State.leave_held {c : Cmd} {st r : Nat} {s : State} {q : Nat} (hs : Held c st r s)
    (hq : q = c.q → (c.idMode = true ∧ Answers s c st r) ∨ Gone s c st r) : Held c st r (s.leave q) := by
  unfold State.leave
  split
  · exact hs
  · extract_lets v0 v1 v2
    have hv1 : Held c st r v1 := by
      by_cases e : q = c.q
      · rcases hq e with h | h
        · exact .inl h
        · rcases hs with hs | ⟨h1, h2, h3⟩
          · exact .inl hs
          · exact .inr ⟨fun d hd => h1 d (List.mem_of_mem_filter hd), h2, .inr h⟩
      · rcases hs with h | ⟨h1, h2, h3⟩
        · exact .inl h
        · refine .inr ⟨fun d hd => h1 d (List.mem_of_mem_filter hd), h2, ?_⟩
          rcases h3 with ⟨d, hd, hdq⟩ | h3
          · refine .inl ⟨d, List.mem_filter.mpr ⟨hd, ?_⟩, hdq⟩
            simp only [bne_iff_ne, ne_eq]
            exact fun h => e (h.symm.trans hdq)
          · exact .inr h3
    have hv2 : Held c st r v2 := by
      unfold v2
      split
      · exact State.bump_held hv1
      · exact hv1
    exact State.answerAborts_held hv2

theorem State.emit_held {c : Cmd} {st r : Nat} {s : State} {x : Sent} (hs : Held c st r s) : Held c st r (s.emit x) :=
  Held.upd hs rfl rfl (fun _ h => h) rfl rfl

theorem State.spendNonce_link (s : State) (c : Cmd) : (s.spendNonce c).link = s.link := by
  unfold State.spendNonce
  split <;> rfl

theorem State.spendNonce_cmds (s : State) (c : Cmd) : (s.spendNonce c).cmds = s.cmds := by
  unfold State.spendNonce
  split <;> rfl

theorem State.spendNonce_held {c d : Cmd} {st r : Nat} {s : State} (hs : Held c st r s) : Held c st r (s.spendNonce d) := by
  unfold State.spendNonce
  split
  · exact Held.upd hs rfl rfl (fun _ h => h) rfl rfl
  · exact hs

/-- Another command completes; where the status of an ID-mode command is held, not one of ID mode, whose response would
replace it. -/
theorem State.complete_held {c : Cmd} {st r : Nat} {s : State} {q status result data dataLen : Nat}
    (hi : c.idMode = true → ∀ d, s.cmd? q = some d → d.idMode = false) (hs : Held c st r s) :
    Held c st r (s.complete q status result data dataLen) := by
  unfold State.complete
  split
  · exact hs
  · rename_i d hd
    split
    · exact hs
    · rename_i ho
      obtain ⟨hm, hq⟩ := State.cmd?_mem hd
      extract_lets v0 v1 v2 v3 v4 v5 v6 v7 v8
      have e3 : v3.idMode = d.idMode ∧ v3.q = q := by
        unfold v3
        split
        · exact ⟨rfl, hq⟩
        · exact ⟨rfl, hq⟩
      have h0 : Held c st r v0 := State.spendNonce_held hs
      have hi0 : v0.link.idResponse = s.link.idResponse := congrArg _ (State.spendNonce_link _ _)
      have hm0 : d ∈ v0.cmds := by
        unfold v0
        rw [State.spendNonce_cmds]
        exact hm
      rcases hs.open_ne hm (by simpa using ho) with hA | hne
      · rw [if_neg (by rw [e3.1, hi hA.1 d hd]; decide)]
        exact Answers.held hA ((State.owe_idResponse _ _).trans hi0)
      · have hne' : q ≠ c.q := fun e => hne (hq.trans e)
        have h4 : Held c st r v4 := State.setCmd_held (fun _ _ _ => e3.2) (fun e => absurd e hne') h0
        have h5 : Held c st r v5 := Held.upd h4 rfl rfl (fun _ h => h) rfl rfl
        split
        · rename_i hid
          have h5' : ∀ r', Held c st r { v5 with link := { v5.link with idResponse := r' } } := by
            intro r'
            rcases h5 with h | h
            · exact absurd (hi h.1 d hd) (by rw [← e3.1]; simpa using hid)
            · exact .inr h
          exact State.leave_held (State.emit_held (h5' _)) (fun e => absurd e hne')
        · have h8 : Held c st r v8 := Held.upd h5 rfl rfl (fun _ h => List.mem_of_mem_filter h) rfl rfl
          exact State.owe_held (fun e => hne' (e3.2.symm.trans e)) h8

theorem State.sendHead_held {c : Cmd} {st r : Nat} {s : State} (hs : Held c st r s) : Held c st r s.sendHead := by
  unfold State.sendHead
  split
  · exact hs
  · rename_i f l hl
    extract_lets v0 v1 v2 v3
    have hv3 : Held c st r v3 := by
      rcases hs with h | ⟨h1, h2, h3⟩
      · exact .inl h
      · refine .inr ⟨h1, fun g hg => h2 g (hl ▸ List.mem_cons_of_mem _ hg), ?_⟩
        rcases h3 with h | ⟨g, hg, h⟩ | h
        · exact .inl h
        · exact .inr (.inl ⟨g, List.mem_append_left _ hg, h⟩)
        · exact .inr (.inr h)
    split
    · rename_i hk
      refine State.leave_held hv3 fun e => ?_
      rcases hs with h | ⟨_, h2, _⟩
      · exact .inl h
      · have := h2 f (hl ▸ List.mem_cons_self) e (eq_of_beq hk)
        exact .inr (.inl ⟨v0, List.mem_append_right _ (List.mem_singleton.mpr rfl), this⟩)
    · split
      · refine State.setCmd_held (fun d _ h => ?_) (fun _ d _ h => ?_) hv3
        · split <;> exact h
        · rw [if_neg]
          · exact h
          · intro e
            have hd := h.2.2.2.1
            unfold Cmd.done? at hd
            rw [eq_of_beq e] at hd
            cases hd
      · exact hv3

/-- Posting loses no completion. -/
theorem State.placeEntry_keeps {s : State} {e x : AttnEntry} (h : e ∈ s.attn) (hk : e.kind = .completion) :
    e ∈ (s.placeEntry x).attn := by
  unfold State.placeEntry
  split
  · exact h
  · extract_lets v0 v1 v2 v3
    split
    · split
      · exact List.mem_append_left _ h
      · exact List.mem_append_left _ h
    · split
      · exact List.mem_append_left _ (mem_dropOldest h hk)
      · exact h

theorem State.cross_attn (s : State) (w : Watermark) (before after ring : Nat) :
    (s.cross w before after ring).1.attn = s.attn := by
  unfold State.cross
  extract_lets v0 v1 v2 v3 v4
  split
  · split <;> rfl
  · rfl

theorem State.attnRose_keeps {s : State} {ring before : Nat} {e : AttnEntry} (h : e ∈ s.attn) (hk : e.kind = .completion) :
    e ∈ (s.attnRose ring before).attn := by
  unfold State.attnRose
  extract_lets r
  have hr : e ∈ r.1.attn := by
    unfold r
    rw [State.cross_attn]
    exact h
  clear_value r
  split
  · exact State.placeEntry_keeps hr hk
  · exact hr

theorem State.post_keeps {s : State} {e x : AttnEntry} (h : e ∈ s.attn) (hk : e.kind = .completion) : e ∈ (s.post x).attn :=
  State.attnRose_keeps (State.placeEntry_keeps h hk) hk

theorem State.tally_keeps {s : State} {f : Field} {n : Nat} {e : AttnEntry} (h : e ∈ s.attn) (hk : e.kind = .completion) :
    e ∈ (s.tally f n).attn := by
  unfold State.tally
  extract_lets v0
  split
  · unfold State.raise
    extract_lets v1 v2 v3
    split
    · exact h
    · split
      · exact State.post_keeps h hk
      · exact h
  · exact h

theorem State.placeEntry_link (s : State) (e : AttnEntry) : (s.placeEntry e).link = s.link := by
  unfold State.placeEntry
  split
  · rfl
  · extract_lets v0 v1 v2 v3
    split
    · split <;> rfl
    · split <;> rfl

theorem State.cross_link (s : State) (w : Watermark) (x y ring : Nat) : (s.cross w x y ring).1.link = s.link := by
  unfold State.cross
  extract_lets v0 v1 v2 v3 v4
  split
  · split <;> rfl
  · rfl

theorem State.attnRose_link (s : State) (ring before : Nat) : (s.attnRose ring before).link = s.link := by
  unfold State.attnRose
  extract_lets r
  have hr : r.1.link = s.link := State.cross_link _ _ _ _ _
  clear_value r
  split
  · exact (State.placeEntry_link _ _).trans hr
  · exact hr

theorem State.post_link (s : State) (e : AttnEntry) : (s.post e).link = s.link :=
  (State.attnRose_link _ _ _).trans (State.placeEntry_link _ _)

theorem State.raise_link (s : State) (ev : Nat × Nat) (bank : Nat) : (s.raise ev bank).link = s.link := by
  unfold State.raise
  extract_lets v0 v1 v2
  split
  · rfl
  · split
    · exact State.post_link _ _
    · rfl

theorem State.tally_link (s : State) (f : Field) (n : Nat) : (s.tally f n).link = s.link := by
  unfold State.tally
  extract_lets v0
  split
  · exact State.raise_link _ _ _
  · rfl

theorem State.postCompletion_held {c d : Cmd} {st r : Nat} {s : State} (hm : d ∈ s.cmds) (hs : Held c st r s) :
    Held c st r (s.postCompletion d) := by
  unfold State.postCompletion State.placeCompletion
  extract_lets ring e
  refine State.attnRose_held ?_
  split
  · refine State.setCmd_held (fun _ _ h => h) (fun _ x _ h => ?_) hs
    exact ⟨h.1, h.2.1, h.2.2.1, rfl, h.2.2.2.2⟩
  · refine State.leave_held (State.tally_held (State.placeEntry_held hs)) fun hq => ?_
    rcases hs with ⟨k, a, h⟩ | ⟨h1, _, _⟩
    · refine .inl ⟨k, a, ?_⟩
      rw [State.tally_link, State.placeEntry_link]
      exact h
    · obtain ⟨a1, a2, a3, _, a5, a6⟩ := h1 d hm hq
      exact .inr (.inr ⟨_, State.tally_keeps (State.placeEntry_mem (e := e) rfl) rfl, rfl, hq, a2, a5, a1, a3⟩)

theorem State.flush_held {c : Cmd} {st r : Nat} {n : Nat} {s : State} (hs : Held c st r s) :
    Held c st r (State.flush n s) := by
  induction n generalizing s with
  | zero => exact hs
  | succ n ih =>
    unfold State.flush
    split
    · split
      · exact ih (State.sendHead_held hs)
      · exact hs
    · split
      · split
        · rename_i h
          exact ih (State.postCompletion_held (List.mem_of_find?_eq_some h) hs)
        · exact hs
      · exact hs

theorem State.pump_held {c : Cmd} {st r : Nat} {s : State} (hs : Held c st r s) : Held c st r s.pump := by
  unfold State.pump
  extract_lets v0
  have hv0 : Held c st r v0 := State.flush_held hs
  split
  · exact Held.upd hv0 rfl rfl (fun _ h => h) rfl rfl
  · exact hv0

theorem State.latchWake_held {c : Cmd} {st r : Nat} {s : State} {cause : Nat} (hs : Held c st r s) :
    Held c st r (s.latchWake cause) := State.setCell_held (State.setCell_held hs)

theorem State.endDataPhase_held {c : Cmd} {st r : Nat} {s : State} {q : Nat} (hs : Held c st r s) :
    Held c st r (s.endDataPhase q) := by
  unfold State.endDataPhase
  split
  · rename_i d hd
    split
    · exact hs
    · rename_i hid
      refine State.complete_held (fun _ x hx => ?_) hs
      rw [hd] at hx
      cases hx
      simp only [Bool.or_eq_true, not_or, Bool.not_eq_true] at hid
      exact hid.1
  · exact hs

theorem State.enterSafe_held {c : Cmd} {st r : Nat} {s : State} {kind : Nat} {x : Source} (hs : Held c st r s) :
    Held c st r (s.enterSafe kind x) := by
  unfold State.enterSafe
  split
  · exact hs
  · extract_lets v0 v1 v2 v3 v4 v5 v6 v7
    have hv7 : Held c st r v7 := Held.upd hs rfl rfl (fun _ h => h) rfl rfl
    unfold State.endDataPhases
    exact foldl_held (State.bump_held hv7) fun _ _ h => State.endDataPhase_held h

theorem State.escEval_held {c : Cmd} {st r : Nat} {s : State} (hs : Held c st r s) : Held c st r s.escEval := by
  unfold State.escEval
  split
  · exact hs
  · split
    · exact State.enterSafe_held hs
    · split
      · extract_lets v0 v1 v2
        have hv2 : Held c st r v2 := by
          unfold v2
          split
          · exact hs
          · exact State.raise_held (Held.upd hs rfl rfl (fun _ h => h) rfl rfl)
        split
        · exact State.enterSafe_held hv2
        · exact hv2
      · split
        · refine State.bump_held (State.raise_held ?_)
          exact Held.upd hs rfl rfl (fun _ h => h) rfl rfl
        · exact hs

theorem State.writeAlert_held {c : Cmd} {st r : Nat} {s : State} {causes : Nat} (hs : Held c st r s) :
    Held c st r (s.writeAlert causes) := by
  unfold State.writeAlert
  extract_lets v0 v1
  have hv0 : Held c st r v0 := State.setCell_held (State.setCell_held hs)
  exact Held.upd hv0 rfl rfl (fun _ h => h) rfl rfl

/-- The end of a step keeps a status that stands. -/
theorem State.settle_held {c : Cmd} {st r : Nat} {s : State} (hs : Held c st r s) : Held c st r s.settle := by
  unfold State.settle
  split
  · have h1 : Held c st r s.headerCheck := by
      unfold State.headerCheck
      exact foldl_held hs fun _ _ h => State.enterSafe_held (State.wr_held h)
    have h2 : Held c st r s.headerCheck.relatchAlarm := by
      unfold State.relatchAlarm
      split
      · exact State.latchWake_held h1
      · exact h1
    have h3 := State.endEdge_held (State.pump_held (State.endEdge_held (State.escEval_held h2)))
    unfold State.alertUpdate
    split
    · exact State.writeAlert_held h3
    · exact h3
  · exact hs

/-- Fixing a status (R116): it stands from then on. -/
theorem State.complete_fixes {c : Cmd} {s : State} {q status result data dataLen : Nat} (h : s.cmd? q = some c)
    (ho : c.done? = false) :
    Held c status (completionFields c status result data) (s.complete q status result data dataLen) := by
  obtain ⟨hm, hq⟩ := State.cmd?_mem h
  unfold State.complete
  split
  · rename_i hn
    rw [hn] at h; cases h
  · rename_i d hd
    have hdc : d = c := by rw [hd] at h; exact Option.some.inj h
    subst hdc
    split
    · rename_i hn
      rw [ho] at hn; cases hn
    · extract_lets v0 v1 v2 v3 v4 v5 v6 v7 v8
      have hm0 : d ∈ v0.cmds := by
        unfold v0
        rw [State.spendNonce_cmds]
        exact hm
      unfold completionFields
      by_cases hid : d.idMode = true
      · have hv : v3.idMode = true := by unfold v3; rw [if_pos hid]; exact hid
        rw [if_pos hid, if_pos hv]
        have hA : ∀ t : State, t.link.idResponse = some (idAnswer v5 v3) → Answers t d status (v2 + 2 ^ (8 * v1) * data) := by
          intro t ht
          refine ⟨_, ht, ?_⟩
          unfold v3
          rw [if_pos hid]
          exact ⟨rfl, rfl, rfl, rfl, rfl⟩
        exact State.leave_held (.inl ⟨hid, hA _ rfl⟩) (fun _ => .inl ⟨hid, hA _ rfl⟩)
      · have hv : ¬ v3.idMode = true := by unfold v3; rw [if_neg hid]; exact hid
        rw [if_neg hid, if_neg hv]
        have e3 : v3 = { d with phase := CmdPhase.settled, status := status, result := v2,
                                resultUnits := if v1 = 0 then 0 else 1 } := by
          unfold v3
          rw [if_neg hid]
        have hS : Settled v3 d status v2 := by rw [e3]; exact ⟨rfl, rfl, rfl, rfl, rfl, rfl⟩
        have hq3 : v3.q = q := by rw [e3]; exact hq
        have h8 : Held d status v2 v8 := by
          refine .inr ⟨fun d hd e => ?_, fun f hf e hk => ?_, .inl ⟨v3, ?_, hq3.trans hq.symm⟩⟩
          · rcases mem_mapIf hd with ⟨_, hp⟩ | ⟨_, _, _, he⟩
            · rw [e, hq] at hp; simp at hp
            · rw [he]; exact hS
          · have := (List.mem_filter.mp hf).2
            unfold keptFrame at this
            rw [e, hq, hk] at this
            simp at this
          · have := mem_mapIf_of (p := fun c => c.q == q) (f := fun _ => v3) hm0
            rw [if_pos (by simpa using hq)] at this
            exact this
        unfold State.owe
        split
        · exact h8
        · refine State.enqueue_held h8 fun _ _ => ?_
          rw [e3]
          exact ⟨rfl, rfl, rfl, rfl, rfl, rfl, rfl⟩

/-! Commands of fast mode keep their status through what a change of the flash side brings about as well. -/

theorem State.onFlash_held {c : Cmd} {st r : Nat} {s : State} {f : Flash → Flash} (hs : Held c st r s) :
    Held c st r (s.onFlash f) := Held.upd hs rfl rfl (fun _ h => h) rfl rfl

theorem State.sweepEngines_held {c : Cmd} {st r : Nat} {s : State} (hs : Held c st r s) : Held c st r s.sweepEngines := by
  unfold State.sweepEngines
  split
  · exact hs
  · exact State.onFlash_held hs

theorem State.endCmd_held {c : Cmd} {st r : Nat} {s : State} {q status result : Nat} (hf : c.idMode = false)
    (hs : Held c st r s) : Held c st r (s.endCmd q status result) :=
  State.onFlash_held (State.sweepEngines_held
    (State.complete_held (fun h => by rw [hf] at h; cases h) (State.onFlash_held hs)))

/-- Ending a command fixes its status. -/
theorem State.endCmd_fixes {c : Cmd} {s : State} {q status result : Nat} (h : s.cmd? q = some c) (ho : c.done? = false) :
    Held c status (completionFields c status result) (s.endCmd q status result) :=
  State.onFlash_held (State.sweepEngines_held (State.complete_fixes (s := s.withdraw q) h ho))

theorem State.addJob_held {c : Cmd} {st r : Nat} {s : State} {b : Bearer} {w : JobWork} {l : List Nat} (hs : Held c st r s) :
    Held c st r (s.addJob b w l) := by
  unfold State.addJob
  split
  · exact hs
  · exact State.onFlash_held hs

theorem State.endTrim_held {c : Cmd} {st r : Nat} {s : State} {q status : Nat} (hf : c.idMode = false)
    (hs : Held c st r s) : Held c st r (s.endTrim q status) := by
  unfold State.endTrim
  split
  · rename_i d hd
    obtain ⟨hm, hq⟩ := State.cmd?_mem hd
    split
    · split
      · exact hs
      · rename_i hp
        refine State.addJob_held ?_
        have hdone : d.done? = false := by
          cases e : d.done? with
          | false => rfl
          | true => exact absurd (.inr e) hp
        rcases Held.open_ne hs hm hdone with h | h
        · exact Answers.held h rfl
        · exact State.setCmd_held (fun _ _ h => h) (fun e => absurd (hq.trans e) h) hs
    · exact State.endCmd_held hf hs
  · exact hs

theorem State.flashSettle_held {c : Cmd} {st r : Nat} {s : State} (hf : c.idMode = false) (hs : Held c st r s) :
    Held c st r s.flashSettle := by
  have h1 : Held c st r s.lifeSettle := by
    unfold State.lifeSettle
    split
    · exact hs
    · extract_lets v0 v1 v2
      split
      · exact State.raise_held (State.onFlash_held hs)
      · exact State.onFlash_held hs
  have h2 : Held c st r s.lifeSettle.readOnlySettle := by
    unfold State.readOnlySettle
    extract_lets v0 v1 v2 v3
    split
    · exact foldl_held (State.raise_held (State.onFlash_held h1)) fun _ _ h => State.endTrim_held hf h
    · exact State.onFlash_held h1
  have h3 : Held c st r s.lifeSettle.readOnlySettle.starveSettle := by
    unfold State.starveSettle
    extract_lets v0 v1
    split
    · split
      · exact State.onFlash_held h2
      · exact h2
    · split
      · exact State.bump_held (State.raise_held (State.onFlash_held h2))
      · exact h2
  have h4 : Held c st r s.lifeSettle.readOnlySettle.starveSettle.patrolSettle := by
    unfold State.patrolSettle
    split
    · exact State.raise_held (State.onFlash_held h3)
    · exact h3
  unfold State.flashSettle State.debtSettle
  extract_lets v0 v1 v2 v3
  have h5 : Held c st r v3 := by
    unfold v3
    split
    · exact State.raise_held (State.onFlash_held h4)
    · exact State.onFlash_held h4
  split
  · exact State.raise_held h5
  · exact h5

end Sys2Proof.Machine
end

