-- ==== Sys2Proof/Laws/Moved.lean ====
section
/-!
SUPPORT. Which parts of the card an operation may change, and what no operation breaks. A set of parts is a number, bit `i` for the
`i`-th field of State. The files MovedBase to MovedRows give each operation its set.
-/
namespace Sys2Proof.Machine
open Sys2Proof.Safety

/-! Sets of parts. -/

/-- The number of a part: its place among State's fields. -/
def partBit : Part → Nat
  | .pending => 0 | .regs => 1 | .link => 2 | .wire => 3 | .cmds => 4 | .descs => 5 | .attn => 6 | .seqs => 7
  | .origs => 8 | .slices => 9 | .shelf => 10 | .flash => 11 | .power => 12 | .crust => 13 | .sleepA => 14
  | .sleepB => 15 | .opt => 16 | .fw => 17 | .esc => 18 | .temp => 19 | .fuses => 20 | .tap => 21 | .draws => 22
  | .keys => 23

/-- Every part numbered in `a` is numbered in `c`. -/
def Within (a c : Nat) : Prop := a ||| c = c

theorem Within.mono {a c T : Nat} (h : Within c T) (e : a ||| c = c) : Within a T := by
  unfold Within at *
  rw [← h, ← Nat.or_assoc, e]

theorem Within.bit {c T i : Nat} (h : Within c T) (e : c.testBit i = true) : T.testBit i = true := by
  rw [← h, Nat.testBit_or, e, Bool.true_or]

theorem Within.refl (T : Nat) : Within T T := Nat.or_self T

/-- `t` is `b` but for the parts numbered in `T`. -/
def Agree (T : Nat) (b t : State) : Prop := ∀ p : Part, T.testBit (partBit p) = true ∨ p.Same b t

theorem Part.same_trans {p : Part} {a b c : State} (h : p.Same a b) (k : p.Same b c) : p.Same a c := by
  cases p <;> exact Eq.trans k h

theorem Agree.refl (T : Nat) (s : State) : Agree T s s := fun p => .inr (by cases p <;> rfl)

theorem Agree.trans {T : Nat} {a b c : State} (h : Agree T a b) (k : Agree T b c) : Agree T a c := fun p =>
  (h p).elim .inl fun x => (k p).elim .inl fun y => .inr (Part.same_trans x y)

theorem Agree.mono {C T : Nat} {b t : State} (hc : Within C T) (h : Agree C b t) : Agree T b t := fun p =>
  (h p).elim (fun x => .inl (hc.bit x)) .inr

/-- The parts outside a set as a list of those in it. -/
theorem Agree.only {T : Nat} {l : List Part} {b t : State} (h : Agree T b t)
    (hl : ∀ p, p ∉ l → T.testBit (partBit p) = false) : Only l b t := fun p hp =>
  (h p).elim (fun x => absurd ((hl p hp).symm.trans x) Bool.false_ne_true) id

/-- The parts numbered in `C` of `t`, the others of `s`. -/
def State.merge (C : Nat) (s t : State) : State where
  pending := bif C.testBit 0 then t.pending else s.pending
  regs := bif C.testBit 1 then t.regs else s.regs
  link := bif C.testBit 2 then t.link else s.link
  wire := bif C.testBit 3 then t.wire else s.wire
  cmds := bif C.testBit 4 then t.cmds else s.cmds
  descs := bif C.testBit 5 then t.descs else s.descs
  attn := bif C.testBit 6 then t.attn else s.attn
  seqs := bif C.testBit 7 then t.seqs else s.seqs
  origs := bif C.testBit 8 then t.origs else s.origs
  slices := bif C.testBit 9 then t.slices else s.slices
  shelf := bif C.testBit 10 then t.shelf else s.shelf
  flash := bif C.testBit 11 then t.flash else s.flash
  power := bif C.testBit 12 then t.power else s.power
  crust := bif C.testBit 13 then t.crust else s.crust
  sleepA := bif C.testBit 14 then t.sleepA else s.sleepA
  sleepB := bif C.testBit 15 then t.sleepB else s.sleepB
  opt := bif C.testBit 16 then t.opt else s.opt
  fw := bif C.testBit 17 then t.fw else s.fw
  esc := bif C.testBit 18 then t.esc else s.esc
  temp := bif C.testBit 19 then t.temp else s.temp
  fuses := bif C.testBit 20 then t.fuses else s.fuses
  tap := bif C.testBit 21 then t.tap else s.tap
  draws := bif C.testBit 22 then t.draws else s.draws
  keys := bif C.testBit 23 then t.keys else s.keys

theorem State.merge_agree (C : Nat) (s t : State) : Agree C s (s.merge C t) := by
  intro p
  cases h : C.testBit (partBit p) with
  | true => exact .inl rfl
  | false => right; cases p <;> exact congrArg (fun x => bif x then _ else _) h

/-! What no operation breaks. -/

/-- Blowing fuses changes no factory fuse and mends no seal (R361, R480). -/
def FuseLe (f g : Fuses) : Prop :=
  g.part = f.part ∧ g.step = f.step ∧ g.serial = f.serial ∧ (f.sealBlown = true → g.sealBlown = true)

theorem FuseLe.refl (f : Fuses) : FuseLe f f := ⟨rfl, rfl, rfl, id⟩

theorem Fuses.blow_le (f : Fuses) (t : FuseTarget) (n : Nat) : FuseLe f (f.blow t n) := by
  cases t <;> refine ⟨rfl, rfl, rfl, fun h => ?_⟩ <;> simp [Fuses.blow, h]

/-- A store in canonical form whose values have 16 bits (R201, R317). -/
def Store16 (m : Store) : Prop := storeWf m = true ∧ store16 m = true

theorem Store16.write {m : Store} (h : Store16 m) {k v : Nat} : Store16 (storeWrite m k (v % 65536)) :=
  ⟨storeWf_write _ _ h.1, store16_write h.2 (Nat.mod_lt _ (by decide))⟩

/-- From `s` to `t` the queue of commands stands, factory fuses and a blown seal stand, and what is well formed stays so. -/
structure Keeps (s t : State) : Prop where
  pending : t.pending = s.pending
  regs : storeWf s.regs = true → storeWf t.regs = true
  crust : Store16 s.crust → Store16 t.crust
  seqs : Store16 s.seqs → Store16 t.seqs
  slices : s.slices.length = 64 → t.slices.length = 64
  fuses : FuseLe s.fuses t.fuses

theorem Keeps.refl (s : State) : Keeps s s := ⟨rfl, id, id, id, id, .refl _⟩

theorem Keeps.trans {a b c : State} (h : Keeps a b) (k : Keeps b c) : Keeps a c :=
  ⟨k.pending.trans h.pending, k.regs ∘ h.regs, k.crust ∘ h.crust, k.seqs ∘ h.seqs, k.slices ∘ h.slices,
   k.fuses.1.trans h.fuses.1, k.fuses.2.1.trans h.fuses.2.1, k.fuses.2.2.1.trans h.fuses.2.2.1,
   k.fuses.2.2.2 ∘ h.fuses.2.2.2⟩

theorem Keeps.wf {s t : State} (h : Keeps s t) (w : wf s) : wf t :=
  ⟨h.regs w.1, h.crust w.2.1, h.seqs w.2.2.1, h.slices w.2.2.2⟩

/-! Operations. -/

/-- An operation has made `t` of `b`: only parts numbered in `T` have changed, and nothing is broken. -/
structure Moved (T : Nat) (b t : State) : Prop where
  agree : Agree T b t
  keeps : Keeps b t

theorem Moved.refl (T : Nat) (s : State) : Moved T s s := ⟨.refl T s, .refl s⟩

/-- A change of the parts numbered in `C`. -/
theorem Moved.upd {T C : Nat} {b s t : State} (hc : Within C T) (h : Moved T b s) (e : s.merge C t = t) (k : Keeps s t) :
    Moved T b t :=
  ⟨h.agree.trans (Agree.mono hc (e ▸ s.merge_agree C t)), h.keeps.trans k⟩

/-- An answer whose next state is a moved one. -/
def MovedA (T : Nat) (b : State) : Answer → Prop
  | .next t => Moved T b t
  | .fault _ => True
  | .refused _ => True

theorem MovedA.next {T : Nat} {b t : State} (h : Moved T b t) : MovedA T b (.next t) := h

theorem Moved.ite {T : Nat} {b s t : State} {p : Prop} [Decidable p] (h : Moved T b s) (k : Moved T b t) :
    Moved T b (if p then s else t) := by
  split
  · exact h
  · exact k

theorem Moved.itep {T : Nat} {b : State} {α : Type} {s t : State × α} {p : Prop} [Decidable p] (h : Moved T b s.1)
    (k : Moved T b t.1) : Moved T b (if p then s else t).1 := by
  split
  · exact h
  · exact k

theorem MovedA.ite {T : Nat} {b : State} {s t : Answer} {p : Prop} [Decidable p] (h : MovedA T b s) (k : MovedA T b t) :
    MovedA T b (if p then s else t) := by
  split
  · exact h
  · exact k

theorem Moved.fst {T : Nat} {b s : State} {α : Type} {a : α} (h : Moved T b s) : Moved T b (s, a).1 := h

/-- The state of a pair that has been taken apart. -/
theorem Moved.pair {T : Nat} {b t : State} {α : Type} {x : α} {r : State × α} (e : r = (t, x)) (h : Moved T b r.1) :
    Moved T b t := by
  subst e
  exact h

theorem foldl_moved {T : Nat} {b : State} {α : Type} {f : State → α → State} {s : State} {l : List α} (h : Moved T b s)
    (hf : ∀ s x, Moved T b s → Moved T b (f s x)) : Moved T b (l.foldl f s) := by
  induction l generalizing s with
  | nil => exact h
  | cons a l ih => exact ih (hf _ _ h)

theorem foldl_fst_moved {T : Nat} {b : State} {α β : Type} {f : State × β → α → State × β} {s : State × β} {l : List α}
    (h : Moved T b s.1) (hf : ∀ s x, Moved T b s.1 → Moved T b (f s x).1) : Moved T b (l.foldl f s).1 := by
  induction l generalizing s with
  | nil => exact h
  | cons a l ih => exact ih (hf _ _ h)

@[simp] theorem length_rangeFrom (a n : Nat) : (rangeFrom a n).length = n := by
  induction n generalizing a with
  | zero => rfl
  | succ n ih => simp [rangeFrom, ih]

/-! One part at a time. -/

theorem Moved.set_link {T : Nat} {b s : State} (hc : Within 4 T) (h : Moved T b s) {v} :
    Moved T b { s with link := v } :=
  Moved.upd hc h rfl ⟨rfl, id, id, id, id, .refl _⟩

theorem Moved.set_wire {T : Nat} {b s : State} (hc : Within 8 T) (h : Moved T b s) {v} :
    Moved T b { s with wire := v } :=
  Moved.upd hc h rfl ⟨rfl, id, id, id, id, .refl _⟩

theorem Moved.set_cmds {T : Nat} {b s : State} (hc : Within 16 T) (h : Moved T b s) {v} :
    Moved T b { s with cmds := v } :=
  Moved.upd hc h rfl ⟨rfl, id, id, id, id, .refl _⟩

theorem Moved.set_descs {T : Nat} {b s : State} (hc : Within 32 T) (h : Moved T b s) {v} :
    Moved T b { s with descs := v } :=
  Moved.upd hc h rfl ⟨rfl, id, id, id, id, .refl _⟩

theorem Moved.set_attn {T : Nat} {b s : State} (hc : Within 64 T) (h : Moved T b s) {v} :
    Moved T b { s with attn := v } :=
  Moved.upd hc h rfl ⟨rfl, id, id, id, id, .refl _⟩

theorem Moved.set_origs {T : Nat} {b s : State} (hc : Within 256 T) (h : Moved T b s) {v} :
    Moved T b { s with origs := v } :=
  Moved.upd hc h rfl ⟨rfl, id, id, id, id, .refl _⟩

theorem Moved.set_shelf {T : Nat} {b s : State} (hc : Within 1024 T) (h : Moved T b s) {v} :
    Moved T b { s with shelf := v } :=
  Moved.upd hc h rfl ⟨rfl, id, id, id, id, .refl _⟩

theorem Moved.set_flash {T : Nat} {b s : State} (hc : Within 2048 T) (h : Moved T b s) {v} :
    Moved T b { s with flash := v } :=
  Moved.upd hc h rfl ⟨rfl, id, id, id, id, .refl _⟩

theorem Moved.set_power {T : Nat} {b s : State} (hc : Within 4096 T) (h : Moved T b s) {v} :
    Moved T b { s with power := v } :=
  Moved.upd hc h rfl ⟨rfl, id, id, id, id, .refl _⟩

theorem Moved.set_sleepA {T : Nat} {b s : State} (hc : Within 16384 T) (h : Moved T b s) {v} :
    Moved T b { s with sleepA := v } :=
  Moved.upd hc h rfl ⟨rfl, id, id, id, id, .refl _⟩

theorem Moved.set_sleepB {T : Nat} {b s : State} (hc : Within 32768 T) (h : Moved T b s) {v} :
    Moved T b { s with sleepB := v } :=
  Moved.upd hc h rfl ⟨rfl, id, id, id, id, .refl _⟩

theorem Moved.set_opt {T : Nat} {b s : State} (hc : Within 65536 T) (h : Moved T b s) {v} :
    Moved T b { s with opt := v } :=
  Moved.upd hc h rfl ⟨rfl, id, id, id, id, .refl _⟩

theorem Moved.set_fw {T : Nat} {b s : State} (hc : Within 131072 T) (h : Moved T b s) {v} :
    Moved T b { s with fw := v } :=
  Moved.upd hc h rfl ⟨rfl, id, id, id, id, .refl _⟩

theorem Moved.set_esc {T : Nat} {b s : State} (hc : Within 262144 T) (h : Moved T b s) {v} :
    Moved T b { s with esc := v } :=
  Moved.upd hc h rfl ⟨rfl, id, id, id, id, .refl _⟩

theorem Moved.set_temp {T : Nat} {b s : State} (hc : Within 524288 T) (h : Moved T b s) {v} :
    Moved T b { s with temp := v } :=
  Moved.upd hc h rfl ⟨rfl, id, id, id, id, .refl _⟩

theorem Moved.set_tap {T : Nat} {b s : State} (hc : Within 2097152 T) (h : Moved T b s) {v} :
    Moved T b { s with tap := v } :=
  Moved.upd hc h rfl ⟨rfl, id, id, id, id, .refl _⟩

theorem Moved.set_draws {T : Nat} {b s : State} (hc : Within 4194304 T) (h : Moved T b s) {v} :
    Moved T b { s with draws := v } :=
  Moved.upd hc h rfl ⟨rfl, id, id, id, id, .refl _⟩

theorem Moved.set_keys {T : Nat} {b s : State} (hc : Within 8388608 T) (h : Moved T b s) {v} :
    Moved T b { s with keys := v } :=
  Moved.upd hc h rfl ⟨rfl, id, id, id, id, .refl _⟩

end Sys2Proof.Machine
end

