-- ==== Sys2Proof/Laws/MovedBase.lean ====
section
/-!
SUPPORT. Which parts of the card change, and that nothing is broken: register fields, commands, attention, the Crust, faults. One lemma per operation, in the order of the
model's files.
-/
namespace Sys2Proof.Machine

theorem State.wr_moved {T : Nat} {b : State} (hT : Within 2 T) {s f v} (hs : Moved T b s) :
    Moved T b (State.wr s f v) := by
  unfold State.wr
  exact Moved.upd (C := 2) (hT.mono rfl) hs rfl ⟨rfl, (storeWf_regWrite _ _), id, id, id, .refl _⟩

theorem State.bump_moved {T : Nat} {b : State} (hT : Within 2 T) {s f n} (hs : Moved T b s) :
    Moved T b (State.bump s f n) := by
  unfold State.bump
  exact State.wr_moved (hT.mono rfl) hs

theorem State.setCell_moved {T : Nat} {b : State} (hT : Within 8192 T) {s n v} (hs : Moved T b s) :
    Moved T b (State.setCell s n v) := by
  unfold State.setCell
  split
  · exact Moved.upd (C := 8192) (hT.mono rfl) hs rfl ⟨rfl, id, (fun h => h.write), id, id, .refl _⟩
  · exact hs

theorem State.setSlice_moved {T : Nat} {b : State} (hT : Within 512 T) {s i f} (hs : Moved T b s) :
    Moved T b (State.setSlice s i f) := by
  unfold State.setSlice
  exact Moved.upd (C := 512) (hT.mono rfl) hs rfl ⟨rfl, id, id, id, (fun h => by simp [h]), .refl _⟩

theorem State.setCmd_moved {T : Nat} {b : State} (hT : Within 16 T) {s q f} (hs : Moved T b s) :
    Moved T b (State.setCmd s q f) := by
  unfold State.setCmd
  exact Moved.set_cmds (hT.mono rfl) hs

theorem State.onCmd_moved {T : Nat} {b : State} (hT : Within 0 T) {s q opcode ph f} (hs : Moved T b s) (hf : ∀ y0,
    Moved T b (f y0)) :
    Moved T b (State.onCmd s q opcode ph f) := by
  unfold State.onCmd
  split
  · exact Moved.ite (hf _) hs
  · exact hs

theorem State.setDesc_moved {T : Nat} {b : State} (hT : Within 32 T) {s q f} (hs : Moved T b s) :
    Moved T b (State.setDesc s q f) := by
  unfold State.setDesc
  exact Moved.set_descs (hT.mono rfl) hs

theorem State.emit_moved {T : Nat} {b : State} (hT : Within 8 T) {s x} (hs : Moved T b s) :
    Moved T b (State.emit s x) := by
  unfold State.emit
  exact Moved.set_wire (hT.mono rfl) hs

theorem State.onFlash_moved {T : Nat} {b : State} (hT : Within 2048 T) {s f} (hs : Moved T b s) :
    Moved T b (State.onFlash s f) := by
  unfold State.onFlash
  exact Moved.set_flash (hT.mono rfl) hs

theorem State.setDie_moved {T : Nat} {b : State} (hT : Within 2048 T) {s d f} (hs : Moved T b s) :
    Moved T b (State.setDie s d f) := by
  unfold State.setDie
  exact State.onFlash_moved (hT.mono rfl) hs

theorem State.loseEntry_moved {T : Nat} {b : State} (hT : Within 2 T) {s ring} (hs : Moved T b s) :
    Moved T b (State.loseEntry s ring) := by
  unfold State.loseEntry
  exact State.bump_moved (hT.mono rfl) (State.wr_moved (hT.mono rfl) hs)

theorem State.placeEntry_moved {T : Nat} {b : State} (hT : Within 194 T) {s e} (hs : Moved T b s) :
    Moved T b (State.placeEntry s e) := by
  unfold State.placeEntry
  split
  · exact hs
  · extract_lets v0 v1 v2 v3
    have hv1 : Moved T b v1 := by
      unfold v1
      exact Moved.upd (C := 128) (hT.mono rfl) hs rfl ⟨rfl, id, id, (fun h => h.write), id, .refl _⟩
    have hv3 : Moved T b v3 := Moved.set_attn (hT.mono rfl) hv1
    split
    · exact Moved.ite (State.wr_moved (hT.mono rfl) hv3) hv3
    · split
      · exact State.loseEntry_moved (hT.mono rfl) (Moved.set_attn (hT.mono rfl) hv1)
      · exact State.loseEntry_moved (hT.mono rfl) hv1

theorem State.cross_moved {T : Nat} {b : State} (hT : Within 2 T) {s w before after ring} (hs : Moved T b s) :
    Moved T b (State.cross s w before after ring).1 := by
  unfold State.cross
  extract_lets v0 v1 v2 v3 v4
  have hv1 : Moved T b v1 := State.bump_moved (hT.mono rfl) hs
  have hv3 : Moved T b v3 := State.wr_moved (hT.mono rfl) hv1
  exact Moved.itep (Moved.itep (Moved.fst hv1) (Moved.fst hv3)) (Moved.fst hs)

theorem State.attnRose_moved {T : Nat} {b : State} (hT : Within 194 T) {s ring before} (hs : Moved T b s) :
    Moved T b (State.attnRose s ring before) := by
  unfold State.attnRose
  extract_lets v0
  have hv0 : Moved T b v0.1 := State.cross_moved (hT.mono rfl) hs
  split
  · exact State.placeEntry_moved (hT.mono rfl) hv0
  · exact hv0

theorem State.post_moved {T : Nat} {b : State} (hT : Within 194 T) {s e} (hs : Moved T b s) :
    Moved T b (State.post s e) := by
  unfold State.post
  exact State.attnRose_moved (hT.mono rfl) (State.placeEntry_moved (hT.mono rfl) hs)

theorem State.submitRose_moved {T : Nat} {b : State} (hT : Within 194 T) {s ring before} (hs : Moved T b s) :
    Moved T b (State.submitRose s ring before) := by
  unfold State.submitRose
  extract_lets v0
  have hv0 : Moved T b v0.1 := State.cross_moved (hT.mono rfl) hs
  split
  · exact State.post_moved (hT.mono rfl) hv0
  · exact hv0

theorem State.endEdge_moved {T : Nat} {b : State} (hT : Within 64 T) {s} (hs : Moved T b s) :
    Moved T b (State.endEdge s) := by
  unfold State.endEdge
  extract_lets v0
  exact Moved.set_attn (hT.mono rfl) hs

theorem State.raise_moved {T : Nat} {b : State} (hT : Within 194 T) {s ev bank} (hs : Moved T b s) :
    Moved T b (State.raise s ev bank) := by
  unfold State.raise
  extract_lets v0 v1 v2
  have hv2 : Moved T b v2 := State.wr_moved (hT.mono rfl) hs
  exact Moved.ite hs (Moved.ite (State.post_moved (hT.mono rfl) hv2) hv2)

theorem State.tally_moved {T : Nat} {b : State} (hT : Within 194 T) {s f n} (hs : Moved T b s) :
    Moved T b (State.tally s f n) := by
  unfold State.tally
  extract_lets v0
  have hv0 : Moved T b v0 := State.bump_moved (hT.mono rfl) hs
  exact Moved.ite (State.raise_moved (hT.mono rfl) hv0) hv0

theorem State.tally64_moved {T : Nat} {b : State} (hT : Within 194 T) {s lo hi n} (hs : Moved T b s) :
    Moved T b (State.tally64 s lo hi n) := by
  unfold State.tally64
  extract_lets v0 v1 v2
  have hv2 : Moved T b v2 := State.wr_moved (hT.mono rfl) (State.wr_moved (hT.mono rfl) hs)
  exact Moved.ite (State.raise_moved (hT.mono rfl) hv2) hv2

theorem State.enqueue_moved {T : Nat} {b : State} (hT : Within 4 T) {s f} (hs : Moved T b s) :
    Moved T b (State.enqueue s f) := by
  unfold State.enqueue
  exact Moved.set_link (hT.mono rfl) hs

theorem State.owe_moved {T : Nat} {b : State} (hT : Within 4 T) {s c} (hs : Moved T b s) :
    Moved T b (State.owe s c) := by
  unfold State.owe
  exact Moved.ite hs (State.enqueue_moved (hT.mono rfl) hs)

theorem State.answerAborts_moved {T : Nat} {b : State} (hT : Within 20 T) {s c} (hs : Moved T b s) :
    Moved T b (State.answerAborts s c) := by
  unfold State.answerAborts
  refine foldl_moved hs ?_
  intro u0 x1 h2
  split
  · split
    · exact h2
    · extract_lets v3 v4 v5
      have hv4 : Moved T b v4 := Moved.set_link (hT.mono rfl) h2
      exact State.owe_moved (hT.mono rfl) (State.setCmd_moved (hT.mono rfl) hv4)
  · exact h2

theorem State.leave_moved {T : Nat} {b : State} (hT : Within 22 T) {s q} (hs : Moved T b s) :
    Moved T b (State.leave s q) := by
  unfold State.leave
  split
  · exact hs
  · extract_lets v0 v1 v2
    have hv1 : Moved T b v1 := by
      unfold v1
      exact Moved.upd (C := 20) (hT.mono rfl) hs rfl ⟨rfl, id, id, id, id, .refl _⟩
    have hv2 : Moved T b v2 := Moved.ite (State.bump_moved (hT.mono rfl) hv1) hv1
    exact State.answerAborts_moved (hT.mono rfl) hv2

theorem State.spendNonce_moved {T : Nat} {b : State} (hT : Within 256 T) {s c} (hs : Moved T b s) :
    Moved T b (State.spendNonce s c) := by
  unfold State.spendNonce
  exact Moved.ite (Moved.set_origs (hT.mono rfl) hs) hs

theorem State.complete_moved {T : Nat} {b : State} (hT : Within 318 T) {s q status result data dataLen} (hs : Moved T
    b s) :
    Moved T b (State.complete s q status result data dataLen) := by
  unfold State.complete
  split
  · exact hs
  · split
    · exact hs
    · extract_lets v0 v1 v2 v3 v4 v5 v6 v7 v8
      have hv0 : Moved T b v0 := State.spendNonce_moved (hT.mono rfl) hs
      have hv4 : Moved T b v4 := State.setCmd_moved (hT.mono rfl) hv0
      have hv5 : Moved T b v5 := Moved.set_descs (hT.mono rfl) hv4
      have hv8 : Moved T b v8 := Moved.set_link (hT.mono rfl) hv5
      split
      · exact State.leave_moved (hT.mono rfl) (State.emit_moved (hT.mono rfl) (Moved.set_link (hT.mono rfl) hv5))
      · exact State.owe_moved (hT.mono rfl) hv8

theorem State.transmit_moved {T : Nat} {b : State} (hT : Within 12 T) {s f} (hs : Moved T b s) :
    Moved T b (State.transmit s f) := by
  unfold State.transmit
  extract_lets v0 v1
  have hv0 : Moved T b v0 := State.emit_moved (hT.mono rfl) hs
  exact Moved.set_link (hT.mono rfl) hv0

theorem State.sendHead_moved {T : Nat} {b : State} (hT : Within 30 T) {s} (hs : Moved T b s) :
    Moved T b (State.sendHead s) := by
  unfold State.sendHead
  split
  · exact hs
  · extract_lets v0 v1 v2 v3
    have hv1 : Moved T b v1 := State.transmit_moved (hT.mono rfl) hs
    have hv3 : Moved T b v3 := Moved.set_link (hT.mono rfl) hv1
    split
    · exact State.leave_moved (hT.mono rfl) hv3
    · exact Moved.ite (State.setCmd_moved (hT.mono rfl) hv3) hv3

theorem State.placeCompletion_moved {T : Nat} {b : State} (hT : Within 214 T) {s c} (hs : Moved T b s) :
    Moved T b (State.placeCompletion s c) := by
  unfold State.placeCompletion
  extract_lets v0 v1
  split
  · exact State.setCmd_moved (hT.mono rfl) hs
  · exact State.leave_moved (hT.mono rfl) (State.tally_moved (hT.mono rfl) (State.placeEntry_moved (hT.mono rfl) hs))

theorem State.postCompletion_moved {T : Nat} {b : State} (hT : Within 214 T) {s c} (hs : Moved T b s) :
    Moved T b (State.postCompletion s c) := by
  unfold State.postCompletion
  exact State.attnRose_moved (hT.mono rfl) (State.placeCompletion_moved (hT.mono rfl) hs)

theorem State.flush_moved {T : Nat} {b : State} (hT : Within 222 T) :
    ∀ a a', Moved T b a' → Moved T b (State.flush a a')
  | 0, x0, h1 => by
    rw [State.flush]
    exact h1
  | (n + 1), x0, h1 => by
    rw [State.flush]
    split
    · exact Moved.ite (State.flush_moved hT _ _ (State.sendHead_moved (hT.mono rfl) h1)) h1
    · split
      · split
        · exact State.flush_moved hT _ _ (State.postCompletion_moved (hT.mono rfl) h1)
        · exact h1
      · exact h1

theorem State.flush_moves {T : Nat} {b : State} (hT : Within 222 T) {a a'} (ha' : Moved T b a') :
    Moved T b (State.flush a a') := State.flush_moved hT a a' ha'

theorem State.sendLinkctl_moved {T : Nat} {b : State} (hT : Within 12 T) {s} (hs : Moved T b s) :
    Moved T b (State.sendLinkctl s) := by
  unfold State.sendLinkctl
  extract_lets v0 v1
  have hv0 : Moved T b v0 := State.emit_moved (hT.mono rfl) hs
  exact Moved.set_link (hT.mono rfl) hv0

theorem State.pump_moved {T : Nat} {b : State} (hT : Within 222 T) {s} (hs : Moved T b s) :
    Moved T b (State.pump s) := by
  unfold State.pump
  extract_lets v0
  have hv0 : Moved T b v0 := State.flush_moves (hT.mono rfl) hs
  exact Moved.ite (State.sendLinkctl_moved (hT.mono rfl) hv0) hv0

theorem State.completeCarry_moved {T : Nat} {b : State} (hT : Within 8192 T) {s c} (hs : Moved T b s) :
    Moved T b (State.completeCarry s c) := by
  unfold State.completeCarry
  extract_lets v0 v1 v2 v3
  have hv1 : Moved T b v1 := Moved.ite (State.setCell_moved (hT.mono rfl) hs) hs
  have hv2 : Moved T b v2 := Moved.ite (State.setCell_moved (hT.mono rfl) hv1) hv1
  have hv3 : Moved T b v3 := Moved.ite (State.setCell_moved (hT.mono rfl) hv2) hv2
  exact Moved.ite (State.setCell_moved (hT.mono rfl) hv3) hs

theorem State.setCells_moved {T : Nat} {b : State} (hT : Within 8192 T) {s l} (hs : Moved T b s) :
    Moved T b (State.setCells s l) := by
  unfold State.setCells
  exact foldl_moved hs (fun u0 x1 h2 => State.setCell_moved (hT.mono rfl) h2)

theorem State.increment48_moved {T : Nat} {b : State} (hT : Within 8192 T) {s c} (hs : Moved T b s) :
    Moved T b (State.increment48 s c) := by
  unfold State.increment48
  extract_lets v0
  have hv0 : Moved T b v0 := State.completeCarry_moved (hT.mono rfl) hs
  exact State.setCells_moved (hT.mono rfl) hv0

theorem State.raiseCell_moved {T : Nat} {b : State} (hT : Within 8192 T) {s n} (hs : Moved T b s) :
    Moved T b (State.raiseCell s n) := by
  unfold State.raiseCell
  exact State.setCell_moved (hT.mono rfl) hs

theorem State.cellBit_moved {T : Nat} {b : State} (hT : Within 8192 T) {s n bx v} (hs : Moved T b s) :
    Moved T b (State.cellBit s n bx v) := by
  unfold State.cellBit
  exact State.setCell_moved (hT.mono rfl) hs

theorem State.cellBits_moved {T : Nat} {b : State} (hT : Within 8192 T) {s n lo w v} (hs : Moved T b s) :
    Moved T b (State.cellBits s n lo w v) := by
  unfold State.cellBits
  exact State.setCell_moved (hT.mono rfl) hs

theorem State.countReset_moved {T : Nat} {b : State} (hT : Within 8192 T) {s source} (hs : Moved T b s) :
    Moved T b (State.countReset s source) := by
  unfold State.countReset
  exact State.raiseCell_moved (hT.mono rfl) (State.increment48_moved (hT.mono rfl) hs)

theorem State.latchWake_moved {T : Nat} {b : State} (hT : Within 8192 T) {s cause} (hs : Moved T b s) :
    Moved T b (State.latchWake s cause) := by
  unfold State.latchWake
  extract_lets v0 v1
  exact State.cellBit_moved (hT.mono rfl) (State.setCell_moved (hT.mono rfl) hs)

theorem State.clearWake_moved {T : Nat} {b : State} (hT : Within 8192 T) {s mask} (hs : Moved T b s) :
    Moved T b (State.clearWake s mask) := by
  unfold State.clearWake
  extract_lets v0
  have hv0 : Moved T b v0 := State.setCell_moved (hT.mono rfl) hs
  exact Moved.ite (State.cellBit_moved (hT.mono rfl) hv0) hv0

theorem State.endDataPhase_moved {T : Nat} {b : State} (hT : Within 318 T) {s q} (hs : Moved T b s) :
    Moved T b (State.endDataPhase s q) := by
  unfold State.endDataPhase
  split
  · exact Moved.ite hs (State.complete_moved (hT.mono rfl) hs)
  · exact hs

theorem State.endDataPhases_moved {T : Nat} {b : State} (hT : Within 318 T) {s} (hs : Moved T b s) :
    Moved T b (State.endDataPhases s) := by
  unfold State.endDataPhases
  exact foldl_moved hs (fun u0 x1 h2 => State.endDataPhase_moved (hT.mono rfl) h2)

theorem State.enterSafe_moved {T : Nat} {b : State} (hT : Within 262462 T) {s kind x} (hs : Moved T b s) :
    Moved T b (State.enterSafe s kind x) := by
  unfold State.enterSafe
  split
  · exact hs
  · extract_lets v0 v1 v2 v3 v4 v5 v6 v7
    have hv0 : Moved T b v0 := State.wr_moved (hT.mono rfl) hs
    have hv1 : Moved T b v1 := State.wr_moved (hT.mono rfl) hv0
    have hv3 : Moved T b v3 := Moved.set_esc (hT.mono rfl) hv1
    have hv4 : Moved T b v4 := State.wr_moved (hT.mono rfl) hv3
    have hv5 : Moved T b v5 := State.wr_moved (hT.mono rfl) hv4
    have hv6 : Moved T b v6 := State.wr_moved (hT.mono rfl) hv5
    have hv7 : Moved T b v7 := State.wr_moved (hT.mono rfl) hv6
    exact State.endDataPhases_moved (hT.mono rfl) (State.bump_moved (hT.mono rfl) hv7)

theorem State.report_moved {T : Nat} {b : State} (hT : Within 262654 T) {s src bank force} (hs : Moved T b s) :
    Moved T b (State.report s src bank force) := by
  unfold State.report
  extract_lets v0 v1 v2 v3 v4
  have hv3 : Moved T b v3 := State.wr_moved (hT.mono rfl) hs
  have hv4 : Moved T b v4 := Moved.ite (Moved.ite (State.post_moved (hT.mono rfl) hv3) hv3) hs
  exact Moved.ite (State.enterSafe_moved (hT.mono rfl) hv4) hv4

theorem State.headerParity_moved {T : Nat} {b : State} (hT : Within 262462 T) {s page bank} (hs : Moved T b s) :
    Moved T b (State.headerParity s page bank) := by
  unfold State.headerParity
  extract_lets v0 v1
  exact State.enterSafe_moved (hT.mono rfl) (State.wr_moved (hT.mono rfl) hs)

theorem State.escEval_moved {T : Nat} {b : State} (hT : Within 262654 T) {s} (hs : Moved T b s) :
    Moved T b (State.escEval s) := by
  unfold State.escEval
  split
  · exact hs
  · split
    · exact State.enterSafe_moved (hT.mono rfl) hs
    · split
      · extract_lets v0 v1 v2
        have hv0 : Moved T b v0 := State.wr_moved (hT.mono rfl) hs
        have hv2 : Moved T b v2 := Moved.ite hs (State.raise_moved (hT.mono rfl) (Moved.set_esc (hT.mono rfl) hv0))
        exact Moved.ite (State.enterSafe_moved (hT.mono rfl) hv2) hv2
      · split
        · refine State.bump_moved (hT.mono rfl) ?_
          refine State.raise_moved (hT.mono rfl) ?_
          extract_lets v3 v4
          have hv3 : Moved T b v3 := State.wr_moved (hT.mono rfl) hs
          exact Moved.set_esc (hT.mono rfl) hv3
        · exact hs

theorem State.escTick_moved {T : Nat} {b : State} (hT : Within 262654 T) {s} (hs : Moved T b s) :
    Moved T b (State.escTick s) := by
  unfold State.escTick
  extract_lets v0 v1
  have hv1 : Moved T b v1 := Moved.ite (Moved.set_esc (hT.mono rfl) hs) hs
  exact State.escEval_moved (hT.mono rfl) hv1

theorem State.writeAlert_moved {T : Nat} {b : State} (hT : Within 270336 T) {s causes} (hs : Moved T b s) :
    Moved T b (State.writeAlert s causes) := by
  unfold State.writeAlert
  extract_lets v0 v1
  have hv0 : Moved T b v0 := State.cellBit_moved (hT.mono rfl) (State.setCell_moved (hT.mono rfl) hs)
  exact Moved.set_esc (hT.mono rfl) hv0

theorem State.alertUpdate_moved {T : Nat} {b : State} (hT : Within 270336 T) {s} (hs : Moved T b s) :
    Moved T b (State.alertUpdate s) := by
  unfold State.alertUpdate
  exact Moved.ite (State.writeAlert_moved (hT.mono rfl) hs) hs

theorem State.headerCheck_moved {T : Nat} {b : State} (hT : Within 262462 T) {s} (hs : Moved T b s) :
    Moved T b (State.headerCheck s) := by
  unfold State.headerCheck
  exact foldl_moved hs (fun u0 x1 h2 => State.headerParity_moved (hT.mono rfl) h2)

theorem State.relatchAlarm_moved {T : Nat} {b : State} (hT : Within 8192 T) {s} (hs : Moved T b s) :
    Moved T b (State.relatchAlarm s) := by
  unfold State.relatchAlarm
  exact Moved.ite (State.latchWake_moved (hT.mono rfl) hs) hs

theorem State.settle_moved {T : Nat} {b : State} (hT : Within 270846 T) {s} (hs : Moved T b s) :
    Moved T b (State.settle s) := by
  unfold State.settle
  split
  · exact State.alertUpdate_moved (hT.mono rfl) (State.endEdge_moved (hT.mono rfl) (State.pump_moved (hT.mono rfl)
        (State.endEdge_moved (hT.mono rfl) (State.escEval_moved (hT.mono rfl) (State.relatchAlarm_moved (hT.mono rfl)
        (State.headerCheck_moved (hT.mono rfl) hs))))))
  · exact hs

theorem State.done_moved {T : Nat} {b : State} (hT : Within 270846 T) {s} (hs : Moved T b s) :
    MovedA T b (State.done s) := by
  unfold State.done
  exact MovedA.next (State.settle_moved (hT.mono rfl) hs)

end Sys2Proof.Machine
end

