-- ==== Sys2Proof/Laws/State.lean ====
section
/-!
SUPPORT. One lemma per field per update: an update changes the part it names and no other; what a register or cell reads as
after a write.
-/
namespace Sys2Proof.Machine

/-! wr. -/

@[simp] theorem State.wr_pending (s : State) (f : Field) (v : Nat) : (s.wr f v).pending = s.pending := rfl
@[simp] theorem State.wr_wire (s : State) (f : Field) (v : Nat) : (s.wr f v).wire = s.wire := rfl
@[simp] theorem State.wr_link (s : State) (f : Field) (v : Nat) : (s.wr f v).link = s.link := rfl
@[simp] theorem State.wr_cmds (s : State) (f : Field) (v : Nat) : (s.wr f v).cmds = s.cmds := rfl
@[simp] theorem State.wr_descs (s : State) (f : Field) (v : Nat) : (s.wr f v).descs = s.descs := rfl
@[simp] theorem State.wr_attn (s : State) (f : Field) (v : Nat) : (s.wr f v).attn = s.attn := rfl
@[simp] theorem State.wr_seqs (s : State) (f : Field) (v : Nat) : (s.wr f v).seqs = s.seqs := rfl
@[simp] theorem State.wr_origs (s : State) (f : Field) (v : Nat) : (s.wr f v).origs = s.origs := rfl
@[simp] theorem State.wr_slices (s : State) (f : Field) (v : Nat) : (s.wr f v).slices = s.slices := rfl
@[simp] theorem State.wr_shelf (s : State) (f : Field) (v : Nat) : (s.wr f v).shelf = s.shelf := rfl
@[simp] theorem State.wr_flash (s : State) (f : Field) (v : Nat) : (s.wr f v).flash = s.flash := rfl
@[simp] theorem State.wr_power (s : State) (f : Field) (v : Nat) : (s.wr f v).power = s.power := rfl
@[simp] theorem State.wr_crust (s : State) (f : Field) (v : Nat) : (s.wr f v).crust = s.crust := rfl
@[simp] theorem State.wr_sleepA (s : State) (f : Field) (v : Nat) : (s.wr f v).sleepA = s.sleepA := rfl
@[simp] theorem State.wr_sleepB (s : State) (f : Field) (v : Nat) : (s.wr f v).sleepB = s.sleepB := rfl
@[simp] theorem State.wr_opt (s : State) (f : Field) (v : Nat) : (s.wr f v).opt = s.opt := rfl
@[simp] theorem State.wr_fw (s : State) (f : Field) (v : Nat) : (s.wr f v).fw = s.fw := rfl
@[simp] theorem State.wr_esc (s : State) (f : Field) (v : Nat) : (s.wr f v).esc = s.esc := rfl
@[simp] theorem State.wr_temp (s : State) (f : Field) (v : Nat) : (s.wr f v).temp = s.temp := rfl
@[simp] theorem State.wr_fuses (s : State) (f : Field) (v : Nat) : (s.wr f v).fuses = s.fuses := rfl
@[simp] theorem State.wr_tap (s : State) (f : Field) (v : Nat) : (s.wr f v).tap = s.tap := rfl
@[simp] theorem State.wr_draws (s : State) (f : Field) (v : Nat) : (s.wr f v).draws = s.draws := rfl
@[simp] theorem State.wr_keys (s : State) (f : Field) (v : Nat) : (s.wr f v).keys = s.keys := rfl

/-! bump. -/

@[simp] theorem State.bump_pending (s : State) (f : Field) (n : Nat) : (s.bump f n).pending = s.pending := rfl
@[simp] theorem State.bump_wire (s : State) (f : Field) (n : Nat) : (s.bump f n).wire = s.wire := rfl
@[simp] theorem State.bump_link (s : State) (f : Field) (n : Nat) : (s.bump f n).link = s.link := rfl
@[simp] theorem State.bump_cmds (s : State) (f : Field) (n : Nat) : (s.bump f n).cmds = s.cmds := rfl
@[simp] theorem State.bump_descs (s : State) (f : Field) (n : Nat) : (s.bump f n).descs = s.descs := rfl
@[simp] theorem State.bump_attn (s : State) (f : Field) (n : Nat) : (s.bump f n).attn = s.attn := rfl
@[simp] theorem State.bump_seqs (s : State) (f : Field) (n : Nat) : (s.bump f n).seqs = s.seqs := rfl
@[simp] theorem State.bump_origs (s : State) (f : Field) (n : Nat) : (s.bump f n).origs = s.origs := rfl
@[simp] theorem State.bump_slices (s : State) (f : Field) (n : Nat) : (s.bump f n).slices = s.slices := rfl
@[simp] theorem State.bump_shelf (s : State) (f : Field) (n : Nat) : (s.bump f n).shelf = s.shelf := rfl
@[simp] theorem State.bump_flash (s : State) (f : Field) (n : Nat) : (s.bump f n).flash = s.flash := rfl
@[simp] theorem State.bump_power (s : State) (f : Field) (n : Nat) : (s.bump f n).power = s.power := rfl
@[simp] theorem State.bump_crust (s : State) (f : Field) (n : Nat) : (s.bump f n).crust = s.crust := rfl
@[simp] theorem State.bump_sleepA (s : State) (f : Field) (n : Nat) : (s.bump f n).sleepA = s.sleepA := rfl
@[simp] theorem State.bump_sleepB (s : State) (f : Field) (n : Nat) : (s.bump f n).sleepB = s.sleepB := rfl
@[simp] theorem State.bump_opt (s : State) (f : Field) (n : Nat) : (s.bump f n).opt = s.opt := rfl
@[simp] theorem State.bump_fw (s : State) (f : Field) (n : Nat) : (s.bump f n).fw = s.fw := rfl
@[simp] theorem State.bump_esc (s : State) (f : Field) (n : Nat) : (s.bump f n).esc = s.esc := rfl
@[simp] theorem State.bump_temp (s : State) (f : Field) (n : Nat) : (s.bump f n).temp = s.temp := rfl
@[simp] theorem State.bump_fuses (s : State) (f : Field) (n : Nat) : (s.bump f n).fuses = s.fuses := rfl
@[simp] theorem State.bump_tap (s : State) (f : Field) (n : Nat) : (s.bump f n).tap = s.tap := rfl
@[simp] theorem State.bump_draws (s : State) (f : Field) (n : Nat) : (s.bump f n).draws = s.draws := rfl
@[simp] theorem State.bump_keys (s : State) (f : Field) (n : Nat) : (s.bump f n).keys = s.keys := rfl

/-! setSlice. -/

@[simp] theorem State.setSlice_pending (s : State) (i : Nat) (f : Slice → Slice) : (s.setSlice i f).pending = s.pending := rfl
@[simp] theorem State.setSlice_regs (s : State) (i : Nat) (f : Slice → Slice) : (s.setSlice i f).regs = s.regs := rfl
@[simp] theorem State.setSlice_wire (s : State) (i : Nat) (f : Slice → Slice) : (s.setSlice i f).wire = s.wire := rfl
@[simp] theorem State.setSlice_link (s : State) (i : Nat) (f : Slice → Slice) : (s.setSlice i f).link = s.link := rfl
@[simp] theorem State.setSlice_cmds (s : State) (i : Nat) (f : Slice → Slice) : (s.setSlice i f).cmds = s.cmds := rfl
@[simp] theorem State.setSlice_descs (s : State) (i : Nat) (f : Slice → Slice) : (s.setSlice i f).descs = s.descs := rfl
@[simp] theorem State.setSlice_attn (s : State) (i : Nat) (f : Slice → Slice) : (s.setSlice i f).attn = s.attn := rfl
@[simp] theorem State.setSlice_seqs (s : State) (i : Nat) (f : Slice → Slice) : (s.setSlice i f).seqs = s.seqs := rfl
@[simp] theorem State.setSlice_origs (s : State) (i : Nat) (f : Slice → Slice) : (s.setSlice i f).origs = s.origs := rfl
@[simp] theorem State.setSlice_shelf (s : State) (i : Nat) (f : Slice → Slice) : (s.setSlice i f).shelf = s.shelf := rfl
@[simp] theorem State.setSlice_flash (s : State) (i : Nat) (f : Slice → Slice) : (s.setSlice i f).flash = s.flash := rfl
@[simp] theorem State.setSlice_power (s : State) (i : Nat) (f : Slice → Slice) : (s.setSlice i f).power = s.power := rfl
@[simp] theorem State.setSlice_crust (s : State) (i : Nat) (f : Slice → Slice) : (s.setSlice i f).crust = s.crust := rfl
@[simp] theorem State.setSlice_sleepA (s : State) (i : Nat) (f : Slice → Slice) : (s.setSlice i f).sleepA = s.sleepA := rfl
@[simp] theorem State.setSlice_sleepB (s : State) (i : Nat) (f : Slice → Slice) : (s.setSlice i f).sleepB = s.sleepB := rfl
@[simp] theorem State.setSlice_opt (s : State) (i : Nat) (f : Slice → Slice) : (s.setSlice i f).opt = s.opt := rfl
@[simp] theorem State.setSlice_fw (s : State) (i : Nat) (f : Slice → Slice) : (s.setSlice i f).fw = s.fw := rfl
@[simp] theorem State.setSlice_esc (s : State) (i : Nat) (f : Slice → Slice) : (s.setSlice i f).esc = s.esc := rfl
@[simp] theorem State.setSlice_temp (s : State) (i : Nat) (f : Slice → Slice) : (s.setSlice i f).temp = s.temp := rfl
@[simp] theorem State.setSlice_fuses (s : State) (i : Nat) (f : Slice → Slice) : (s.setSlice i f).fuses = s.fuses := rfl
@[simp] theorem State.setSlice_tap (s : State) (i : Nat) (f : Slice → Slice) : (s.setSlice i f).tap = s.tap := rfl
@[simp] theorem State.setSlice_draws (s : State) (i : Nat) (f : Slice → Slice) : (s.setSlice i f).draws = s.draws := rfl
@[simp] theorem State.setSlice_keys (s : State) (i : Nat) (f : Slice → Slice) : (s.setSlice i f).keys = s.keys := rfl

/-! setCmd. -/

@[simp] theorem State.setCmd_pending (s : State) (q : Nat) (f : Cmd → Cmd) : (s.setCmd q f).pending = s.pending := rfl
@[simp] theorem State.setCmd_regs (s : State) (q : Nat) (f : Cmd → Cmd) : (s.setCmd q f).regs = s.regs := rfl
@[simp] theorem State.setCmd_wire (s : State) (q : Nat) (f : Cmd → Cmd) : (s.setCmd q f).wire = s.wire := rfl
@[simp] theorem State.setCmd_link (s : State) (q : Nat) (f : Cmd → Cmd) : (s.setCmd q f).link = s.link := rfl
@[simp] theorem State.setCmd_descs (s : State) (q : Nat) (f : Cmd → Cmd) : (s.setCmd q f).descs = s.descs := rfl
@[simp] theorem State.setCmd_attn (s : State) (q : Nat) (f : Cmd → Cmd) : (s.setCmd q f).attn = s.attn := rfl
@[simp] theorem State.setCmd_seqs (s : State) (q : Nat) (f : Cmd → Cmd) : (s.setCmd q f).seqs = s.seqs := rfl
@[simp] theorem State.setCmd_origs (s : State) (q : Nat) (f : Cmd → Cmd) : (s.setCmd q f).origs = s.origs := rfl
@[simp] theorem State.setCmd_slices (s : State) (q : Nat) (f : Cmd → Cmd) : (s.setCmd q f).slices = s.slices := rfl
@[simp] theorem State.setCmd_shelf (s : State) (q : Nat) (f : Cmd → Cmd) : (s.setCmd q f).shelf = s.shelf := rfl
@[simp] theorem State.setCmd_flash (s : State) (q : Nat) (f : Cmd → Cmd) : (s.setCmd q f).flash = s.flash := rfl
@[simp] theorem State.setCmd_power (s : State) (q : Nat) (f : Cmd → Cmd) : (s.setCmd q f).power = s.power := rfl
@[simp] theorem State.setCmd_crust (s : State) (q : Nat) (f : Cmd → Cmd) : (s.setCmd q f).crust = s.crust := rfl
@[simp] theorem State.setCmd_sleepA (s : State) (q : Nat) (f : Cmd → Cmd) : (s.setCmd q f).sleepA = s.sleepA := rfl
@[simp] theorem State.setCmd_sleepB (s : State) (q : Nat) (f : Cmd → Cmd) : (s.setCmd q f).sleepB = s.sleepB := rfl
@[simp] theorem State.setCmd_opt (s : State) (q : Nat) (f : Cmd → Cmd) : (s.setCmd q f).opt = s.opt := rfl
@[simp] theorem State.setCmd_fw (s : State) (q : Nat) (f : Cmd → Cmd) : (s.setCmd q f).fw = s.fw := rfl
@[simp] theorem State.setCmd_esc (s : State) (q : Nat) (f : Cmd → Cmd) : (s.setCmd q f).esc = s.esc := rfl
@[simp] theorem State.setCmd_temp (s : State) (q : Nat) (f : Cmd → Cmd) : (s.setCmd q f).temp = s.temp := rfl
@[simp] theorem State.setCmd_fuses (s : State) (q : Nat) (f : Cmd → Cmd) : (s.setCmd q f).fuses = s.fuses := rfl
@[simp] theorem State.setCmd_tap (s : State) (q : Nat) (f : Cmd → Cmd) : (s.setCmd q f).tap = s.tap := rfl
@[simp] theorem State.setCmd_draws (s : State) (q : Nat) (f : Cmd → Cmd) : (s.setCmd q f).draws = s.draws := rfl
@[simp] theorem State.setCmd_keys (s : State) (q : Nat) (f : Cmd → Cmd) : (s.setCmd q f).keys = s.keys := rfl

/-! setDesc. -/

@[simp] theorem State.setDesc_pending (s : State) (q : Nat) (f : Desc → Desc) : (s.setDesc q f).pending = s.pending := rfl
@[simp] theorem State.setDesc_regs (s : State) (q : Nat) (f : Desc → Desc) : (s.setDesc q f).regs = s.regs := rfl
@[simp] theorem State.setDesc_wire (s : State) (q : Nat) (f : Desc → Desc) : (s.setDesc q f).wire = s.wire := rfl
@[simp] theorem State.setDesc_link (s : State) (q : Nat) (f : Desc → Desc) : (s.setDesc q f).link = s.link := rfl
@[simp] theorem State.setDesc_cmds (s : State) (q : Nat) (f : Desc → Desc) : (s.setDesc q f).cmds = s.cmds := rfl
@[simp] theorem State.setDesc_attn (s : State) (q : Nat) (f : Desc → Desc) : (s.setDesc q f).attn = s.attn := rfl
@[simp] theorem State.setDesc_seqs (s : State) (q : Nat) (f : Desc → Desc) : (s.setDesc q f).seqs = s.seqs := rfl
@[simp] theorem State.setDesc_origs (s : State) (q : Nat) (f : Desc → Desc) : (s.setDesc q f).origs = s.origs := rfl
@[simp] theorem State.setDesc_slices (s : State) (q : Nat) (f : Desc → Desc) : (s.setDesc q f).slices = s.slices := rfl
@[simp] theorem State.setDesc_shelf (s : State) (q : Nat) (f : Desc → Desc) : (s.setDesc q f).shelf = s.shelf := rfl
@[simp] theorem State.setDesc_flash (s : State) (q : Nat) (f : Desc → Desc) : (s.setDesc q f).flash = s.flash := rfl
@[simp] theorem State.setDesc_power (s : State) (q : Nat) (f : Desc → Desc) : (s.setDesc q f).power = s.power := rfl
@[simp] theorem State.setDesc_crust (s : State) (q : Nat) (f : Desc → Desc) : (s.setDesc q f).crust = s.crust := rfl
@[simp] theorem State.setDesc_sleepA (s : State) (q : Nat) (f : Desc → Desc) : (s.setDesc q f).sleepA = s.sleepA := rfl
@[simp] theorem State.setDesc_sleepB (s : State) (q : Nat) (f : Desc → Desc) : (s.setDesc q f).sleepB = s.sleepB := rfl
@[simp] theorem State.setDesc_opt (s : State) (q : Nat) (f : Desc → Desc) : (s.setDesc q f).opt = s.opt := rfl
@[simp] theorem State.setDesc_fw (s : State) (q : Nat) (f : Desc → Desc) : (s.setDesc q f).fw = s.fw := rfl
@[simp] theorem State.setDesc_esc (s : State) (q : Nat) (f : Desc → Desc) : (s.setDesc q f).esc = s.esc := rfl
@[simp] theorem State.setDesc_temp (s : State) (q : Nat) (f : Desc → Desc) : (s.setDesc q f).temp = s.temp := rfl
@[simp] theorem State.setDesc_fuses (s : State) (q : Nat) (f : Desc → Desc) : (s.setDesc q f).fuses = s.fuses := rfl
@[simp] theorem State.setDesc_tap (s : State) (q : Nat) (f : Desc → Desc) : (s.setDesc q f).tap = s.tap := rfl
@[simp] theorem State.setDesc_draws (s : State) (q : Nat) (f : Desc → Desc) : (s.setDesc q f).draws = s.draws := rfl
@[simp] theorem State.setDesc_keys (s : State) (q : Nat) (f : Desc → Desc) : (s.setDesc q f).keys = s.keys := rfl

/-! onFlash. -/

@[simp] theorem State.onFlash_pending (s : State) (f : Flash → Flash) : (s.onFlash f).pending = s.pending := rfl
@[simp] theorem State.onFlash_regs (s : State) (f : Flash → Flash) : (s.onFlash f).regs = s.regs := rfl
@[simp] theorem State.onFlash_wire (s : State) (f : Flash → Flash) : (s.onFlash f).wire = s.wire := rfl
@[simp] theorem State.onFlash_link (s : State) (f : Flash → Flash) : (s.onFlash f).link = s.link := rfl
@[simp] theorem State.onFlash_cmds (s : State) (f : Flash → Flash) : (s.onFlash f).cmds = s.cmds := rfl
@[simp] theorem State.onFlash_descs (s : State) (f : Flash → Flash) : (s.onFlash f).descs = s.descs := rfl
@[simp] theorem State.onFlash_attn (s : State) (f : Flash → Flash) : (s.onFlash f).attn = s.attn := rfl
@[simp] theorem State.onFlash_seqs (s : State) (f : Flash → Flash) : (s.onFlash f).seqs = s.seqs := rfl
@[simp] theorem State.onFlash_origs (s : State) (f : Flash → Flash) : (s.onFlash f).origs = s.origs := rfl
@[simp] theorem State.onFlash_slices (s : State) (f : Flash → Flash) : (s.onFlash f).slices = s.slices := rfl
@[simp] theorem State.onFlash_shelf (s : State) (f : Flash → Flash) : (s.onFlash f).shelf = s.shelf := rfl
@[simp] theorem State.onFlash_power (s : State) (f : Flash → Flash) : (s.onFlash f).power = s.power := rfl
@[simp] theorem State.onFlash_crust (s : State) (f : Flash → Flash) : (s.onFlash f).crust = s.crust := rfl
@[simp] theorem State.onFlash_sleepA (s : State) (f : Flash → Flash) : (s.onFlash f).sleepA = s.sleepA := rfl
@[simp] theorem State.onFlash_sleepB (s : State) (f : Flash → Flash) : (s.onFlash f).sleepB = s.sleepB := rfl
@[simp] theorem State.onFlash_opt (s : State) (f : Flash → Flash) : (s.onFlash f).opt = s.opt := rfl
@[simp] theorem State.onFlash_fw (s : State) (f : Flash → Flash) : (s.onFlash f).fw = s.fw := rfl
@[simp] theorem State.onFlash_esc (s : State) (f : Flash → Flash) : (s.onFlash f).esc = s.esc := rfl
@[simp] theorem State.onFlash_temp (s : State) (f : Flash → Flash) : (s.onFlash f).temp = s.temp := rfl
@[simp] theorem State.onFlash_fuses (s : State) (f : Flash → Flash) : (s.onFlash f).fuses = s.fuses := rfl
@[simp] theorem State.onFlash_tap (s : State) (f : Flash → Flash) : (s.onFlash f).tap = s.tap := rfl
@[simp] theorem State.onFlash_draws (s : State) (f : Flash → Flash) : (s.onFlash f).draws = s.draws := rfl
@[simp] theorem State.onFlash_keys (s : State) (f : Flash → Flash) : (s.onFlash f).keys = s.keys := rfl

/-! setDie. -/

@[simp] theorem State.setDie_pending (s : State) (d : Nat) (f : Die → Die) : (s.setDie d f).pending = s.pending := rfl
@[simp] theorem State.setDie_regs (s : State) (d : Nat) (f : Die → Die) : (s.setDie d f).regs = s.regs := rfl
@[simp] theorem State.setDie_wire (s : State) (d : Nat) (f : Die → Die) : (s.setDie d f).wire = s.wire := rfl
@[simp] theorem State.setDie_link (s : State) (d : Nat) (f : Die → Die) : (s.setDie d f).link = s.link := rfl
@[simp] theorem State.setDie_cmds (s : State) (d : Nat) (f : Die → Die) : (s.setDie d f).cmds = s.cmds := rfl
@[simp] theorem State.setDie_descs (s : State) (d : Nat) (f : Die → Die) : (s.setDie d f).descs = s.descs := rfl
@[simp] theorem State.setDie_attn (s : State) (d : Nat) (f : Die → Die) : (s.setDie d f).attn = s.attn := rfl
@[simp] theorem State.setDie_seqs (s : State) (d : Nat) (f : Die → Die) : (s.setDie d f).seqs = s.seqs := rfl
@[simp] theorem State.setDie_origs (s : State) (d : Nat) (f : Die → Die) : (s.setDie d f).origs = s.origs := rfl
@[simp] theorem State.setDie_slices (s : State) (d : Nat) (f : Die → Die) : (s.setDie d f).slices = s.slices := rfl
@[simp] theorem State.setDie_shelf (s : State) (d : Nat) (f : Die → Die) : (s.setDie d f).shelf = s.shelf := rfl
@[simp] theorem State.setDie_power (s : State) (d : Nat) (f : Die → Die) : (s.setDie d f).power = s.power := rfl
@[simp] theorem State.setDie_crust (s : State) (d : Nat) (f : Die → Die) : (s.setDie d f).crust = s.crust := rfl
@[simp] theorem State.setDie_sleepA (s : State) (d : Nat) (f : Die → Die) : (s.setDie d f).sleepA = s.sleepA := rfl
@[simp] theorem State.setDie_sleepB (s : State) (d : Nat) (f : Die → Die) : (s.setDie d f).sleepB = s.sleepB := rfl
@[simp] theorem State.setDie_opt (s : State) (d : Nat) (f : Die → Die) : (s.setDie d f).opt = s.opt := rfl
@[simp] theorem State.setDie_fw (s : State) (d : Nat) (f : Die → Die) : (s.setDie d f).fw = s.fw := rfl
@[simp] theorem State.setDie_esc (s : State) (d : Nat) (f : Die → Die) : (s.setDie d f).esc = s.esc := rfl
@[simp] theorem State.setDie_temp (s : State) (d : Nat) (f : Die → Die) : (s.setDie d f).temp = s.temp := rfl
@[simp] theorem State.setDie_fuses (s : State) (d : Nat) (f : Die → Die) : (s.setDie d f).fuses = s.fuses := rfl
@[simp] theorem State.setDie_tap (s : State) (d : Nat) (f : Die → Die) : (s.setDie d f).tap = s.tap := rfl
@[simp] theorem State.setDie_draws (s : State) (d : Nat) (f : Die → Die) : (s.setDie d f).draws = s.draws := rfl
@[simp] theorem State.setDie_keys (s : State) (d : Nat) (f : Die → Die) : (s.setDie d f).keys = s.keys := rfl

/-! enqueue. -/

@[simp] theorem State.enqueue_pending (s : State) (f : UpFrame) : (s.enqueue f).pending = s.pending := rfl
@[simp] theorem State.enqueue_regs (s : State) (f : UpFrame) : (s.enqueue f).regs = s.regs := rfl
@[simp] theorem State.enqueue_wire (s : State) (f : UpFrame) : (s.enqueue f).wire = s.wire := rfl
@[simp] theorem State.enqueue_cmds (s : State) (f : UpFrame) : (s.enqueue f).cmds = s.cmds := rfl
@[simp] theorem State.enqueue_descs (s : State) (f : UpFrame) : (s.enqueue f).descs = s.descs := rfl
@[simp] theorem State.enqueue_attn (s : State) (f : UpFrame) : (s.enqueue f).attn = s.attn := rfl
@[simp] theorem State.enqueue_seqs (s : State) (f : UpFrame) : (s.enqueue f).seqs = s.seqs := rfl
@[simp] theorem State.enqueue_origs (s : State) (f : UpFrame) : (s.enqueue f).origs = s.origs := rfl
@[simp] theorem State.enqueue_slices (s : State) (f : UpFrame) : (s.enqueue f).slices = s.slices := rfl
@[simp] theorem State.enqueue_shelf (s : State) (f : UpFrame) : (s.enqueue f).shelf = s.shelf := rfl
@[simp] theorem State.enqueue_flash (s : State) (f : UpFrame) : (s.enqueue f).flash = s.flash := rfl
@[simp] theorem State.enqueue_power (s : State) (f : UpFrame) : (s.enqueue f).power = s.power := rfl
@[simp] theorem State.enqueue_crust (s : State) (f : UpFrame) : (s.enqueue f).crust = s.crust := rfl
@[simp] theorem State.enqueue_sleepA (s : State) (f : UpFrame) : (s.enqueue f).sleepA = s.sleepA := rfl
@[simp] theorem State.enqueue_sleepB (s : State) (f : UpFrame) : (s.enqueue f).sleepB = s.sleepB := rfl
@[simp] theorem State.enqueue_opt (s : State) (f : UpFrame) : (s.enqueue f).opt = s.opt := rfl
@[simp] theorem State.enqueue_fw (s : State) (f : UpFrame) : (s.enqueue f).fw = s.fw := rfl
@[simp] theorem State.enqueue_esc (s : State) (f : UpFrame) : (s.enqueue f).esc = s.esc := rfl
@[simp] theorem State.enqueue_temp (s : State) (f : UpFrame) : (s.enqueue f).temp = s.temp := rfl
@[simp] theorem State.enqueue_fuses (s : State) (f : UpFrame) : (s.enqueue f).fuses = s.fuses := rfl
@[simp] theorem State.enqueue_tap (s : State) (f : UpFrame) : (s.enqueue f).tap = s.tap := rfl
@[simp] theorem State.enqueue_draws (s : State) (f : UpFrame) : (s.enqueue f).draws = s.draws := rfl
@[simp] theorem State.enqueue_keys (s : State) (f : UpFrame) : (s.enqueue f).keys = s.keys := rfl

/-! loseEntry. -/

@[simp] theorem State.loseEntry_pending (s : State) (ring : Nat) : (s.loseEntry ring).pending = s.pending := rfl
@[simp] theorem State.loseEntry_wire (s : State) (ring : Nat) : (s.loseEntry ring).wire = s.wire := rfl
@[simp] theorem State.loseEntry_link (s : State) (ring : Nat) : (s.loseEntry ring).link = s.link := rfl
@[simp] theorem State.loseEntry_cmds (s : State) (ring : Nat) : (s.loseEntry ring).cmds = s.cmds := rfl
@[simp] theorem State.loseEntry_descs (s : State) (ring : Nat) : (s.loseEntry ring).descs = s.descs := rfl
@[simp] theorem State.loseEntry_attn (s : State) (ring : Nat) : (s.loseEntry ring).attn = s.attn := rfl
@[simp] theorem State.loseEntry_seqs (s : State) (ring : Nat) : (s.loseEntry ring).seqs = s.seqs := rfl
@[simp] theorem State.loseEntry_origs (s : State) (ring : Nat) : (s.loseEntry ring).origs = s.origs := rfl
@[simp] theorem State.loseEntry_slices (s : State) (ring : Nat) : (s.loseEntry ring).slices = s.slices := rfl
@[simp] theorem State.loseEntry_shelf (s : State) (ring : Nat) : (s.loseEntry ring).shelf = s.shelf := rfl
@[simp] theorem State.loseEntry_flash (s : State) (ring : Nat) : (s.loseEntry ring).flash = s.flash := rfl
@[simp] theorem State.loseEntry_power (s : State) (ring : Nat) : (s.loseEntry ring).power = s.power := rfl
@[simp] theorem State.loseEntry_crust (s : State) (ring : Nat) : (s.loseEntry ring).crust = s.crust := rfl
@[simp] theorem State.loseEntry_sleepA (s : State) (ring : Nat) : (s.loseEntry ring).sleepA = s.sleepA := rfl
@[simp] theorem State.loseEntry_sleepB (s : State) (ring : Nat) : (s.loseEntry ring).sleepB = s.sleepB := rfl
@[simp] theorem State.loseEntry_opt (s : State) (ring : Nat) : (s.loseEntry ring).opt = s.opt := rfl
@[simp] theorem State.loseEntry_fw (s : State) (ring : Nat) : (s.loseEntry ring).fw = s.fw := rfl
@[simp] theorem State.loseEntry_esc (s : State) (ring : Nat) : (s.loseEntry ring).esc = s.esc := rfl
@[simp] theorem State.loseEntry_temp (s : State) (ring : Nat) : (s.loseEntry ring).temp = s.temp := rfl
@[simp] theorem State.loseEntry_fuses (s : State) (ring : Nat) : (s.loseEntry ring).fuses = s.fuses := rfl
@[simp] theorem State.loseEntry_tap (s : State) (ring : Nat) : (s.loseEntry ring).tap = s.tap := rfl
@[simp] theorem State.loseEntry_draws (s : State) (ring : Nat) : (s.loseEntry ring).draws = s.draws := rfl
@[simp] theorem State.loseEntry_keys (s : State) (ring : Nat) : (s.loseEntry ring).keys = s.keys := rfl

/-! onLink. -/

@[simp] theorem State.onLink_pending (s : State) (f : Link → Link) : (s.onLink f).pending = s.pending := rfl
@[simp] theorem State.onLink_regs (s : State) (f : Link → Link) : (s.onLink f).regs = s.regs := rfl
@[simp] theorem State.onLink_wire (s : State) (f : Link → Link) : (s.onLink f).wire = s.wire := rfl
@[simp] theorem State.onLink_cmds (s : State) (f : Link → Link) : (s.onLink f).cmds = s.cmds := rfl
@[simp] theorem State.onLink_descs (s : State) (f : Link → Link) : (s.onLink f).descs = s.descs := rfl
@[simp] theorem State.onLink_attn (s : State) (f : Link → Link) : (s.onLink f).attn = s.attn := rfl
@[simp] theorem State.onLink_seqs (s : State) (f : Link → Link) : (s.onLink f).seqs = s.seqs := rfl
@[simp] theorem State.onLink_origs (s : State) (f : Link → Link) : (s.onLink f).origs = s.origs := rfl
@[simp] theorem State.onLink_slices (s : State) (f : Link → Link) : (s.onLink f).slices = s.slices := rfl
@[simp] theorem State.onLink_shelf (s : State) (f : Link → Link) : (s.onLink f).shelf = s.shelf := rfl
@[simp] theorem State.onLink_flash (s : State) (f : Link → Link) : (s.onLink f).flash = s.flash := rfl
@[simp] theorem State.onLink_power (s : State) (f : Link → Link) : (s.onLink f).power = s.power := rfl
@[simp] theorem State.onLink_crust (s : State) (f : Link → Link) : (s.onLink f).crust = s.crust := rfl
@[simp] theorem State.onLink_sleepA (s : State) (f : Link → Link) : (s.onLink f).sleepA = s.sleepA := rfl
@[simp] theorem State.onLink_sleepB (s : State) (f : Link → Link) : (s.onLink f).sleepB = s.sleepB := rfl
@[simp] theorem State.onLink_opt (s : State) (f : Link → Link) : (s.onLink f).opt = s.opt := rfl
@[simp] theorem State.onLink_fw (s : State) (f : Link → Link) : (s.onLink f).fw = s.fw := rfl
@[simp] theorem State.onLink_esc (s : State) (f : Link → Link) : (s.onLink f).esc = s.esc := rfl
@[simp] theorem State.onLink_temp (s : State) (f : Link → Link) : (s.onLink f).temp = s.temp := rfl
@[simp] theorem State.onLink_fuses (s : State) (f : Link → Link) : (s.onLink f).fuses = s.fuses := rfl
@[simp] theorem State.onLink_tap (s : State) (f : Link → Link) : (s.onLink f).tap = s.tap := rfl
@[simp] theorem State.onLink_draws (s : State) (f : Link → Link) : (s.onLink f).draws = s.draws := rfl
@[simp] theorem State.onLink_keys (s : State) (f : Link → Link) : (s.onLink f).keys = s.keys := rfl

/-! emit. -/

@[simp] theorem State.emit_pending (s : State) (x : Sent) : (s.emit x).pending = s.pending := rfl
@[simp] theorem State.emit_regs (s : State) (x : Sent) : (s.emit x).regs = s.regs := rfl
@[simp] theorem State.emit_link (s : State) (x : Sent) : (s.emit x).link = s.link := rfl
@[simp] theorem State.emit_cmds (s : State) (x : Sent) : (s.emit x).cmds = s.cmds := rfl
@[simp] theorem State.emit_descs (s : State) (x : Sent) : (s.emit x).descs = s.descs := rfl
@[simp] theorem State.emit_attn (s : State) (x : Sent) : (s.emit x).attn = s.attn := rfl
@[simp] theorem State.emit_seqs (s : State) (x : Sent) : (s.emit x).seqs = s.seqs := rfl
@[simp] theorem State.emit_origs (s : State) (x : Sent) : (s.emit x).origs = s.origs := rfl
@[simp] theorem State.emit_slices (s : State) (x : Sent) : (s.emit x).slices = s.slices := rfl
@[simp] theorem State.emit_shelf (s : State) (x : Sent) : (s.emit x).shelf = s.shelf := rfl
@[simp] theorem State.emit_flash (s : State) (x : Sent) : (s.emit x).flash = s.flash := rfl
@[simp] theorem State.emit_power (s : State) (x : Sent) : (s.emit x).power = s.power := rfl
@[simp] theorem State.emit_crust (s : State) (x : Sent) : (s.emit x).crust = s.crust := rfl
@[simp] theorem State.emit_sleepA (s : State) (x : Sent) : (s.emit x).sleepA = s.sleepA := rfl
@[simp] theorem State.emit_sleepB (s : State) (x : Sent) : (s.emit x).sleepB = s.sleepB := rfl
@[simp] theorem State.emit_opt (s : State) (x : Sent) : (s.emit x).opt = s.opt := rfl
@[simp] theorem State.emit_fw (s : State) (x : Sent) : (s.emit x).fw = s.fw := rfl
@[simp] theorem State.emit_esc (s : State) (x : Sent) : (s.emit x).esc = s.esc := rfl
@[simp] theorem State.emit_temp (s : State) (x : Sent) : (s.emit x).temp = s.temp := rfl
@[simp] theorem State.emit_fuses (s : State) (x : Sent) : (s.emit x).fuses = s.fuses := rfl
@[simp] theorem State.emit_tap (s : State) (x : Sent) : (s.emit x).tap = s.tap := rfl
@[simp] theorem State.emit_draws (s : State) (x : Sent) : (s.emit x).draws = s.draws := rfl
@[simp] theorem State.emit_keys (s : State) (x : Sent) : (s.emit x).keys = s.keys := rfl

/-! setChan. -/

@[simp] theorem State.setChan_pending (s : State) (n : Nat) (f : Chan → Chan) : (s.setChan n f).pending = s.pending := rfl
@[simp] theorem State.setChan_regs (s : State) (n : Nat) (f : Chan → Chan) : (s.setChan n f).regs = s.regs := rfl
@[simp] theorem State.setChan_link (s : State) (n : Nat) (f : Chan → Chan) : (s.setChan n f).link = s.link := rfl
@[simp] theorem State.setChan_wire (s : State) (n : Nat) (f : Chan → Chan) : (s.setChan n f).wire = s.wire := rfl
@[simp] theorem State.setChan_cmds (s : State) (n : Nat) (f : Chan → Chan) : (s.setChan n f).cmds = s.cmds := rfl
@[simp] theorem State.setChan_descs (s : State) (n : Nat) (f : Chan → Chan) : (s.setChan n f).descs = s.descs := rfl
@[simp] theorem State.setChan_attn (s : State) (n : Nat) (f : Chan → Chan) : (s.setChan n f).attn = s.attn := rfl
@[simp] theorem State.setChan_seqs (s : State) (n : Nat) (f : Chan → Chan) : (s.setChan n f).seqs = s.seqs := rfl
@[simp] theorem State.setChan_origs (s : State) (n : Nat) (f : Chan → Chan) : (s.setChan n f).origs = s.origs := rfl
@[simp] theorem State.setChan_slices (s : State) (n : Nat) (f : Chan → Chan) : (s.setChan n f).slices = s.slices := rfl
@[simp] theorem State.setChan_shelf (s : State) (n : Nat) (f : Chan → Chan) : (s.setChan n f).shelf = s.shelf := rfl
@[simp] theorem State.setChan_power (s : State) (n : Nat) (f : Chan → Chan) : (s.setChan n f).power = s.power := rfl
@[simp] theorem State.setChan_crust (s : State) (n : Nat) (f : Chan → Chan) : (s.setChan n f).crust = s.crust := rfl
@[simp] theorem State.setChan_sleepA (s : State) (n : Nat) (f : Chan → Chan) : (s.setChan n f).sleepA = s.sleepA := rfl
@[simp] theorem State.setChan_sleepB (s : State) (n : Nat) (f : Chan → Chan) : (s.setChan n f).sleepB = s.sleepB := rfl
@[simp] theorem State.setChan_opt (s : State) (n : Nat) (f : Chan → Chan) : (s.setChan n f).opt = s.opt := rfl
@[simp] theorem State.setChan_fw (s : State) (n : Nat) (f : Chan → Chan) : (s.setChan n f).fw = s.fw := rfl
@[simp] theorem State.setChan_esc (s : State) (n : Nat) (f : Chan → Chan) : (s.setChan n f).esc = s.esc := rfl
@[simp] theorem State.setChan_temp (s : State) (n : Nat) (f : Chan → Chan) : (s.setChan n f).temp = s.temp := rfl
@[simp] theorem State.setChan_fuses (s : State) (n : Nat) (f : Chan → Chan) : (s.setChan n f).fuses = s.fuses := rfl
@[simp] theorem State.setChan_tap (s : State) (n : Nat) (f : Chan → Chan) : (s.setChan n f).tap = s.tap := rfl
@[simp] theorem State.setChan_draws (s : State) (n : Nat) (f : Chan → Chan) : (s.setChan n f).draws = s.draws := rfl
@[simp] theorem State.setChan_keys (s : State) (n : Nat) (f : Chan → Chan) : (s.setChan n f).keys = s.keys := rfl

/-! setOrig. -/

@[simp] theorem State.setOrig_pending (s : State) (o : Nat) (f : Orig → Orig) : (s.setOrig o f).pending = s.pending := rfl
@[simp] theorem State.setOrig_regs (s : State) (o : Nat) (f : Orig → Orig) : (s.setOrig o f).regs = s.regs := rfl
@[simp] theorem State.setOrig_link (s : State) (o : Nat) (f : Orig → Orig) : (s.setOrig o f).link = s.link := rfl
@[simp] theorem State.setOrig_wire (s : State) (o : Nat) (f : Orig → Orig) : (s.setOrig o f).wire = s.wire := rfl
@[simp] theorem State.setOrig_cmds (s : State) (o : Nat) (f : Orig → Orig) : (s.setOrig o f).cmds = s.cmds := rfl
@[simp] theorem State.setOrig_descs (s : State) (o : Nat) (f : Orig → Orig) : (s.setOrig o f).descs = s.descs := rfl
@[simp] theorem State.setOrig_attn (s : State) (o : Nat) (f : Orig → Orig) : (s.setOrig o f).attn = s.attn := rfl
@[simp] theorem State.setOrig_seqs (s : State) (o : Nat) (f : Orig → Orig) : (s.setOrig o f).seqs = s.seqs := rfl
@[simp] theorem State.setOrig_slices (s : State) (o : Nat) (f : Orig → Orig) : (s.setOrig o f).slices = s.slices := rfl
@[simp] theorem State.setOrig_shelf (s : State) (o : Nat) (f : Orig → Orig) : (s.setOrig o f).shelf = s.shelf := rfl
@[simp] theorem State.setOrig_flash (s : State) (o : Nat) (f : Orig → Orig) : (s.setOrig o f).flash = s.flash := rfl
@[simp] theorem State.setOrig_power (s : State) (o : Nat) (f : Orig → Orig) : (s.setOrig o f).power = s.power := rfl
@[simp] theorem State.setOrig_crust (s : State) (o : Nat) (f : Orig → Orig) : (s.setOrig o f).crust = s.crust := rfl
@[simp] theorem State.setOrig_sleepA (s : State) (o : Nat) (f : Orig → Orig) : (s.setOrig o f).sleepA = s.sleepA := rfl
@[simp] theorem State.setOrig_sleepB (s : State) (o : Nat) (f : Orig → Orig) : (s.setOrig o f).sleepB = s.sleepB := rfl
@[simp] theorem State.setOrig_opt (s : State) (o : Nat) (f : Orig → Orig) : (s.setOrig o f).opt = s.opt := rfl
@[simp] theorem State.setOrig_fw (s : State) (o : Nat) (f : Orig → Orig) : (s.setOrig o f).fw = s.fw := rfl
@[simp] theorem State.setOrig_esc (s : State) (o : Nat) (f : Orig → Orig) : (s.setOrig o f).esc = s.esc := rfl
@[simp] theorem State.setOrig_temp (s : State) (o : Nat) (f : Orig → Orig) : (s.setOrig o f).temp = s.temp := rfl
@[simp] theorem State.setOrig_fuses (s : State) (o : Nat) (f : Orig → Orig) : (s.setOrig o f).fuses = s.fuses := rfl
@[simp] theorem State.setOrig_tap (s : State) (o : Nat) (f : Orig → Orig) : (s.setOrig o f).tap = s.tap := rfl
@[simp] theorem State.setOrig_draws (s : State) (o : Nat) (f : Orig → Orig) : (s.setOrig o f).draws = s.draws := rfl
@[simp] theorem State.setOrig_keys (s : State) (o : Nat) (f : Orig → Orig) : (s.setOrig o f).keys = s.keys := rfl

/-! setCell: nothing but the Crust, and nothing at all while VBAK is absent (R444). -/

@[simp] theorem State.setCell_pending (s : State) (n v : Nat) : (s.setCell n v).pending = s.pending := by unfold State.setCell; split <;> rfl
@[simp] theorem State.setCell_regs (s : State) (n v : Nat) : (s.setCell n v).regs = s.regs := by unfold State.setCell; split <;> rfl
@[simp] theorem State.setCell_wire (s : State) (n v : Nat) : (s.setCell n v).wire = s.wire := by unfold State.setCell; split <;> rfl
@[simp] theorem State.setCell_link (s : State) (n v : Nat) : (s.setCell n v).link = s.link := by unfold State.setCell; split <;> rfl
@[simp] theorem State.setCell_cmds (s : State) (n v : Nat) : (s.setCell n v).cmds = s.cmds := by unfold State.setCell; split <;> rfl
@[simp] theorem State.setCell_descs (s : State) (n v : Nat) : (s.setCell n v).descs = s.descs := by unfold State.setCell; split <;> rfl
@[simp] theorem State.setCell_attn (s : State) (n v : Nat) : (s.setCell n v).attn = s.attn := by unfold State.setCell; split <;> rfl
@[simp] theorem State.setCell_seqs (s : State) (n v : Nat) : (s.setCell n v).seqs = s.seqs := by unfold State.setCell; split <;> rfl
@[simp] theorem State.setCell_origs (s : State) (n v : Nat) : (s.setCell n v).origs = s.origs := by unfold State.setCell; split <;> rfl
@[simp] theorem State.setCell_slices (s : State) (n v : Nat) : (s.setCell n v).slices = s.slices := by unfold State.setCell; split <;> rfl
@[simp] theorem State.setCell_shelf (s : State) (n v : Nat) : (s.setCell n v).shelf = s.shelf := by unfold State.setCell; split <;> rfl
@[simp] theorem State.setCell_flash (s : State) (n v : Nat) : (s.setCell n v).flash = s.flash := by unfold State.setCell; split <;> rfl
@[simp] theorem State.setCell_power (s : State) (n v : Nat) : (s.setCell n v).power = s.power := by unfold State.setCell; split <;> rfl
@[simp] theorem State.setCell_sleepA (s : State) (n v : Nat) : (s.setCell n v).sleepA = s.sleepA := by unfold State.setCell; split <;> rfl
@[simp] theorem State.setCell_sleepB (s : State) (n v : Nat) : (s.setCell n v).sleepB = s.sleepB := by unfold State.setCell; split <;> rfl
@[simp] theorem State.setCell_opt (s : State) (n v : Nat) : (s.setCell n v).opt = s.opt := by unfold State.setCell; split <;> rfl
@[simp] theorem State.setCell_fw (s : State) (n v : Nat) : (s.setCell n v).fw = s.fw := by unfold State.setCell; split <;> rfl
@[simp] theorem State.setCell_esc (s : State) (n v : Nat) : (s.setCell n v).esc = s.esc := by unfold State.setCell; split <;> rfl
@[simp] theorem State.setCell_temp (s : State) (n v : Nat) : (s.setCell n v).temp = s.temp := by unfold State.setCell; split <;> rfl
@[simp] theorem State.setCell_fuses (s : State) (n v : Nat) : (s.setCell n v).fuses = s.fuses := by unfold State.setCell; split <;> rfl
@[simp] theorem State.setCell_tap (s : State) (n v : Nat) : (s.setCell n v).tap = s.tap := by unfold State.setCell; split <;> rfl
@[simp] theorem State.setCell_draws (s : State) (n v : Nat) : (s.setCell n v).draws = s.draws := by unfold State.setCell; split <;> rfl
@[simp] theorem State.setCell_keys (s : State) (n v : Nat) : (s.setCell n v).keys = s.keys := by unfold State.setCell; split <;> rfl

/-! Reads after writes. -/

/-- A field reads back what was written, cut to its writable bits. -/
@[simp] theorem State.rd_wr_self (s : State) (f : Field) (v : Nat) : (s.wr f v).rd f = v &&& f.mask := regRead_write_self _ _ _

/-- A write leaves every field of another key. -/
theorem State.rd_wr_ne (s : State) (f g : Field) (v : Nat) (h : g.key ≠ f.key) : (s.wr f v).rd g = s.rd g :=
  regRead_write_ne _ _ h

/-- A Crust cell reads back the 16 bits written while VBAK is present. -/
theorem State.cell_setCell (s : State) (n m v : Nat) (h : s.power.vbak = true) :
    (s.setCell n v).cell m = if m = n then v % 65536 else s.cell m := by
  unfold State.setCell
  rw [if_pos h]
  exact storeRead_write _ _ _ _

/-- No Crust cell changes while VBAK is absent (R444). -/
theorem State.setCell_absent (s : State) (n v : Nat) (h : s.power.vbak = false) : s.setCell n v = s := by
  unfold State.setCell
  rw [h]
  rfl

/-- A command is found by its number. -/
theorem State.cmd?_q {s : State} {q : Nat} {c : Cmd} (h : s.cmd? q = some c) : c.q = q := by
  simpa using List.find?_some h

/-- The meaning of a row whose command is at work in the phase that the row acts on. -/
theorem State.onCmd_pos {s : State} {q op : Nat} {ph : CmdPhase} {f : Cmd → State} {c : Cmd} (h : s.cmd? q = some c)
    (hc : s.clocked = true) (ho : c.opcode = op) (hp : c.phase = ph) : s.onCmd q op ph f = f c := by
  unfold State.onCmd
  rw [h]
  simp [hc, ho, hp]

end Sys2Proof.Machine
end

