-- ==== Sys2Proof/Laws/EndOf.lean ====
section
/-!
SUPPORT. The end of a step as claims state it: what it leaves alone, and the status of a command that completes.
-/
namespace Sys2Proof.Machine
open Sys2Proof.Safety

/-- The parts that the end of a step may change. -/
def endParts : Nat := 270846

theorem endParts_only {p : Part} (h : p ∉ stepParts) :
    endParts.testBit (partBit p) = false := by
  cases p <;> first | rfl | exact absurd (by decide) h

/-- The end of a step in the terms of claims. -/
theorem ends_of {b t : State} (h : Tail b t) (a : Agree endParts b t) : Ends b t :=
  ⟨a.only fun _ => endParts_only, h.link, h.wire, h.regs, h.cells, h.cmds, h.descs, h.origs⟩

/-- The end of a step of a clocked card, from a state that differs from `b` only where the end of a step may. -/
theorem State.settle_ends {b s : State} (h : Tail b s) (a : Agree endParts b s) : Ends b s.settle :=
  ends_of (State.settle_tail h) (a.trans (State.settle_moved (Within.refl endParts) (Moved.refl _ s)).agree)

/-- Completing a command and ending the step. -/
theorem State.complete_ends (s : State) (q status result data dataLen : Nat) :
    Ends s (s.complete q status result data dataLen).settle :=
  State.settle_ends (State.complete_tail (Tail.refl s)) (State.complete_moved (T := endParts) (by unfold Within; decide) (Moved.refl _ s)).agree

/-- The status of a command that completes stands at the end of the step. -/
theorem State.complete_fixed {c : Cmd} {s : State} {q status result data dataLen : Nat} (h : s.cmd? q = some c)
    (ho : c.done? = false) :
    Fixed (s.complete q status result data dataLen).settle c status (completionFields c status result data) :=
  (State.settle_held (State.complete_fixes h ho)).fixed

/-- A row that acts on a command completes it. -/
theorem finishes_of {i : Instr} {s x : State} {q op st r : Nat} {ph : CmdPhase} {f : Cmd → State} {c : Cmd}
    (hw : AtWork s q c op ph) (hp : ph ≠ .settled ∧ ph ≠ .deferred) (he : exec i s = (s.onCmd q op ph f).done)
    (hf : f c = x.complete q st r) (hx : x.cmd? q = some c) : Finishes i s x c st r (x.complete q st r).settle := by
  obtain ⟨hc, hk, ho, hph⟩ := hw
  have hq := State.cmd?_q hc
  have hd : c.done? = false := by
    unfold Cmd.done?
    rw [hph]
    cases ph <;> simp_all
  refine ⟨?_, by rw [hq], State.complete_ends _ _ _ _ _ _, State.complete_fixed hx hd⟩
  rw [he, State.onCmd_pos hc hk ho hph, hf]
  rfl

/-- A row that acts on a command and does not complete it. -/
theorem moves_of {i : Instr} {s x : State} {q op : Nat} {ph : CmdPhase} {f : Cmd → State} {c : Cmd}
    (hw : AtWork s q c op ph) (he : exec i s = (s.onCmd q op ph f).done) (hf : f c = x) : Moves i s x x.settle := by
  obtain ⟨hc, hk, ho, hph⟩ := hw
  refine ⟨?_, rfl, State.settle_ends (Tail.refl _) (Agree.refl _ _)⟩
  rw [he, State.onCmd_pos hc hk ho hph, hf]
  rfl

/-- A row that acts on the card. -/
theorem moves_done {i : Instr} {s x : State} (he : exec i s = x.done) : Moves i s x x.settle :=
  ⟨he, rfl, State.settle_ends (Tail.refl _) (Agree.refl _ _)⟩

/-- A register that the end of a step leaves alone reads at the end what the row left. -/
theorem rd_of_ends {b t : State} (h : Ends b t) {f : Field} (hf : endKey f.key = false) : t.rd f = b.rd f := by
  unfold State.rd regRead
  rw [h.regs _ hf]

/-- An attention event moves no register but those of the end of a step. -/
theorem State.raise_rd (s : State) (ev : Nat × Nat) (bank : Nat) {f : Field} (hf : endKey f.key = false) :
    (s.raise ev bank).rd f = s.rd f := by
  unfold State.rd regRead
  rw [(State.raise_tail (Tail.refl s)).regs _ hf]

/-- Completing a command moves no register but those of the end of a step. -/
theorem State.complete_rd (s : State) (q status result data dataLen : Nat) {f : Field} (hf : endKey f.key = false) :
    (s.complete q status result data dataLen).rd f = s.rd f := by
  unfold State.rd regRead
  rw [(State.complete_tail (Tail.refl s)).regs _ hf]

theorem foldl_origs {α : Type} {f : State → α → State} (s : State) (l : List α) (hf : ∀ t x, (f t x).origs = t.origs) :
    (l.foldl f s).origs = s.origs := by
  induction l generalizing s with
  | nil => rfl
  | cons a l ih => exact (ih _).trans (hf _ _)

theorem State.raise_origs (s : State) (ev : Nat × Nat) (bank : Nat) : (s.raise ev bank).origs = s.origs :=
  ((State.raise_moved (Within.refl 194) (Moved.refl _ s)).agree .origs).elim (fun h => absurd h (by decide)) id

/-! Nonces: only the end of a SLICE_BIND with STEP 1 spends one (R163), so the end of a step leaves the Originators alone. -/

theorem State.leave_origs (s : State) (q : Nat) : (s.leave q).origs = s.origs :=
  ((State.leave_moved (Within.refl 22) (Moved.refl _ s)).agree .origs).elim (fun h => absurd h (by decide)) id

theorem State.complete_origs {s : State} {q status result data dataLen : Nat}
    (h : ∀ c, s.cmd? q = some c → c.opcode ≠ opBind) : (s.complete q status result data dataLen).origs = s.origs := by
  unfold State.complete
  split
  · rfl
  · rename_i c hc
    split
    · rfl
    · have hn : s.spendNonce c = s := by unfold State.spendNonce; rw [if_neg fun x => h c hc x.1]
      rw [hn]
      extract_lets
      split
      · rw [State.leave_origs]; rfl
      · unfold State.owe
        split <;> rfl

theorem Cmd.dataOpen_notBind {c : Cmd} (h : c.dataOpen = true) : c.opcode ≠ opBind := by
  intro e
  unfold Cmd.dataOpen at h
  rw [e] at h
  simp [opBind, opWrite, opStage] at h

theorem State.endDataPhase_origs (s : State) (q : Nat) : (s.endDataPhase q).origs = s.origs := by
  unfold State.endDataPhase
  split
  · rename_i c hc
    split
    · rfl
    · rename_i h
      simp only [Bool.or_eq_true, not_or, Bool.not_eq_true, Bool.not_eq_false'] at h
      refine State.complete_origs fun d hd => ?_
      rw [hc] at hd
      cases hd
      exact Cmd.dataOpen_notBind (by simpa using h.2)
  · rfl

theorem State.enterSafe_origs (s : State) (kind : Nat) (x : Source) : (s.enterSafe kind x).origs = s.origs := by
  unfold State.enterSafe
  split
  · rfl
  · extract_lets
    unfold State.endDataPhases
    refine foldl_origs _ _ fun t _ => State.endDataPhase_origs t _

theorem State.escEval_origs (s : State) : s.escEval.origs = s.origs := by
  unfold State.escEval
  split
  · rfl
  · split
    · exact State.enterSafe_origs _ _ _
    · split
      · extract_lets v0 v1 v2
        have h2 : v2.origs = s.origs := by
          unfold v2
          split
          · rfl
          · exact State.raise_origs _ _ _
        split
        · exact (State.enterSafe_origs _ _ _).trans h2
        · exact h2
      · split
        · exact State.raise_origs _ _ _
        · rfl

theorem State.settle_origs (s : State) : s.settle.origs = s.origs := by
  unfold State.settle
  split
  · have h1 : s.headerCheck.origs = s.origs := by
      unfold State.headerCheck
      exact foldl_origs _ _ fun t e => (State.enterSafe_origs _ _ _)
    have h2 : s.headerCheck.relatchAlarm.origs = s.headerCheck.origs := by
      unfold State.relatchAlarm
      split
      · simp [State.latchWake, State.cellBit]
      · rfl
    have h3 : ∀ t : State, t.pump.origs = t.origs := fun t =>
      ((State.pump_moved (Within.refl 222) (Moved.refl _ t)).agree .origs).elim (fun h => absurd h (by decide)) id
    have h4 : ∀ t : State, t.alertUpdate.origs = t.origs := fun t => by
      unfold State.alertUpdate
      split
      · simp [State.writeAlert, State.cellBit]
      · rfl
    rw [h4]
    change (s.headerCheck.relatchAlarm.escEval.endEdge.pump).origs = _
    rw [h3]
    change s.headerCheck.relatchAlarm.escEval.origs = _
    rw [State.escEval_origs, h2, h1]
  · rfl

/-- The end of a step moves no register but those of `endKey`. -/
theorem State.settle_rd (s : State) {f : Field} (hf : endKey f.key = false) : s.settle.rd f = s.rd f := by
  unfold State.rd regRead
  rw [(State.settle_tail (Tail.refl s)).regs _ hf]

/-- An attention event touches no command. -/
theorem State.raise_cmds (s : State) (ev : Nat × Nat) (bank : Nat) : (s.raise ev bank).cmds = s.cmds :=
  ((State.raise_moved (Within.refl 194) (Moved.refl _ s)).agree .cmds).elim (fun h => absurd h (by decide)) id

/-- An attention event leaves every command where it is found. -/
theorem State.raise_cmd? (s : State) (ev : Nat × Nat) (bank q : Nat) : (s.raise ev bank).cmd? q = s.cmd? q := by
  unfold State.cmd?
  rw [State.raise_cmds]

end Sys2Proof.Machine
end

