-- ==== Sys2Proof/Laws/MovedFlash.lean ====
section
/-!
SUPPORT. Which parts of the card change, and that nothing is broken: dies, arbiters and the map. One lemma per operation, in the order of the
model's files.
-/
namespace Sys2Proof.Machine

theorem State.setBlock_moved {T : Nat} {b : State} (hT : Within 2048 T) {s d n f} (hs : Moved T b s) :
    Moved T b (State.setBlock s d n f) := by
  unfold State.setBlock
  extract_lets v0 v1
  exact State.onFlash_moved (hT.mono rfl) hs

theorem State.chTally_moved {T : Nat} {b : State} (hT : Within 194 T) {s f d} (hs : Moved T b s) :
    Moved T b (State.chTally s f d) := by
  unfold State.chTally
  exact State.tally_moved (hT.mono rfl) hs

theorem State.flagBlock_moved {T : Nat} {b : State} (hT : Within 2048 T) {s d bx} (hs : Moved T b s) :
    Moved T b (State.flagBlock s d bx) := by
  unfold State.flagBlock
  exact Moved.ite (State.setBlock_moved (hT.mono rfl) hs) hs

theorem State.renewMapBlock_moved {T : Nat} {b : State} (hT : Within 2242 T) {s d n} (hs : Moved T b s) :
    Moved T b (State.renewMapBlock s d n) := by
  unfold State.renewMapBlock
  split
  · exact hs
  · extract_lets v0 v1
    have hv1 : Moved T b v1 := State.tally_moved (hT.mono rfl) (State.chTally_moved (hT.mono rfl) hs)
    exact State.setBlock_moved (hT.mono rfl) hv1

theorem State.mapProgram_moved {T : Nat} {b : State} (hT : Within 2242 T) {s d} (hs : Moved T b s) :
    Moved T b (State.mapProgram s d).1 := by
  unfold State.mapProgram
  split
  · exact Moved.fst hs
  · split
    · exact Moved.fst hs
    · extract_lets v0 v1 v2 v3 v4 v5
      have hv0 : Moved T b v0 := State.chTally_moved (hT.mono rfl) hs
      have hv3 : ∀ y6 y7, Moved T b y6 → Moved T b (v3 y6 y7) := by
        exact fun y8 y10 h9 => State.setBlock_moved (hT.mono rfl) h9
      have hv5 : Moved T b v5 := State.setBlock_moved (hT.mono rfl) hv0
      split
      · exact Moved.fst (hv3 _ _ hv0)
      · exact Moved.fst (hv3 _ _ (State.renewMapBlock_moved (hT.mono rfl) hv5))

theorem State.countGrant_moved {T : Nat} {b : State} (hT : Within 2242 T) {s who d waited} (hs : Moved T b s) :
    Moved T b (State.countGrant s who d waited) := by
  unfold State.countGrant
  split
  · exact hs
  · extract_lets v0 v1 v2
    have hv2 : Moved T b v2 := State.onFlash_moved (hT.mono rfl) hs
    exact Moved.ite (State.raise_moved (hT.mono rfl) hv2) hv2

theorem State.mapWrite_moved {T : Nat} {b : State} (hT : Within 2242 T) {s} (hs : Moved T b s) :
    Moved T b (State.mapWrite s).1 := by
  unfold State.mapWrite
  refine foldl_fst_moved (Moved.fst hs) ?_
  intro u0 x1 h2
  extract_lets v3
  have hv3 : Moved T b v3.1 := State.mapProgram_moved (hT.mono rfl) (State.countGrant_moved (hT.mono rfl) h2)
  split
  · exact Moved.fst hv3
  · exact Moved.fst hv3

theorem State.mapCopies_moved {T : Nat} {b : State} (hT : Within 2242 T) {s} (hs : Moved T b s) :
    Moved T b (State.mapCopies s) := by
  unfold State.mapCopies
  exact State.mapWrite_moved (hT.mono rfl) hs

theorem State.checkpointsPassed_moved {T : Nat} {b : State} (hT : Within 2048 T) {s} (hs : Moved T b s) :
    Moved T b (State.checkpointsPassed s) := by
  unfold State.checkpointsPassed
  exact State.onFlash_moved (hT.mono rfl) hs

theorem State.checkpointBatch_moved {T : Nat} {b : State} (hT : Within 2242 T) {s} (hs : Moved T b s) :
    Moved T b (State.checkpointBatch s) := by
  unfold State.checkpointBatch
  split
  · exact State.checkpointsPassed_moved (hT.mono rfl) (State.mapCopies_moved (hT.mono rfl) hs)
  · exact hs

theorem State.arrayRead_moved {T : Nat} {b : State} (hT : Within 2242 T) {s d bx urgent} (hs : Moved T b s) :
    Moved T b (State.arrayRead s d bx urgent) := by
  unfold State.arrayRead
  extract_lets v0 v1 v2 v3
  have hv0 : Moved T b v0 := State.checkpointBatch_moved (hT.mono rfl) hs
  have hv1 : Moved T b v1 := Moved.ite (Moved.ite (State.bump_moved (hT.mono rfl) hv0) hv0) hs
  have hv2 : Moved T b v2 := State.chTally_moved (hT.mono rfl) hv1
  have hv3 : Moved T b v3 := State.setBlock_moved (hT.mono rfl) hv2
  exact Moved.ite (State.flagBlock_moved (hT.mono rfl) hv3) hv3

theorem State.debtSettle_moved {T : Nat} {b : State} (hT : Within 2242 T) {s} (hs : Moved T b s) :
    Moved T b (State.debtSettle s) := by
  unfold State.debtSettle
  extract_lets v0 v1 v2 v3
  have hv2 : Moved T b v2 := State.onFlash_moved (hT.mono rfl) hs
  have hv3 : Moved T b v3 := Moved.ite (State.raise_moved (hT.mono rfl) hv2) hv2
  exact Moved.ite (State.raise_moved (hT.mono rfl) hv3) hv3

theorem State.starveSettle_moved {T : Nat} {b : State} (hT : Within 2242 T) {s} (hs : Moved T b s) :
    Moved T b (State.starveSettle s) := by
  unfold State.starveSettle
  extract_lets v0 v1
  split
  · exact Moved.ite (State.onFlash_moved (hT.mono rfl) hs) hs
  · split
    · exact State.bump_moved (hT.mono rfl) (State.raise_moved (hT.mono rfl) (State.onFlash_moved (hT.mono rfl) hs))
    · exact hs

theorem State.lifeSettle_moved {T : Nat} {b : State} (hT : Within 2242 T) {s} (hs : Moved T b s) :
    Moved T b (State.lifeSettle s) := by
  unfold State.lifeSettle
  split
  · exact hs
  · extract_lets v0 v1 v2
    have hv2 : Moved T b v2 := State.onFlash_moved (hT.mono rfl) hs
    exact Moved.ite (State.raise_moved (hT.mono rfl) hv2) hv2

theorem State.withdraw_moved {T : Nat} {b : State} (hT : Within 2048 T) {s q} (hs : Moved T b s) :
    Moved T b (State.withdraw s q) := by
  unfold State.withdraw
  exact State.onFlash_moved (hT.mono rfl) hs

theorem State.sweepEngines_moved {T : Nat} {b : State} (hT : Within 2048 T) {s} (hs : Moved T b s) :
    Moved T b (State.sweepEngines s) := by
  unfold State.sweepEngines
  exact Moved.ite hs (State.onFlash_moved (hT.mono rfl) hs)

theorem State.snapSweep_moved {T : Nat} {b : State} (hT : Within 2048 T) {s} (hs : Moved T b s) :
    Moved T b (State.snapSweep s) := by
  unfold State.snapSweep
  exact State.onFlash_moved (hT.mono rfl) hs

theorem State.endCmd_moved {T : Nat} {b : State} (hT : Within 2366 T) {s q status result} (hs : Moved T b s) :
    Moved T b (State.endCmd s q status result) := by
  unfold State.endCmd
  exact State.snapSweep_moved (hT.mono rfl) (State.sweepEngines_moved (hT.mono rfl) (State.complete_moved (hT.mono
      rfl) (State.withdraw_moved (hT.mono rfl) hs)))

theorem State.addJob_moved {T : Nat} {b : State} (hT : Within 2048 T) {s bx w dies} (hs : Moved T b s) :
    Moved T b (State.addJob s bx w dies) := by
  unfold State.addJob
  exact Moved.ite hs (State.onFlash_moved (hT.mono rfl) hs)

theorem State.endTrim_moved {T : Nat} {b : State} (hT : Within 2366 T) {s q status} (hs : Moved T b s) :
    Moved T b (State.endTrim s q status) := by
  unfold State.endTrim
  split
  · split
    · split
      · exact hs
      · exact State.addJob_moved (hT.mono rfl) (State.setCmd_moved (hT.mono rfl) hs)
    · exact State.endCmd_moved (hT.mono rfl) hs
  · exact hs

theorem State.abortNow_moved {T : Nat} {b : State} (hT : Within 2366 T) {s c} (hs : Moved T b s) :
    Moved T b (State.abortNow s c) := by
  unfold State.abortNow
  split
  · exact State.endCmd_moved (hT.mono rfl) hs
  · exact State.endTrim_moved (hT.mono rfl) hs

theorem State.readOnlySettle_moved {T : Nat} {b : State} (hT : Within 2558 T) {s} (hs : Moved T b s) :
    Moved T b (State.readOnlySettle s) := by
  unfold State.readOnlySettle
  extract_lets v0 v1 v2 v3
  have hv2 : Moved T b v2 := State.onFlash_moved (hT.mono rfl) hs
  have hv3 : Moved T b v3 := State.raise_moved (hT.mono rfl) hv2
  split
  · exact foldl_moved hv3 (fun u4 x5 h6 => State.endTrim_moved (hT.mono rfl) h6)
  · exact hv2

theorem State.patrolSettle_moved {T : Nat} {b : State} (hT : Within 2242 T) {s} (hs : Moved T b s) :
    Moved T b (State.patrolSettle s) := by
  unfold State.patrolSettle
  split
  · exact State.raise_moved (hT.mono rfl) (State.onFlash_moved (hT.mono rfl) hs)
  · exact hs

theorem State.flashSettle_moved {T : Nat} {b : State} (hT : Within 2558 T) {s} (hs : Moved T b s) :
    Moved T b (State.flashSettle s) := by
  unfold State.flashSettle
  exact State.debtSettle_moved (hT.mono rfl) (State.patrolSettle_moved (hT.mono rfl) (State.starveSettle_moved
      (hT.mono rfl) (State.readOnlySettle_moved (hT.mono rfl) (State.lifeSettle_moved (hT.mono rfl) hs))))

theorem State.retire_moved {T : Nat} {b : State} (hT : Within 2242 T) {s d bx} (hs : Moved T b s) :
    Moved T b (State.retire s d bx) := by
  unfold State.retire
  split
  · exact hs
  · extract_lets v0 v1 v2
    have hv0 : Moved T b v0 := State.setBlock_moved (hT.mono rfl) hs
    have hv2 : Moved T b v2 := State.onFlash_moved (hT.mono rfl) hv0
    exact State.raise_moved (hT.mono rfl) hv2

theorem State.eraseBlock_moved {T : Nat} {b : State} (hT : Within 2242 T) {s d bx} (hs : Moved T b s) :
    Moved T b (State.eraseBlock s d bx) := by
  unfold State.eraseBlock
  extract_lets v0 v1
  have hv0 : Moved T b v0 := State.chTally_moved (hT.mono rfl) hs
  have hv1 : Moved T b v1 := State.onFlash_moved (hT.mono rfl) hv0
  exact State.setBlock_moved (hT.mono rfl) hv1

theorem State.wearLevel_moved {T : Nat} {b : State} (hT : Within 2048 T) {s d} (hs : Moved T b s) :
    Moved T b (State.wearLevel s d) := by
  unfold State.wearLevel
  extract_lets v0 v1 v2 v3 v4
  split
  · exact hs
  · clear_value v4
    split
    · split
      · extract_lets v5
        have hv5 : Moved T b v5 := State.flagBlock_moved (hT.mono rfl) hs
        exact State.setBlock_moved (hT.mono rfl) hv5
      · exact hs
    · exact hs

theorem State.setChan_moved {T : Nat} {b : State} (hT : Within 2048 T) {s n f} (hs : Moved T b s) :
    Moved T b (State.setChan s n f) := by
  unfold State.setChan
  exact State.onFlash_moved (hT.mono rfl) hs

theorem State.grantBus_moved {T : Nat} {b : State} (hT : Within 2048 T) {s n} (hs : Moved T b s) :
    Moved T b (State.grantBus s n) := by
  unfold State.grantBus
  split
  · exact hs
  · split
    · exact hs
    · split
      · exact State.setChan_moved (hT.mono rfl) hs
      · exact hs

theorem State.needBus_moved {T : Nat} {b : State} (hT : Within 2048 T) {s d} (hs : Moved T b s) :
    Moved T b (State.needBus s d) := by
  unfold State.needBus
  exact State.grantBus_moved (hT.mono rfl) (State.setChan_moved (hT.mono rfl) (State.setDie_moved (hT.mono rfl) hs))

theorem State.leaveBus_moved {T : Nat} {b : State} (hT : Within 2048 T) {s d} (hs : Moved T b s) :
    Moved T b (State.leaveBus s d) := by
  unfold State.leaveBus
  exact State.grantBus_moved (hT.mono rfl) (State.setChan_moved (hT.mono rfl) hs)

theorem State.startOp_moved {T : Nat} {b : State} (hT : Within 2048 T) {s d op} (hs : Moved T b s) :
    Moved T b (State.startOp s d op) := by
  unfold State.startOp
  exact Moved.ite (State.needBus_moved (hT.mono rfl) hs) hs

theorem State.grantUrgent_moved {T : Nat} {b : State} (hT : Within 2242 T) {s d} (hs : Moved T b s) :
    Moved T b (State.grantUrgent s d) := by
  unfold State.grantUrgent
  split
  · exact hs
  · split
    · exact hs
    · split
      · exact hs
      · extract_lets v0
        have hv0 : Moved T b v0 := State.setDie_moved (hT.mono rfl) hs
        exact State.countGrant_moved (hT.mono rfl) hv0

theorem State.makeWay_moved {T : Nat} {b : State} (hT : Within 2242 T) {s d} (hs : Moved T b s) :
    Moved T b (State.makeWay s d) := by
  unfold State.makeWay
  split
  · exact hs
  · extract_lets v0 v1 v2
    have hv1 : Moved T b v1 := State.leaveBus_moved (hT.mono rfl) (Moved.ite (State.chTally_moved (hT.mono rfl) hs) hs)
    exact State.setDie_moved (hT.mono rfl) hv1

theorem State.urgentAdmitted_moved {T : Nat} {b : State} (hT : Within 2242 T) {s d} (hs : Moved T b s) :
    Moved T b (State.urgentAdmitted s d) := by
  unfold State.urgentAdmitted
  split
  · exact hs
  · split
    · split
      · exact State.grantUrgent_moved (hT.mono rfl) (State.makeWay_moved (hT.mono rfl) hs)
      · extract_lets v0
        have hv0 : Moved T b v0 := State.setDie_moved (hT.mono rfl) hs
        exact Moved.ite (State.leaveBus_moved (hT.mono rfl) hv0) hv0
    · exact hs

theorem State.admitUrgent_moved {T : Nat} {b : State} (hT : Within 2242 T) {s d r} (hs : Moved T b s) :
    Moved T b (State.admitUrgent s d r) := by
  unfold State.admitUrgent
  split
  · exact hs
  · split
    · exact State.urgentAdmitted_moved (hT.mono rfl) (State.setDie_moved (hT.mono rfl) hs)
    · exact State.setDie_moved (hT.mono rfl) hs

theorem State.admitReq_moved {T : Nat} {b : State} (hT : Within 2242 T) {s d r} (hs : Moved T b s) :
    Moved T b (State.admitReq s d r) := by
  unfold State.admitReq
  split
  · exact State.admitUrgent_moved (hT.mono rfl) hs
  · exact State.setDie_moved (hT.mono rfl) hs

theorem State.present_moved {T : Nat} {b : State} (hT : Within 2242 T) {s d r} (hs : Moved T b s) :
    Moved T b (State.present s d r) := by
  unfold State.present
  split
  · exact hs
  · split
    · exact hs
    · exact Moved.ite (State.setDie_moved (hT.mono rfl) hs) (State.admitReq_moved (hT.mono rfl) hs)

theorem State.presentNext_moved {T : Nat} {b : State} (hT : Within 2242 T) {s d r} (hs : Moved T b s) :
    Moved T b (State.presentNext s d r) := by
  unfold State.presentNext
  split
  · exact State.urgentAdmitted_moved (hT.mono rfl) (State.setDie_moved (hT.mono rfl) hs)
  · exact State.present_moved (hT.mono rfl) hs

theorem State.unqueue_moved {T : Nat} {b : State} (hT : Within 2242 T) {s d} (hs : Moved T b s) :
    Moved T b (State.unqueue s d) := by
  unfold State.unqueue
  split
  · exact hs
  · refine foldl_moved hs ?_
    intro u0 x1 h2
    split
    · exact h2
    · exact State.admitReq_moved (hT.mono rfl) (State.setDie_moved (hT.mono rfl) h2)

theorem State.grantChoice_moved {T : Nat} {b : State} (hT : Within 2242 T) {s d cap x} (hs : Moved T b s) :
    Moved T b (State.grantChoice s d cap x) := by
  unfold State.grantChoice
  extract_lets v0 v1 v2
  split
  · exact hs
  · extract_lets v3
    have hv3 : Moved T b v3 := State.setDie_moved (hT.mono rfl) hs
    exact State.startOp_moved (hT.mono rfl) (State.countGrant_moved (hT.mono rfl) hv3)

theorem State.grantPreempted_moved {T : Nat} {b : State} (hT : Within 2242 T) {s d cap x r} (hs : Moved T b s) :
    Moved T b (State.grantPreempted s d cap x r) := by
  unfold State.grantPreempted
  split
  · exact hs
  · extract_lets v0 v1 v2
    have hv1 : Moved T b v1 := State.setDie_moved (hT.mono rfl) hs
    have hv2 : Moved T b v2 := State.countGrant_moved (hT.mono rfl) hv1
    exact Moved.ite hv2 (State.startOp_moved (hT.mono rfl) hv2)

theorem State.grantOrphan_moved {T : Nat} {b : State} (hT : Within 2048 T) {s d cap r l} (hs : Moved T b s) :
    Moved T b (State.grantOrphan s d cap r l) := by
  unfold State.grantOrphan
  extract_lets v0
  have hv0 : Moved T b v0 := State.setDie_moved (hT.mono rfl) hs
  exact Moved.ite hv0 (State.startOp_moved (hT.mono rfl) hv0)

theorem State.guard_moved {T : Nat} {b : State} (hT : Within 2048 T) {s d} (hs : Moved T b s) :
    Moved T b (State.guard s d) := by
  unfold State.guard
  exact State.setDie_moved (hT.mono rfl) hs

theorem State.grantDie_moved {T : Nat} {b : State} (hT : Within 2242 T) {s d} (hs : Moved T b s) :
    Moved T b (State.grantDie s d) := by
  unfold State.grantDie
  split
  · exact hs
  · split
    · exact hs
    · extract_lets v0 v1
      split
      · exact State.grantUrgent_moved (hT.mono rfl) hs
      · split
        · exact hs
        · split
          · split
            · exact State.grantPreempted_moved (hT.mono rfl) hs
            · split
              · exact State.guard_moved (hT.mono rfl) (State.grantPreempted_moved (hT.mono rfl) hs)
              · exact hs
          · split
            · split
              · exact State.grantOrphan_moved (hT.mono rfl) hs
              · exact State.guard_moved (hT.mono rfl) (State.grantOrphan_moved (hT.mono rfl) hs)
            · exact Moved.ite (State.grantChoice_moved (hT.mono rfl) hs) hs

theorem State.release__moved {T : Nat} {b : State} (hT : Within 2048 T) {s d} (hs : Moved T b s) :
    Moved T b (State.release_ s d) := by
  unfold State.release_
  extract_lets v0 v1
  exact State.leaveBus_moved (hT.mono rfl) (State.setDie_moved (hT.mono rfl) hs)

theorem State.arbSettle_moved {T : Nat} {b : State} (hT : Within 2242 T) {s} (hs : Moved T b s) :
    Moved T b (State.arbSettle s) := by
  unfold State.arbSettle
  extract_lets v0
  have hv0 : Moved T b v0 := foldl_moved hs (fun u1 x2 h3 => State.unqueue_moved (hT.mono rfl) h3)
  exact State.onFlash_moved (hT.mono rfl) hv0

theorem State.cutSteps_moved {T : Nat} {b : State} (hT : Within 2258 T) {s p} (hs : Moved T b s) :
    Moved T b (State.cutSteps s p) := by
  unfold State.cutSteps
  refine foldl_moved hs ?_
  intro u0 x1 h2
  split
  · exact h2
  · split
    · split
      · exact h2
      · extract_lets v3 v4
        have hv3 : Moved T b v3 := by
          unfold v3
          split
          · exact State.setDie_moved (hT.mono rfl) h2
          · exact State.leaveBus_moved (hT.mono rfl) (State.setDie_moved (hT.mono rfl) h2)
        exact State.present_moved (hT.mono rfl) (Moved.set_cmds (hT.mono rfl) hv3)
    · exact h2
    · exact h2
    · exact h2
    · exact h2

theorem State.cutOff_moved {T : Nat} {b : State} (hT : Within 2242 T) {s d} (hs : Moved T b s) :
    Moved T b (State.cutOff s d) := by
  unfold State.cutOff
  split
  · exact hs
  · split
    · extract_lets v0 v1
      have hv1 : Moved T b v1 := State.leaveBus_moved (hT.mono rfl) (State.setDie_moved (hT.mono rfl) hs)
      split
      · exact State.present_moved (hT.mono rfl) hv1
      · exact Moved.ite hv1 (State.setDie_moved (hT.mono rfl) hv1)
      · exact hv1
      · exact hv1
      · exact hv1
    · exact hs

theorem State.onMap_moved {T : Nat} {b : State} (hT : Within 2048 T) {s f} (hs : Moved T b s) :
    Moved T b (State.onMap s f) := by
  unfold State.onMap
  exact State.onFlash_moved (hT.mono rfl) hs

theorem State.unmap_moved {T : Nat} {b : State} (hT : Within 2048 T) {s i lba} (hs : Moved T b s) :
    Moved T b (State.unmap s i lba) := by
  unfold State.unmap
  exact State.onMap_moved (hT.mono rfl) hs

theorem State.setEntry_moved {T : Nat} {b : State} (hT : Within 2048 T) {s e} (hs : Moved T b s) :
    Moved T b (State.setEntry s e) := by
  unfold State.setEntry
  exact State.onMap_moved (hT.mono rfl) (State.unmap_moved (hT.mono rfl) hs)

theorem State.makeResident_moved {T : Nat} {b : State} (hT : Within 2048 T) {s i idx} (hs : Moved T b s) :
    Moved T b (State.makeResident s i idx) := by
  unfold State.makeResident
  split
  · exact hs
  · extract_lets v0 v1
    exact State.onMap_moved (hT.mono rfl) hs

theorem State.touch_moved {T : Nat} {b : State} (hT : Within 2048 T) {s i idx} (hs : Moved T b s) :
    Moved T b (State.touch s i idx) := by
  unfold State.touch
  exact State.onMap_moved (hT.mono rfl) hs

theorem State.lookup_moved {T : Nat} {b : State} (hT : Within 2242 T) {s i idx} (hs : Moved T b s) :
    Moved T b (State.lookup s i idx).1 := by
  unfold State.lookup
  split
  · exact Moved.fst (State.tally_moved (hT.mono rfl) (State.touch_moved (hT.mono rfl) hs))
  · split
    · exact Moved.fst (State.tally_moved (hT.mono rfl) (State.makeResident_moved (hT.mono rfl) hs))
    · exact Moved.fst (State.tally_moved (hT.mono rfl) hs)

theorem State.writtenBack_moved {T : Nat} {b : State} (hT : Within 2242 T) {s i idx places} (hs : Moved T b s) :
    Moved T b (State.writtenBack s i idx places) := by
  unfold State.writtenBack
  extract_lets v0
  have hv0 : Moved T b v0 := State.tally_moved (hT.mono rfl) hs
  exact Moved.ite hv0 (State.onMap_moved (hT.mono rfl) hv0)

theorem State.writeBack_moved {T : Nat} {b : State} (hT : Within 2242 T) {s i idx} (hs : Moved T b s) :
    Moved T b (State.writeBack s i idx) := by
  unfold State.writeBack
  exact State.writtenBack_moved (hT.mono rfl) (State.mapWrite_moved (hT.mono rfl) hs)

theorem State.dirty_moved {T : Nat} {b : State} (hT : Within 2242 T) {s i idx} (hs : Moved T b s) :
    Moved T b (State.dirty s i idx) := by
  unfold State.dirty
  split
  · exact hs
  · extract_lets v0 v1
    have hv0 : Moved T b v0 := State.makeResident_moved (hT.mono rfl) hs
    have hv1 : Moved T b v1 := by
      unfold v1
      split
      · split
        · exact State.writeBack_moved (hT.mono rfl) hv0
        · exact hv0
      · exact hv0
    exact Moved.ite hv0 (State.onMap_moved (hT.mono rfl) hv1)

theorem State.writeBackAll_moved {T : Nat} {b : State} (hT : Within 2242 T) {s} (hs : Moved T b s) :
    Moved T b (State.writeBackAll s) := by
  unfold State.writeBackAll
  refine foldl_moved hs ?_
  intro u0 x1 h2
  split
  · exact State.writeBack_moved (hT.mono rfl) h2
  · exact h2

theorem State.mapLost_moved {T : Nat} {b : State} (hT : Within 264702 T) {s i idx} (hs : Moved T b s) :
    Moved T b (State.mapLost s i idx) := by
  unfold State.mapLost
  extract_lets v0 v1 v2 v3 v4
  have hv0 : Moved T b v0 := State.tally_moved (hT.mono rfl) (State.report_moved (hT.mono rfl) hs)
  have hv4 : Moved T b v4 := State.onMap_moved (hT.mono rfl) hv0
  exact State.dirty_moved (hT.mono rfl) hv4

theorem State.pinSettle_moved {T : Nat} {b : State} (hT : Within 706 T) {s i} (hs : Moved T b s) :
    Moved T b (State.pinSettle s i) := by
  unfold State.pinSettle
  split
  · exact State.raise_moved (hT.mono rfl) (State.setSlice_moved (hT.mono rfl) hs)
  · exact hs

theorem State.snapOne_moved {T : Nat} {b : State} (hT : Within 2048 T) {s q i lba e old} (hs : Moved T b s) :
    Moved T b (State.snapOne s q i lba e old) := by
  unfold State.snapOne
  split
  · exact State.onMap_moved (hT.mono rfl) hs
  · exact Moved.ite (State.onMap_moved (hT.mono rfl) hs) hs

theorem State.snapFor_moved {T : Nat} {b : State} (hT : Within 2048 T) {s q i lba} (hs : Moved T b s) :
    Moved T b (State.snapFor s q i lba) := by
  unfold State.snapFor
  extract_lets v0
  exact foldl_moved hs (fun u1 x2 h3 => Moved.ite (State.snapOne_moved (hT.mono rfl) h3) h3)

theorem State.amendSnaps_moved {T : Nat} {b : State} (hT : Within 2048 T) {s q i lba now} (hs : Moved T b s) :
    Moved T b (State.amendSnaps s q i lba now) := by
  unfold State.amendSnaps
  split
  · exact hs
  · exact State.onMap_moved (hT.mono rfl) hs

theorem State.commitSector_moved {T : Nat} {b : State} (hT : Within 2242 T) {s q i lba seq loc} (hs : Moved T b s) :
    Moved T b (State.commitSector s q i lba seq loc) := by
  unfold State.commitSector
  extract_lets v0 v1 v2 v3 v4
  have hv0 : Moved T b v0 := State.tally64_moved (hT.mono rfl) hs
  have hv3 : Moved T b v3 := State.snapFor_moved (hT.mono rfl) hv0
  have hv4 : Moved T b v4 := State.setEntry_moved (hT.mono rfl) (State.dirty_moved (hT.mono rfl) hv3)
  split
  · exact State.amendSnaps_moved (hT.mono rfl) hv3
  · exact State.onMap_moved (hT.mono rfl) hv4

theorem State.moveSector_moved {T : Nat} {b : State} (hT : Within 2242 T) {s i lba d bx p loc} (hs : Moved T b s) :
    Moved T b (State.moveSector s i lba d bx p loc) := by
  unfold State.moveSector
  split
  · split
    · exact State.setEntry_moved (hT.mono rfl) (State.dirty_moved (hT.mono rfl) hs)
    · exact hs
  · exact hs

theorem State.trimRange_moved {T : Nat} {b : State} (hT : Within 2242 T) {s q i a n undo} (hs : Moved T b s) :
    Moved T b (State.trimRange s q i a n undo) := by
  unfold State.trimRange
  extract_lets v0 v1 v2 v3 v4 v5
  have hv3 : Moved T b v3 := foldl_moved hs (fun u9 x10 h11 => State.amendSnaps_moved (hT.mono rfl)
      (State.snapFor_moved (hT.mono rfl) h11))
  have hv4 : Moved T b v4 := foldl_moved hv3 (fun u6 x7 h8 => State.dirty_moved (hT.mono rfl) (Moved.ite h8
      (State.snapFor_moved (hT.mono rfl) h8)))
  exact State.onMap_moved (hT.mono rfl) hv4

theorem State.trimRecorded_moved {T : Nat} {b : State} (hT : Within 2048 T) {s i a n} (hs : Moved T b s) :
    Moved T b (State.trimRecorded s i a n) := by
  unfold State.trimRecorded
  exact State.onMap_moved (hT.mono rfl) hs

theorem State.trimRecord_moved {T : Nat} {b : State} (hT : Within 2242 T) {s i a n} (hs : Moved T b s) :
    Moved T b (State.trimRecord s i a n) := by
  unfold State.trimRecord
  exact State.trimRecorded_moved (hT.mono rfl) (State.mapCopies_moved (hT.mono rfl) hs)

theorem State.releaseMap_moved {T : Nat} {b : State} (hT : Within 2048 T) {s i} (hs : Moved T b s) :
    Moved T b (State.releaseMap s i) := by
  unfold State.releaseMap
  exact State.onFlash_moved (hT.mono rfl) hs

theorem State.restoreTrims_moved {T : Nat} {b : State} (hT : Within 2048 T) {s} (hs : Moved T b s) :
    Moved T b (State.restoreTrims s) := by
  unfold State.restoreTrims
  extract_lets v0 v1
  have hv1 : Moved T b v1 := foldl_moved hs (fun u2 x3 h4 => Moved.ite (State.setEntry_moved (hT.mono rfl) h4) h4)
  exact State.onMap_moved (hT.mono rfl) hv1

theorem State.setFetch_moved {T : Nat} {b : State} (hT : Within 2048 T) {s i idx f} (hs : Moved T b s) :
    Moved T b (State.setFetch s i idx f) := by
  unfold State.setFetch
  exact State.onMap_moved (hT.mono rfl) hs

theorem State.askFetch_moved {T : Nat} {b : State} (hT : Within 2242 T) {s f} (hs : Moved T b s) :
    Moved T b (State.askFetch s f) := by
  unfold State.askFetch
  split
  · exact hs
  · extract_lets v0
    exact Moved.ite hs (State.present_moved (hT.mono rfl) hs)

theorem State.beginFetch_moved {T : Nat} {b : State} (hT : Within 2242 T) {s i idx q} (hs : Moved T b s) :
    Moved T b (State.beginFetch s i idx q) := by
  unfold State.beginFetch
  split
  · exact hs
  · extract_lets v0
    exact State.askFetch_moved (hT.mono rfl) (State.onMap_moved (hT.mono rfl) hs)

theorem State.hostRead_moved {T : Nat} {b : State} (hT : Within 2242 T) {s q d bx urgent} (hs : Moved T b s) :
    Moved T b (State.hostRead s q d bx urgent) := by
  unfold State.hostRead
  extract_lets v0 v1
  have hv1 : Moved T b v1 := State.arrayRead_moved (hT.mono rfl) hs
  exact Moved.ite (State.addJob_moved (hT.mono rfl) hv1) hv1

theorem State.fetchRead_moved {T : Nat} {b : State} (hT : Within 2242 T) {s f d bx} (hs : Moved T b s) :
    Moved T b (State.fetchRead s f d bx) := by
  unfold State.fetchRead
  extract_lets v0
  split
  · exact State.hostRead_moved (hT.mono rfl) hs
  · exact State.arrayRead_moved (hT.mono rfl) hs

theorem State.park_moved {T : Nat} {b : State} (hT : Within 2274 T) {s q i idx} (hs : Moved T b s) :
    Moved T b (State.park s q i idx) := by
  unfold State.park
  extract_lets v0 v1
  have hv0 : Moved T b v0 := State.bump_moved (hT.mono rfl) hs
  have hv1 : Moved T b v1 := State.setDesc_moved (hT.mono rfl) hv0
  exact State.beginFetch_moved (hT.mono rfl) hv1

theorem State.unpark_moved {T : Nat} {b : State} (hT : Within 32 T) {s i idx} (hs : Moved T b s) :
    Moved T b (State.unpark s i idx) := by
  unfold State.unpark
  exact Moved.set_descs (hT.mono rfl) hs

theorem State.fetchEnds_moved {T : Nat} {b : State} (hT : Within 265214 T) {s f good} (hs : Moved T b s) :
    Moved T b (State.fetchEnds s f good) := by
  unfold State.fetchEnds
  extract_lets v0 v1
  have hv0 : Moved T b v0 := State.onMap_moved (hT.mono rfl) (State.makeResident_moved (hT.mono rfl) hs)
  have hv1 : Moved T b v1 := Moved.ite hv0 (State.mapLost_moved (hT.mono rfl) hv0)
  exact State.unpark_moved (hT.mono rfl) (State.pinSettle_moved (hT.mono rfl) hv1)

theorem State.fetchOn_moved {T : Nat} {b : State} (hT : Within 265214 T) :
    ∀ i idx firstOk secondOk a a', Moved T b a' → Moved T b (State.fetchOn i idx firstOk secondOk a a')
  | i, idx, firstOk, secondOk, 0, x0, h5 => by
    rw [State.fetchOn]
    exact h5
  | i, idx, firstOk, secondOk, (n + 1), x0, h5 => by
    rw [State.fetchOn]
    split
    · exact h5
    · split
      · exact State.fetchEnds_moved (hT.mono rfl) h5
      · extract_lets v0 v1
        have hv1 : ∀ y2, Moved T b y2 → Moved T b (v1 y2) := by
          intro y3 h4
          unfold v1
          split
          · exact State.fetchOn_moved hT _ _ _ _ _ _ (State.setFetch_moved (hT.mono rfl) h4)
          · exact State.fetchEnds_moved (hT.mono rfl) h4
        split
        · exact hv1 _ h5
        · split
          · exact h5
          · split
            · exact hv1 _ (State.fetchRead_moved (hT.mono rfl) (State.countGrant_moved (hT.mono rfl) h5))
            · exact State.present_moved (hT.mono rfl) h5

theorem State.fetchOn_moves {T : Nat} {b : State} (hT : Within 265214 T) {i idx firstOk secondOk a a'} (ha' : Moved T
    b a') :
    Moved T b (State.fetchOn i idx firstOk secondOk a a') := State.fetchOn_moved hT i idx firstOk secondOk a a' ha'

end Sys2Proof.Machine
end

