-- ==== Sys2Proof/Laws/MovedProof.lean ====
section
/-!
SUPPORT. Which parts of the card change, and that nothing is broken: Proofing and recovery. One lemma per operation, in the order of the
model's files.
-/
namespace Sys2Proof.Machine

theorem State.setSb_moved {T : Nat} {b : State} (hT : Within 2048 T) {s i f} (hs : Moved T b s) :
    Moved T b (State.setSb s i f) := by
  unfold State.setSb
  exact State.onFlash_moved (hT.mono rfl) hs

theorem State.closeSb_moved {T : Nat} {b : State} (hT : Within 2048 T) {s i} (hs : Moved T b s) :
    Moved T b (State.closeSb s i) := by
  unfold State.closeSb
  split
  · exact hs
  · extract_lets v0 v1
    have hv1 : Moved T b v1 := foldl_moved hs (fun u2 x3 h4 => State.setBlock_moved (hT.mono rfl) h4)
    exact State.setSb_moved (hT.mono rfl) hv1

theorem State.openSb_moved {T : Nat} {b : State} (hT : Within 2048 T) {s host} (hs : Moved T b s) :
    Moved T b (State.openSb s host) := by
  unfold State.openSb
  split
  · exact hs
  · extract_lets v0 v1 v2 v3
    have hv3 : Moved T b v3 := foldl_moved hs (fun u4 x5 h6 => State.setBlock_moved (hT.mono rfl) h6)
    exact Moved.ite hs (State.onFlash_moved (hT.mono rfl) hv3)

theorem State.readySb_moved {T : Nat} {b : State} (hT : Within 2048 T) {s host} (hs : Moved T b s) :
    Moved T b (State.readySb s host) := by
  unfold State.readySb
  split
  · split
    · exact State.openSb_moved (hT.mono rfl) (State.closeSb_moved (hT.mono rfl) hs)
    · exact hs
  · exact State.openSb_moved (hT.mono rfl) hs

theorem State.closeFull_moved {T : Nat} {b : State} (hT : Within 2048 T) {s i} (hs : Moved T b s) :
    Moved T b (State.closeFull s i) := by
  unfold State.closeFull
  split
  · split
    · exact State.openSb_moved (hT.mono rfl) (State.closeSb_moved (hT.mono rfl) hs)
    · exact hs
  · exact hs

theorem State.parityErase_moved {T : Nat} {b : State} (hT : Within 2242 T) {s d bx} (hs : Moved T b s) :
    Moved T b (State.parityErase s d bx) := by
  unfold State.parityErase
  exact State.eraseBlock_moved (hT.mono rfl) hs

theorem State.dropVersions_moved {T : Nat} {b : State} (hT : Within 2242 T) {s i} (hs : Moved T b s) :
    Moved T b (State.dropVersions s i) := by
  unfold State.dropVersions
  exact State.onFlash_moved (hT.mono rfl) (State.mapCopies_moved (hT.mono rfl) hs)

theorem State.forcedRelease_moved {T : Nat} {b : State} (hT : Within 2242 T) {s} (hs : Moved T b s) :
    Moved T b (State.forcedRelease s) := by
  unfold State.forcedRelease
  extract_lets v0
  clear_value v0
  split
  · exact hs
  · split
    · exact hs
    · extract_lets v1
      have hv1 : Moved T b v1 := State.setSb_moved (hT.mono rfl) (State.dropVersions_moved (hT.mono rfl) hs)
      exact State.tally_moved (hT.mono rfl) (State.raise_moved (hT.mono rfl) hv1)

theorem State.parityPlace_moved {T : Nat} {b : State} (hT : Within 2242 T) {s x fin} (hs : Moved T b s) :
    Moved T b (State.parityPlace s x fin).1 := by
  unfold State.parityPlace
  extract_lets v0 v1
  have hv0 : ∀ y2 y3, Moved T b y2 → Moved T b (v0 y2 y3) := by
    intro y4 y6 h5
    unfold v0
    extract_lets v7
    have hv7 : Moved T b v7 := by
      unfold v7
      split
      · exact h5
      · exact foldl_moved h5 (fun u8 x9 h10 => State.setBlock_moved (hT.mono rfl) h10)
    exact State.setBlock_moved (hT.mono rfl) hv7
  have hv1 : Moved T b v1 := Moved.ite (State.forcedRelease_moved (hT.mono rfl) hs) hs
  split
  · exact Moved.fst (hv0 _ _ hv1)
  · split
    · exact Moved.fst (hv0 _ _ hv1)
    · split
      · exact Moved.fst (hv0 _ _ (State.parityErase_moved (hT.mono rfl) hv1))
      · exact Moved.fst hv1

theorem State.copyForward_moved {T : Nat} {b : State} (hT : Within 2242 T) {s x wear} (hs : Moved T b s) :
    Moved T b (State.copyForward s x wear) := by
  unfold State.copyForward
  split
  · exact hs
  · split
    · exact hs
    · split
      · exact hs
      · extract_lets v0 v1 v2
        have hv0 : Moved T b v0 := State.chTally_moved (hT.mono rfl) (State.arrayRead_moved (hT.mono rfl) hs)
        have hv1 : Moved T b v1 := State.tally_moved (hT.mono rfl) (State.tally_moved (hT.mono rfl) hv0)
        have hv2 : Moved T b v2.1 := State.parityPlace_moved (hT.mono rfl) hv1
        split
        · exact State.onFlash_moved (hT.mono rfl) hv2
        · exact hv2

theorem State.dueErase_moved {T : Nat} {b : State} (hT : Within 2242 T) {s x wear} (hs : Moved T b s) :
    Moved T b (State.dueErase s x wear) := by
  unfold State.dueErase
  split
  · exact hs
  · split
    · exact State.parityErase_moved (hT.mono rfl) hs
    · exact hs

theorem State.evictBuffer_moved {T : Nat} {b : State} (hT : Within 2048 T) {s d} (hs : Moved T b s) :
    Moved T b (State.evictBuffer s d) := by
  unfold State.evictBuffer
  extract_lets v0
  split
  · exact hs
  · split
    · exact State.onFlash_moved (hT.mono rfl) hs
    · exact hs

theorem State.parityTry_moved {T : Nat} {b : State} (hT : Within 2242 T) {s y stream} (hs : Moved T b s) :
    Moved T b (State.parityTry s y stream).1 := by
  unfold State.parityTry
  exact State.parityPlace_moved (hT.mono rfl) (State.tally_moved (hT.mono rfl) (State.chTally_moved (hT.mono rfl) hs))

theorem State.putVersion_moved {T : Nat} {b : State} (hT : Within 2242 T) {s x t mask y pass} (hs : Moved T b s) :
    Moved T b (State.putVersion s x t mask y pass).1 := by
  unfold State.putVersion
  extract_lets v0 v1 v2 v3 v4
  have hv1 : Moved T b v1.1 := State.parityTry_moved (hT.mono rfl) hs
  have hv3 : Moved T b v3 := State.dueErase_moved (hT.mono rfl) (State.copyForward_moved (hT.mono rfl)
      (State.copyForward_moved (hT.mono rfl) hv1))
  have hv4 : Moved T b v4 := State.setSb_moved (hT.mono rfl) hv3
  split
  · exact Moved.fst hv1
  · split
    · extract_lets v5
      exact Moved.fst (State.evictBuffer_moved (hT.mono rfl) (State.onFlash_moved (hT.mono rfl) hv4))
    · exact Moved.fst (State.retire_moved (hT.mono rfl) (State.chTally_moved (hT.mono rfl) hv1))

theorem State.programVersion_moved {T : Nat} {b : State} (hT : Within 2242 T) {s i t mask} (hs : Moved T b s) :
    Moved T b (State.programVersion s i t mask) := by
  unfold State.programVersion
  split
  · exact hs
  · split
    · exact Moved.ite hs (State.putVersion_moved (hT.mono rfl) hs)
    · exact hs

theorem State.tryRelease_moved {T : Nat} {b : State} (hT : Within 2242 T) {s i} (hs : Moved T b s) :
    Moved T b (State.tryRelease s i) := by
  unfold State.tryRelease
  split
  · exact hs
  · split
    · exact hs
    · extract_lets v0
      have hv0 : Moved T b v0 := by
        unfold v0
        split
        · exact State.tally_moved (hT.mono rfl) (State.dropVersions_moved (hT.mono rfl) hs)
        · exact hs
      exact State.onFlash_moved (hT.mono rfl) hv0

theorem State.releaseAll_moved {T : Nat} {b : State} (hT : Within 2242 T) {s} (hs : Moved T b s) :
    Moved T b (State.releaseAll s) := by
  unfold State.releaseAll
  exact foldl_moved hs (fun u0 x1 h2 => State.tryRelease_moved (hT.mono rfl) h2)

theorem State.losePage_moved {T : Nat} {b : State} (hT : Within 2242 T) {s d bx p} (hs : Moved T b s) :
    Moved T b (State.losePage s d bx p) := by
  unfold State.losePage
  refine foldl_moved hs ?_
  intro u0 x1 h2
  split
  · exact h2
  · exact State.setEntry_moved (hT.mono rfl) (State.dirty_moved (hT.mono rfl) h2)

theorem State.rebuild_moved {T : Nat} {b : State} (hT : Within 264702 T) {s d bx p ok urgent} (hs : Moved T b s) :
    Moved T b (State.rebuild s d bx p ok urgent).1 := by
  unfold State.rebuild
  split
  · exact Moved.fst hs
  · extract_lets v0 v1 v2 v3 v4 v5
    have hv4 : Moved T b v4 := Moved.ite hs (State.arrayRead_moved (hT.mono rfl) hs)
    have hv5 : Moved T b v5 := foldl_moved hv4 (fun u6 x7 h8 => Moved.ite (State.arrayRead_moved (hT.mono rfl) h8) h8)
    split
    · exact Moved.fst (State.flagBlock_moved (hT.mono rfl) (State.raise_moved (hT.mono rfl) (State.tally_moved
          (hT.mono rfl) hv5)))
    · exact Moved.fst (State.losePage_moved (hT.mono rfl) (State.report_moved (hT.mono rfl) hv5))

theorem State.setPage_moved {T : Nat} {b : State} (hT : Within 2048 T) {s d bx p f} (hs : Moved T b s) :
    Moved T b (State.setPage s d bx p f) := by
  unfold State.setPage
  exact State.onFlash_moved (hT.mono rfl) hs

theorem State.beginPages_moved {T : Nat} {b : State} (hT : Within 2242 T) {s x k slots} (hs : Moved T b s) :
    Moved T b (State.beginPages s x k slots).1 := by
  unfold State.beginPages
  extract_lets v0 v1 v2 v3 v4 v5 v6 v7 v8
  have hv6 : Moved T b v6 := State.chTally_moved (hT.mono rfl) hs
  have hv7 : Moved T b v7 := State.setBlock_moved (hT.mono rfl) hv6
  have hv8 : Moved T b v8 := State.onFlash_moved (hT.mono rfl) hv7
  exact Moved.fst (State.setSb_moved (hT.mono rfl) hv8)

theorem State.confirmPages_moved {T : Nat} {b : State} (hT : Within 2048 T) {s d bx p n} (hs : Moved T b s) :
    Moved T b (State.confirmPages s d bx p n) := by
  unfold State.confirmPages
  exact State.onFlash_moved (hT.mono rfl) hs

theorem State.verifyFails_moved {T : Nat} {b : State} (hT : Within 2242 T) {s i k d bx p} (hs : Moved T b s) :
    Moved T b (State.verifyFails s i k d bx p) := by
  unfold State.verifyFails
  extract_lets v0 v1
  have hv0 : Moved T b v0 := State.tally_moved (hT.mono rfl) (State.raise_moved (hT.mono rfl) hs)
  have hv1 : Moved T b v1 := State.flagBlock_moved (hT.mono rfl) (State.retire_moved (hT.mono rfl) hv0)
  exact Moved.ite (State.setSb_moved (hT.mono rfl) hv1) hv1

theorem State.readMembers_moved {T : Nat} {b : State} (hT : Within 2242 T) {s x t ms} (hs : Moved T b s) :
    Moved T b (State.readMembers s x t ms).1 := by
  unfold State.readMembers
  refine foldl_fst_moved (Moved.fst hs) ?_
  intro u0 x1 h2
  extract_lets v3 v4 v5
  have hv5 : Moved T b v5 := State.arrayRead_moved (hT.mono rfl) h2
  exact Moved.itep h2 (Moved.fst hv5)

theorem State.reloadBuffer_moved {T : Nat} {b : State} (hT : Within 2242 T) {s x t} (hs : Moved T b s) :
    Moved T b (State.reloadBuffer s x t).1 := by
  unfold State.reloadBuffer
  split
  · exact Moved.fst hs
  · split
    · exact Moved.fst hs
    · extract_lets v0 v1
      have hv0 : Moved T b v0 := Moved.ite (State.arrayRead_moved (hT.mono rfl) hs) hs
      have hv1 : Moved T b v1.1 := State.readMembers_moved (hT.mono rfl) hv0
      split
      · exact Moved.fst hv0
      · exact Moved.fst (foldl_moved hv1 (fun u2 x3 h4 => State.verifyFails_moved (hT.mono rfl) h4))

theorem State.dropJob_moved {T : Nat} {b : State} (hT : Within 2048 T) {s id} (hs : Moved T b s) :
    Moved T b (State.dropJob s id) := by
  unfold State.dropJob
  exact State.onFlash_moved (hT.mono rfl) hs

theorem State.versionRuns_moved {T : Nat} {b : State} (hT : Within 2242 T) {s id i t k d bx p y pass} (hs : Moved T b
    s) :
    Moved T b (State.versionRuns s id i t k d bx p y pass) := by
  unfold State.versionRuns
  split
  · extract_lets v0 v1 v2
    have hv0 : Moved T b v0.1 := State.reloadBuffer_moved (hT.mono rfl) hs
    have hv2 : Moved T b v2.1 := State.putVersion_moved (hT.mono rfl) hv0
    split
    · exact State.dropJob_moved (hT.mono rfl) (State.setPage_moved (hT.mono rfl) hv2)
    · exact hv2
  · exact State.dropJob_moved (hT.mono rfl) (State.setPage_moved (hT.mono rfl) hs)
  · exact hs

theorem State.replaceRuns_moved {T : Nat} {b : State} (hT : Within 2242 T) {s id i t y pass} (hs : Moved T b s) :
    Moved T b (State.replaceRuns s id i t y pass) := by
  unfold State.replaceRuns
  split
  · extract_lets v0 v1
    have hv0 : Moved T b v0.1 := State.readMembers_moved (hT.mono rfl) hs
    have hv1 : Moved T b v1.1 := State.putVersion_moved (hT.mono rfl) hv0
    split
    · exact State.dropJob_moved (hT.mono rfl) (State.onFlash_moved (hT.mono rfl) hv0)
    · exact Moved.ite (State.dropJob_moved (hT.mono rfl) hv1) hv1
  · exact State.dropJob_moved (hT.mono rfl) hs
  · exact State.dropJob_moved (hT.mono rfl) hs
  · exact hs

theorem State.jobEnds_moved {T : Nat} {b : State} (hT : Within 2558 T) {s j} (hs : Moved T b s) :
    Moved T b (State.jobEnds s j) := by
  unfold State.jobEnds
  extract_lets v0
  have hv0 : Moved T b v0 := State.dropJob_moved (hT.mono rfl) hs
  split
  · exact State.writtenBack_moved (hT.mono rfl) hv0
  · split
    · split
      · exact State.endCmd_moved (hT.mono rfl) (State.trimRecorded_moved (hT.mono rfl) hv0)
      · exact hv0
    · exact hv0
  · exact State.checkpointsPassed_moved (hT.mono rfl) hv0
  · exact hv0
  · exact hv0

theorem State.mapCopyRuns_moved {T : Nat} {b : State} (hT : Within 2558 T) {s j d pass} (hs : Moved T b s) :
    Moved T b (State.mapCopyRuns s j d pass) := by
  unfold State.mapCopyRuns
  extract_lets v0
  have hv0 : Moved T b v0.1 := State.mapProgram_moved (hT.mono rfl) hs
  split
  · split
    · exact State.retire_moved (hT.mono rfl) (State.chTally_moved (hT.mono rfl) hv0)
    · extract_lets v1
      split
      · exact State.jobEnds_moved (hT.mono rfl) hv0
      · exact State.onFlash_moved (hT.mono rfl) hv0
  · exact State.jobEnds_moved (hT.mono rfl) hv0

theorem State.jobRuns_moved {T : Nat} {b : State} (hT : Within 2558 T) {s j d pass} (hs : Moved T b s) :
    Moved T b (State.jobRuns s j d pass) := by
  unfold State.jobRuns
  split
  · exact State.versionRuns_moved (hT.mono rfl) hs
  · exact State.replaceRuns_moved (hT.mono rfl) hs
  · exact State.mapCopyRuns_moved (hT.mono rfl) hs
  · exact State.mapCopyRuns_moved (hT.mono rfl) hs
  · exact State.mapCopyRuns_moved (hT.mono rfl) hs

theorem State.askJob_moved {T : Nat} {b : State} (hT : Within 2242 T) {s j d} (hs : Moved T b s) :
    Moved T b (State.askJob s j d) := by
  unfold State.askJob
  split
  · split
    · exact hs
    · split
      · exact State.setDie_moved (hT.mono rfl) hs
      · exact State.present_moved (hT.mono rfl) hs
  · exact hs

theorem State.rehome_moved {T : Nat} {b : State} (hT : Within 2558 T) {s j} (hs : Moved T b s) :
    Moved T b (State.rehome s j) := by
  unfold State.rehome
  extract_lets v0
  have hv0 : ∀ y1, Moved T b (v0 y1) := by
    intro y2
    unfold v0
    split
    · split
      · exact State.onFlash_moved (hT.mono rfl) hs
      · exact hs
    · exact hs
  split
  · exact hs
  · split
    · exact hv0 _
    · exact hv0 _
    · exact State.jobEnds_moved (hT.mono rfl) hs
    · exact State.jobEnds_moved (hT.mono rfl) hs
    · exact State.jobEnds_moved (hT.mono rfl) hs

theorem State.jobsGo_moved {T : Nat} {b : State} (hT : Within 2558 T) {s} (hs : Moved T b s) :
    Moved T b (State.jobsGo s) := by
  unfold State.jobsGo
  extract_lets v0
  have hv0 : Moved T b v0 := foldl_moved hs (fun u7 x8 h9 => State.rehome_moved (hT.mono rfl) h9)
  exact foldl_moved hv0 (fun u1 x2 h3 => foldl_moved h3 (fun u4 x5 h6 => State.askJob_moved (hT.mono rfl) h6))

theorem State.beginJob_moved {T : Nat} {b : State} (hT : Within 2558 T) {s bx w dies pass} (hs : Moved T b s) :
    Moved T b (State.beginJob s bx w dies pass) := by
  unfold State.beginJob
  extract_lets v0
  have hv0 : Moved T b v0 := State.addJob_moved (hT.mono rfl) hs
  split
  · exact hv0
  · split
    · exact State.rehome_moved (hT.mono rfl) hv0
    · refine foldl_moved hv0 ?_
      intro u1 x2 h3
      split
      · split
        · exact State.jobRuns_moved (hT.mono rfl) (State.countGrant_moved (hT.mono rfl) h3)
        · exact State.askJob_moved (hT.mono rfl) h3
      · exact h3
      · exact h3

theorem State.beginBatch_moved {T : Nat} {b : State} (hT : Within 2558 T) {s q} (hs : Moved T b s) :
    Moved T b (State.beginBatch s q) := by
  unfold State.beginBatch
  exact Moved.ite (State.beginJob_moved (hT.mono rfl) hs) hs

theorem State.scanJob_moved {T : Nat} {b : State} (hT : Within 2558 T) {s q} (hs : Moved T b s) :
    Moved T b (State.scanJob s q) := by
  unfold State.scanJob
  split
  · split
    · exact State.beginJob_moved (hT.mono rfl) hs
    · exact hs
  · exact hs

theorem State.beginVersion_moved {T : Nat} {b : State} (hT : Within 2558 T) {s br x k p out} (hs : Moved T b s) :
    Moved T b (State.beginVersion s br x k p out) := by
  unfold State.beginVersion
  extract_lets v0 v1 v2
  split
  · exact State.beginJob_moved (hT.mono rfl) hs
  · exact State.jobsGo_moved (hT.mono rfl) (State.addJob_moved (hT.mono rfl) hs)

theorem State.passPages_moved {T : Nat} {b : State} (hT : Within 2558 T) {s br i k p n out} (hs : Moved T b s) :
    Moved T b (State.passPages s br i k p n out) := by
  unfold State.passPages
  extract_lets v0
  have hv0 : Moved T b v0 := by
    unfold v0
    refine foldl_moved hs ?_
    intro u1 x2 h3
    split
    · exact State.beginVersion_moved (hT.mono rfl) (State.setPage_moved (hT.mono rfl) h3)
    · exact h3
  exact State.closeFull_moved (hT.mono rfl) hv0

theorem State.spoilPages_moved {T : Nat} {b : State} (hT : Within 2242 T) {s x k p} (hs : Moved T b s) :
    Moved T b (State.spoilPages s x k p) := by
  unfold State.spoilPages
  extract_lets v0 v1 v2 v3
  have hv2 : Moved T b v2 := State.retire_moved (hT.mono rfl) (State.chTally_moved (hT.mono rfl) hs)
  have hv3 : Moved T b v3 := foldl_moved hv2 (fun u4 x5 h6 => State.setPage_moved (hT.mono rfl) h6)
  exact State.closeFull_moved (hT.mono rfl) (State.flagBlock_moved (hT.mono rfl) hv3)

theorem State.placeAnew_moved {T : Nat} {b : State} (hT : Within 2558 T) :
    ∀ br a a' a'' a''', Moved T b a''' → Moved T b (State.placeAnew br a a' a'' a''').1
  | br, 0, x2, x1, x0, h4 => by
    rw [State.placeAnew]
    exact Moved.fst h4
  | br, (n + 1), x2, x1, x0, h4 => by
    rw [State.placeAnew]
    split
    · exact Moved.fst h4
    · extract_lets v0
      have hv0 : Moved T b v0 := State.readySb_moved (hT.mono rfl) h4
      split
      · exact Moved.fst hv0
      · split
        · exact Moved.fst hv0
        · extract_lets v1 v2 v3 v4 v5
          have hv3 : Moved T b v3.1 := State.beginPages_moved (hT.mono rfl) hv0
          have hv5 : Moved T b v5 := State.tally64_moved (hT.mono rfl) (State.passPages_moved (hT.mono rfl) hv3)
          split
          · exact State.placeAnew_moved hT _ _ _ _ _ (State.spoilPages_moved (hT.mono rfl) hv3)
          · exact State.placeAnew_moved hT _ _ _ _ _ hv5

theorem State.placeAnew_moves {T : Nat} {b : State} (hT : Within 2558 T) {br a a' a'' a'''} (ha''' : Moved T b a''') :
    Moved T b (State.placeAnew br a a' a'' a''').1 := State.placeAnew_moved hT br a a' a'' a''' ha'''

theorem State.moveSlots_moved {T : Nat} {b : State} (hT : Within 2558 T) {br s d bx p} (hs : Moved T b s) :
    Moved T b (State.moveSlots br s d bx p).1 := by
  unfold State.moveSlots
  split
  · exact Moved.fst hs
  · extract_lets v0 v1
    refine foldl_fst_moved (Moved.fst hs) ?_
    intro u2 x3 h4
    extract_lets v5 v6 v7
    have hv6 : Moved T b v6.1 := State.placeAnew_moves (hT.mono rfl) h4
    have hv7 : Moved T b v7 := by
      unfold v7
      refine foldl_moved hv6 ?_
      intro u8 x9 h10
      split
      · exact State.moveSector_moved (hT.mono rfl) h10
      · exact h10
    exact Moved.itep (Moved.fst (State.setPage_moved (hT.mono rfl) hv7)) (Moved.fst hv6)

theorem State.moveExposed_moved {T : Nat} {b : State} (hT : Within 264702 T) :
    ∀ br a a' a'', Moved T b a'' → Moved T b (State.moveExposed br a a' a'')
  | br, 0, x1, x0, h3 => by
    rw [State.moveExposed]
    exact h3
  | br, (n + 1), [], x0, h3 => by
    rw [State.moveExposed]
    exact h3
  | br, (n + 1), (e :: l), x0, h3 => by
    rw [State.moveExposed]
    split
    · extract_lets v0
      have hv0 : Moved T b v0.1 := State.moveSlots_moved (hT.mono rfl) (State.rebuild_moved (hT.mono rfl) h3)
      exact State.moveExposed_moved hT _ _ _ _ hv0
    · exact State.moveExposed_moved hT _ _ _ _ (State.rebuild_moved (hT.mono rfl) h3)

theorem State.moveExposed_moves {T : Nat} {b : State} (hT : Within 264702 T) {br a a' a''} (ha'' : Moved T b a'') :
    Moved T b (State.moveExposed br a a' a'') := State.moveExposed_moved hT br a a' a'' ha''

theorem State.moveOut_moved {T : Nat} {b : State} (hT : Within 264702 T) {br s d bx p} (hs : Moved T b s) :
    Moved T b (State.moveOut br s d bx p) := by
  unfold State.moveOut
  extract_lets v0
  have hv0 : Moved T b v0.1 := State.moveSlots_moved (hT.mono rfl) hs
  exact State.moveExposed_moves (hT.mono rfl) hv0

theorem State.advance_moved {T : Nat} {b : State} (hT : Within 32 T) {s slots} (hs : Moved T b s) :
    Moved T b (State.advance s slots) := by
  unfold State.advance
  refine foldl_moved hs ?_
  intro u0 x1 h2
  split
  · exact State.setDesc_moved (hT.mono rfl) h2
  · exact h2

theorem State.failPages_moved {T : Nat} {b : State} (hT : Within 264702 T) {s br x k p} (hs : Moved T b s) :
    Moved T b (State.failPages s br x k p) := by
  unfold State.failPages
  extract_lets v0 v1 v2 v3 v4 v5
  have hv2 : Moved T b v2 := State.spoilPages_moved (hT.mono rfl) hs
  have hv3 : Moved T b v3 := State.moveExposed_moves (hT.mono rfl) hv2
  have hv4 : Moved T b v4.1 := State.placeAnew_moves (hT.mono rfl) hv3
  have hv5 : Moved T b v5 := Moved.ite (State.advance_moved (hT.mono rfl) hv4) hv4
  exact State.moveExposed_moves (hT.mono rfl) hv5

theorem State.endPages_moved {T : Nat} {b : State} (hT : Within 264702 T) {s br i k p pass out} (hs : Moved T b s) :
    Moved T b (State.endPages s br i k p pass out) := by
  unfold State.endPages
  split
  · exact hs
  · extract_lets v0 v1 v2 v3
    split
    · exact State.advance_moved (hT.mono rfl) (State.tally64_moved (hT.mono rfl) (State.passPages_moved (hT.mono rfl)
          hs))
    · exact State.failPages_moved (hT.mono rfl) hs

theorem State.strandedPages_moved {T : Nat} {b : State} (hT : Within 264702 T) {s} (hs : Moved T b s) :
    Moved T b (State.strandedPages s) := by
  unfold State.strandedPages
  refine foldl_moved hs ?_
  intro u0 x1 h2
  split
  · split
    · split
      · extract_lets v3 v4
        have hv3 : Moved T b v3.1 := State.moveSlots_moved (hT.mono rfl) h2
        split
        · exact h2
        · exact State.dropJob_moved (hT.mono rfl) (State.moveExposed_moves (hT.mono rfl) hv3)
      · exact h2
    · exact h2
  · exact h2
  · exact h2
  · exact h2
  · exact h2

theorem State.failDie_moved {T : Nat} {b : State} (hT : Within 264702 T) {s d} (hs : Moved T b s) :
    Moved T b (State.failDie s d) := by
  unfold State.failDie
  split
  · exact hs
  · split
    · exact hs
    · extract_lets v0 v1 v2 v3 v4 v5
      have hv3 : Moved T b v3 := State.leaveBus_moved (hT.mono rfl) (State.setDie_moved (hT.mono rfl) hs)
      have hv4 : Moved T b v4 := State.onFlash_moved (hT.mono rfl) hv3
      have hv5 : Moved T b v5 := State.report_moved (hT.mono rfl) (State.raise_moved (hT.mono rfl) hv4)
      exact State.jobsGo_moved (hT.mono rfl) (foldl_moved hv5 (fun u6 x7 h8 => State.addJob_moved (hT.mono rfl) h8))

theorem State.unloseMaps_moved {T : Nat} {b : State} (hT : Within 2048 T) {s} (hs : Moved T b s) :
    Moved T b (State.unloseMaps s) := by
  unfold State.unloseMaps
  refine foldl_moved hs ?_
  intro u0 x1 h2
  extract_lets v3 v4 v5
  have hv5 : Moved T b v5 := State.onMap_moved (hT.mono rfl) h2
  exact foldl_moved hv5 (fun u6 x7 h8 => Moved.ite (State.setEntry_moved (hT.mono rfl) h8) h8)

theorem State.dropUnconfirmed_moved {T : Nat} {b : State} (hT : Within 2048 T) {s} (hs : Moved T b s) :
    Moved T b (State.dropUnconfirmed s) := by
  unfold State.dropUnconfirmed
  refine foldl_moved hs ?_
  intro u0 x1 h2
  extract_lets v3
  have hv3 : Moved T b v3 := State.onFlash_moved (hT.mono rfl) (State.setBlock_moved (hT.mono rfl) h2)
  split
  · split
    · exact State.setSb_moved (hT.mono rfl) hv3
    · exact hv3
  · exact hv3

theorem State.flashLost_moved {T : Nat} {b : State} (hT : Within 2048 T) {s} (hs : Moved T b s) :
    Moved T b (State.flashLost s) := by
  unfold State.flashLost
  extract_lets v0 v1 v2 v3
  have hv0 : Moved T b v0 := State.dropUnconfirmed_moved (hT.mono rfl) hs
  have hv3 : Moved T b v3 := State.unloseMaps_moved (hT.mono rfl) hv0
  exact State.onFlash_moved (hT.mono rfl) hv3

theorem State.freshChannels_moved {T : Nat} {b : State} (hT : Within 2048 T) {s} (hs : Moved T b s) :
    Moved T b (State.freshChannels s) := by
  unfold State.freshChannels
  exact State.onFlash_moved (hT.mono rfl) hs

theorem State.markReconf_moved {T : Nat} {b : State} (hT : Within 2048 T) {s} (hs : Moved T b s) :
    Moved T b (State.markReconf s) := by
  unfold State.markReconf
  exact State.onFlash_moved (hT.mono rfl) hs

theorem State.newFrequency_moved {T : Nat} {b : State} (hT : Within 2048 T) {s} (hs : Moved T b s) :
    Moved T b (State.newFrequency s) := by
  unfold State.newFrequency
  exact State.onFlash_moved (hT.mono rfl) hs

theorem State.identify_moved {T : Nat} {b : State} (hT : Within 264702 T) {s env} (hs : Moved T b s) :
    Moved T b (State.identify s env) := by
  unfold State.identify
  extract_lets v0 v1
  have hv1 : Moved T b v1 := by
    unfold v1
    refine foldl_moved hs ?_
    intro u2 x3 h4
    extract_lets v5 v6 v7 v8 v9
    have hv7 : Moved T b v7 := State.onFlash_moved (hT.mono rfl) h4
    have hv8 : Moved T b v8 := by
      unfold v8
      refine foldl_moved hv7 ?_
      intro u10 x11 h12
      split
      · exact h12
      · extract_lets v13 v14
        exact State.onFlash_moved (hT.mono rfl) h12
    have hv9 : Moved T b v9 := State.onFlash_moved (hT.mono rfl) hv8
    exact Moved.ite (State.report_moved (hT.mono rfl) hv9) hv9
  exact State.onFlash_moved (hT.mono rfl) hv1

theorem State.retireMarked_moved {T : Nat} {b : State} (hT : Within 2048 T) {s} (hs : Moved T b s) :
    Moved T b (State.retireMarked s) := by
  unfold State.retireMarked
  exact foldl_moved hs (fun u0 x1 h2 => foldl_moved h2 (fun u3 x4 h5 => State.setBlock_moved (hT.mono rfl) h5))

theorem State.formatFlash_moved {T : Nat} {b : State} (hT : Within 264702 T) {s} (hs : Moved T b s) :
    Moved T b (State.formatFlash s) := by
  unfold State.formatFlash
  split
  · exact hs
  · split
    · exact State.onFlash_moved (hT.mono rfl) (State.report_moved (hT.mono rfl) hs)
    · extract_lets v0 v1 v2 v3
      have hv0 : Moved T b v0 := State.onFlash_moved (hT.mono rfl) hs
      have hv1 : Moved T b v1 := State.retireMarked_moved (hT.mono rfl) hv0
      exact State.onFlash_moved (hT.mono rfl) hv1

theorem State.thresholdFlags_moved {T : Nat} {b : State} (hT : Within 2048 T) {s} (hs : Moved T b s) :
    Moved T b (State.thresholdFlags s) := by
  unfold State.thresholdFlags
  exact foldl_moved hs (fun u0 x1 h2 => Moved.ite (State.flagBlock_moved (hT.mono rfl) h2) h2)

theorem State.tempFlags_moved {T : Nat} {b : State} (hT : Within 2048 T) {s} (hs : Moved T b s) :
    Moved T b (State.tempFlags s) := by
  unfold State.tempFlags
  extract_lets v0 v1 v2
  have hv2 : Moved T b v2 := State.onFlash_moved (hT.mono rfl) hs
  exact Moved.ite (State.thresholdFlags_moved (hT.mono rfl) hv2) hv2

theorem State.takeTemp_moved {T : Nat} {b : State} (hT : Within 534722 T) {s v} (hs : Moved T b s) :
    Moved T b (State.takeTemp s v) := by
  unfold State.takeTemp
  extract_lets v0 v1 v2 v3 v4 v5 v6 v7 v8 v9 v10
  have hv8 : Moved T b v8 := Moved.set_temp (hT.mono rfl) hs
  have hv9 : Moved T b v9 := State.wr_moved (hT.mono rfl) (State.wr_moved (hT.mono rfl) hv8)
  have hv10 : Moved T b v10 := Moved.ite (State.raise_moved (hT.mono rfl) hv9) hv9
  exact State.tempFlags_moved (hT.mono rfl) (Moved.ite (State.relatchAlarm_moved (hT.mono rfl) hv10) hv10)

theorem State.startPatrol_moved {T : Nat} {b : State} (hT : Within 2242 T) {s} (hs : Moved T b s) :
    Moved T b (State.startPatrol s) := by
  unfold State.startPatrol
  extract_lets v0 v1
  have hv1 : Moved T b v1 := State.onFlash_moved (hT.mono rfl) hs
  exact Moved.ite (State.raise_moved (hT.mono rfl) hv1) hv1

theorem State.recoverCounts_moved {T : Nat} {b : State} (hT : Within 264702 T) {s env} (hs : Moved T b s) :
    Moved T b (State.recoverCounts s env) := by
  unfold State.recoverCounts
  extract_lets v0 v1 v2
  have hv0 : Moved T b v0 := State.onFlash_moved (hT.mono rfl) hs
  have hv1 : Moved T b v1 := Moved.ite hv0 (State.report_moved (hT.mono rfl) hv0)
  have hv2 : Moved T b v2 := by
    unfold v2
    split
    · exact hv1
    · exact State.onFlash_moved (hT.mono rfl) (State.report_moved (hT.mono rfl) hv1)
  exact State.onFlash_moved (hT.mono rfl) hv2

theorem State.recoveryBatch_moved {T : Nat} {b : State} (hT : Within 2242 T) {s} (hs : Moved T b s) :
    Moved T b (State.recoveryBatch s) := by
  unfold State.recoveryBatch
  exact State.onFlash_moved (hT.mono rfl) (State.mapCopies_moved (hT.mono rfl) hs)

theorem State.markTorn_moved {T : Nat} {b : State} (hT : Within 2242 T) {s e} (hs : Moved T b s) :
    Moved T b (State.markTorn s e) := by
  unfold State.markTorn
  exact State.raise_moved (hT.mono rfl) (State.bump_moved (hT.mono rfl) (State.setEntry_moved (hT.mono rfl)
      (State.dirty_moved (hT.mono rfl) hs)))

theorem State.rebuildCaught_moved {T : Nat} {b : State} (hT : Within 264702 T) {s env l} (hs : Moved T b s) :
    Moved T b (State.rebuildCaught s env l).1 := by
  unfold State.rebuildCaught
  extract_lets v0
  refine foldl_fst_moved (Moved.fst hs) ?_
  intro u1 x2 h3
  extract_lets v4
  have hv4 : Moved T b v4.1 := State.rebuild_moved (hT.mono rfl) h3
  exact Moved.fst hv4

theorem State.settleCaught_moved {T : Nat} {b : State} (hT : Within 2242 T) {s env rebuilt e} (hs : Moved T b s) :
    Moved T b (State.settleCaught s env rebuilt e) := by
  unfold State.settleCaught
  split
  · exact hs
  · exact hs
  · extract_lets v0 v1
    split
    · exact hs
    · split
      · exact State.setEntry_moved (hT.mono rfl) (State.dirty_moved (hT.mono rfl) hs)
      · exact State.markTorn_moved (hT.mono rfl) hs

theorem State.recoverSb_moved {T : Nat} {b : State} (hT : Within 264702 T) {s env i} (hs : Moved T b s) :
    Moved T b (State.recoverSb s env i) := by
  unfold State.recoverSb
  split
  · exact hs
  · extract_lets v0 v1 v2 v3
    have hv2 : Moved T b v2 := by
      unfold v2
      refine foldl_moved hs ?_
      intro u8 x9 h10
      split
      · exact h10
      · refine foldl_moved h10 ?_
        intro u11 x12 h13
        split
        · extract_lets v14
          have hv14 : Moved T b v14.1 := State.rebuild_moved (hT.mono rfl) h13
          exact Moved.ite (State.moveOut_moved (hT.mono rfl) hv14) hv14
        · exact h13
    have hv3 : Moved T b v3 := by
      unfold v3
      refine foldl_moved hv2 ?_
      intro u4 x5 h6
      split
      · extract_lets v7
        exact State.programVersion_moved (hT.mono rfl) h6
      · exact h6
    exact State.openSb_moved (hT.mono rfl) (State.closeSb_moved (hT.mono rfl) hv3)

theorem State.moveInterrupted_moved {T : Nat} {b : State} (hT : Within 264702 T) {s l} (hs : Moved T b s) :
    Moved T b (State.moveInterrupted s l) := by
  unfold State.moveInterrupted
  refine foldl_moved hs ?_
  intro u0 x1 h2
  split
  · extract_lets v3
    split
    · exact h2
    · exact State.flagBlock_moved (hT.mono rfl) (State.moveOut_moved (hT.mono rfl) h2)
  · exact h2
  · exact h2

theorem State.trimBeyond_moved {T : Nat} {b : State} (hT : Within 2048 T) {s} (hs : Moved T b s) :
    Moved T b (State.trimBeyond s) := by
  unfold State.trimBeyond
  exact State.onMap_moved (hT.mono rfl) hs

theorem State.loadPins_moved {T : Nat} {b : State} (hT : Within 2754 T) {s} (hs : Moved T b s) :
    Moved T b (State.loadPins s) := by
  unfold State.loadPins
  refine foldl_moved hs ?_
  intro u0 x1 h2
  split
  · extract_lets v3
    have hv3 : Moved T b v3 := foldl_moved h2 (fun u4 x5 h6 => State.makeResident_moved (hT.mono rfl) h6)
    exact State.raise_moved (hT.mono rfl) (State.setSlice_moved (hT.mono rfl) hv3)
  · exact h2

theorem State.markRecovered_moved {T : Nat} {b : State} (hT : Within 4096 T) {s} (hs : Moved T b s) :
    Moved T b (State.markRecovered s) := by
  unfold State.markRecovered
  exact Moved.set_power (hT.mono rfl) hs

theorem State.recoverFlash_moved {T : Nat} {b : State} (hT : Within 801790 T) {s env} (hs : Moved T b s) :
    Moved T b (State.recoverFlash s env) := by
  unfold State.recoverFlash
  extract_lets v0 v1 v2 v3 v4 v5 v6 v7 v8 v9 v10 v11 v12 v13 v14 v15 v16 v17 v18 v19
  have hv0 : Moved T b v0 := State.formatFlash_moved (hT.mono rfl) hs
  have hv1 : Moved T b v1 := Moved.ite (State.recoverCounts_moved (hT.mono rfl) hv0) hv0
  have hv2 : Moved T b v2 := foldl_moved hv1 (fun u32 x33 h34 => State.retire_moved (hT.mono rfl) h34)
  have hv3 : Moved T b v3 := State.wr_moved (hT.mono rfl) (State.onFlash_moved (hT.mono rfl) hv2)
  have hv5 : Moved T b v5 := foldl_moved hv3 (fun u29 x30 h31 => State.failDie_moved (hT.mono rfl) h31)
  have hv6 : Moved T b v6 := State.trimBeyond_moved (hT.mono rfl) (State.restoreTrims_moved (hT.mono rfl) hv5)
  have hv7 : Moved T b v7 := foldl_moved hv6 (fun u26 x27 h28 => Moved.ite (State.mapLost_moved (hT.mono rfl) h28) h28)
  have hv9 : Moved T b v9.1 := State.rebuildCaught_moved (hT.mono rfl) hv7
  have hv10 : Moved T b v10 := foldl_moved hv9 (fun u23 x24 h25 => State.settleCaught_moved (hT.mono rfl) h25)
  have hv11 : Moved T b v11 := State.onFlash_moved (hT.mono rfl) hv10
  have hv13 : Moved T b v13 := foldl_moved hv11 (fun u20 x21 h22 => State.recoverSb_moved (hT.mono rfl) h22)
  have hv14 : Moved T b v14 := State.writeBackAll_moved (hT.mono rfl) (State.moveInterrupted_moved (hT.mono rfl) hv13)
  have hv15 : Moved T b v15 := State.takeTemp_moved (hT.mono rfl) (State.recoveryBatch_moved (hT.mono rfl) hv14)
  have hv16 : Moved T b v16 := State.startPatrol_moved (hT.mono rfl) (State.loadPins_moved (hT.mono rfl)
      (State.thresholdFlags_moved (hT.mono rfl) hv15))
  have hv18 : Moved T b v18 := State.onFlash_moved (hT.mono rfl) hv16
  have hv19 : Moved T b v19 := State.wr_moved (hT.mono rfl) hv18
  exact State.flashSettle_moved (hT.mono rfl) (State.releaseAll_moved (hT.mono rfl) (State.markRecovered_moved
      (hT.mono rfl) hv19))

end Sys2Proof.Machine
end

