-- ==== Sys2Proof/Laws/MovedStart.lean ====
section
/-!
SUPPORT. Which parts of the card change, and that nothing is broken: images, start-up, supplies, page headers, faults and provisioning. One lemma per operation, in the order of the
model's files.
-/
namespace Sys2Proof.Machine

theorem State.setFwSlot_moved {T : Nat} {b : State} (hT : Within 131072 T) {s i f} (hs : Moved T b s) :
    Moved T b (State.setFwSlot s i f) := by
  unfold State.setFwSlot
  exact Moved.set_fw (hT.mono rfl) hs

theorem State.rejectSlot_moved {T : Nat} {b : State} (hT : Within 139458 T) {s i reason} (hs : Moved T b s) :
    Moved T b (State.rejectSlot s i reason) := by
  unfold State.rejectSlot
  extract_lets v0 v1 v2
  have hv0 : Moved T b v0 := State.cellBit_moved (hT.mono rfl) hs
  have hv1 : Moved T b v1 := State.setCell_moved (hT.mono rfl) hv0
  have hv2 : Moved T b v2 := State.raiseCell_moved (hT.mono rfl) hv1
  exact State.raise_moved (hT.mono rfl) (State.setFwSlot_moved (hT.mono rfl) hv2)

theorem State.loadCfgs_moved {T : Nat} {b : State} (hT : Within 512 T) {s cfgs} (hs : Moved T b s) :
    Moved T b (State.loadCfgs s cfgs) := by
  unfold State.loadCfgs
  exact Moved.upd (C := 512) (hT.mono rfl) hs rfl ⟨rfl, id, id, id, (fun _ => by simp), .refl _⟩

theorem State.consumeRecord_moved {T : Nat} {b : State} (hT : Within 49152 T) {s} (hs : Moved T b s) :
    Moved T b (State.consumeRecord s) := by
  unfold State.consumeRecord
  split
  · exact hs
  · extract_lets v0
    exact Moved.upd (C := 49152) (hT.mono rfl) hs rfl ⟨rfl, id, id, id, id, .refl _⟩

theorem State.persist_moved {T : Nat} {b : State} (hT : Within 180224 T) {s} (hs : Moved T b s) :
    Moved T b (State.persist s) := by
  unfold State.persist
  extract_lets v0 v1
  have hv0 : Moved T b v0 := State.consumeRecord_moved (hT.mono rfl) hs
  split
  · exact Moved.set_fw (hT.mono rfl) hv0
  · split
    · exact hv0
    · extract_lets v2
      exact Moved.ite (Moved.set_fw (hT.mono rfl) hv0) (Moved.set_fw (hT.mono rfl) hv0)

theorem State.requestReset_moved {T : Nat} {b : State} (hT : Within 4096 T) {s system source sender} (hs : Moved T b
    s) :
    Moved T b (State.requestReset s system source sender) := by
  unfold State.requestReset
  extract_lets v0 v1
  exact Moved.set_power (hT.mono rfl) hs

theorem State.imageRegs_moved {T : Nat} {b : State} (hT : Within 2 T) {s mainVer expectIf mcVer mcIf} (hs : Moved T b
    s) :
    Moved T b (State.imageRegs s mainVer expectIf mcVer mcIf) := by
  unfold State.imageRegs
  extract_lets v0 v1 v2
  have hv0 : Moved T b v0 := State.wr_moved (hT.mono rfl) hs
  have hv1 : Moved T b v1 := State.wr_moved (hT.mono rfl) hv0
  have hv2 : Moved T b v2 := State.wr_moved (hT.mono rfl) hv1
  exact State.wr_moved (hT.mono rfl) hv2

theorem State.enterMinimal_moved {T : Nat} {b : State} (hT : Within 131586 T) {s} (hs : Moved T b s) :
    Moved T b (State.enterMinimal s) := by
  unfold State.enterMinimal
  refine State.imageRegs_moved (hT.mono rfl) ?_
  exact Moved.upd (C := 131584) (hT.mono rfl) hs rfl ⟨rfl, id, id, id, (fun h => by simp [h]), .refl _⟩

theorem State.loadMc_moved {T : Nat} {b : State} (hT : Within 139458 T) {s slot unreadable} (hs : Moved T b s) :
    Moved T b (State.loadMc s slot unreadable).1 := by
  unfold State.loadMc
  split
  · exact Moved.fst hs
  · split
    · exact Moved.fst hs
    · extract_lets v0
      exact Moved.itep (Moved.fst hs) (Moved.fst (State.rejectSlot_moved (hT.mono rfl) hs))

theorem State.markProbation_moved {T : Nat} {b : State} (hT : Within 131072 T) {s main mc} (hs : Moved T b s) :
    Moved T b (State.markProbation s main mc) := by
  unfold State.markProbation
  extract_lets v0
  have hv0 : ∀ y1 y2, Moved T b y1 → Moved T b (v0 y1 y2) := by
    exact fun y3 y5 h4 => State.setFwSlot_moved (hT.mono rfl) h4
  split
  · exact hv0 _ _ (hv0 _ _ hs)
  · exact hv0 _ _ hs

theorem State.startMain_moved {T : Nat} {b : State} (hT : Within 408574 T) {s slot probation fallback fromCell
    unreadable} (hs : Moved T b s) :
    Moved T b (State.startMain s slot probation fallback fromCell unreadable) := by
  unfold State.startMain
  extract_lets v0 v1 v2 v3 v4 v5 v6 v7 v8 v9 v10 v11 v12 v13 v14 v15 v16 v17
  have hv0 : Moved T b v0 := State.formatFlash_moved (hT.mono rfl) hs
  have hv3 : Moved T b v3.1 := State.loadMc_moved (hT.mono rfl) hv0
  have hv4 : Moved T b v4 := hv3
  have hv10 : ∀ y18, Moved T b y18 → Moved T b (v10 y18) := by
    intro y19 h20
    unfold v10
    extract_lets v21 v22 v23
    have hv22 : Moved T b v22 := Moved.set_fw (hT.mono rfl) h20
    have hv23 : Moved T b v23 := State.imageRegs_moved (hT.mono rfl) hv22
    exact Moved.ite (State.raise_moved (hT.mono rfl) hv23) hv23
  have hv14 : Moved T b v14 := State.rejectSlot_moved (hT.mono rfl) hv4
  split
  · exact State.enterMinimal_moved (hT.mono rfl) (State.rejectSlot_moved (hT.mono rfl) hv4)
  · split
    · exact hv10 _ (Moved.set_fw (hT.mono rfl) hv4)
    · split
      · exact State.raise_moved (hT.mono rfl) (State.markProbation_moved (hT.mono rfl) (hv10 _ hv4))
      · split
        · exact State.requestReset_moved (hT.mono rfl) (Moved.set_fw (hT.mono rfl) hv14)
        · exact State.raise_moved (hT.mono rfl) (State.markProbation_moved (hT.mono rfl) (hv10 _ (Moved.set_fw
              (hT.mono rfl) hv4)))

theorem State.tryCandidates_moved {T : Nat} {b : State} (hT : Within 408574 T) :
    ∀ unreadable a a' a'', Moved T b a'' → Moved T b (State.tryCandidates unreadable a a' a'')
  | unreadable, x1, [], x0, h3 => by
    rw [State.tryCandidates]
    exact State.enterMinimal_moved (hT.mono rfl) h3
  | unreadable, x1, ((slot, prob, fromCell) :: l), x0, h3 => by
    rw [State.tryCandidates]
    split
    · exact State.tryCandidates_moved hT _ _ _ _ h3
    · extract_lets v0 v1
      have hv1 : Moved T b v1 := Moved.ite h3 (State.setCell_moved (hT.mono rfl) h3)
      split
      · exact State.startMain_moved (hT.mono rfl) hv1
      · exact State.tryCandidates_moved hT _ _ _ _ (State.rejectSlot_moved (hT.mono rfl) h3)

theorem State.tryCandidates_moves {T : Nat} {b : State} (hT : Within 408574 T) {unreadable a a' a''} (ha'' : Moved T b
    a'') :
    Moved T b (State.tryCandidates unreadable a a' a'') := State.tryCandidates_moved hT unreadable a a' a'' ha''

theorem State.coldSlots_moved {T : Nat} {b : State} (hT : Within 131072 T) {s} (hs : Moved T b s) :
    Moved T b (State.coldSlots s) := by
  unfold State.coldSlots
  extract_lets v0 v1
  exact Moved.set_fw (hT.mono rfl) hs

theorem State.bootSelect_moved {T : Nat} {b : State} (hT : Within 408574 T) {s cold unreadable} (hs : Moved T b s) :
    Moved T b (State.bootSelect s cold unreadable) := by
  unfold State.bootSelect
  extract_lets v0 v1
  have hv1 : Moved T b v1 := by
    unfold v1
    split
    · exact State.setCell_moved (hT.mono rfl) (State.setCell_moved (hT.mono rfl) (State.coldSlots_moved (hT.mono rfl)
          (Moved.set_fw (hT.mono rfl) hs)))
    · exact hs
  exact State.tryCandidates_moves (hT.mono rfl) hv1

theorem State.setCause_moved {T : Nat} {b : State} (hT : Within 2 T) {s level source} (hs : Moved T b s) :
    Moved T b (State.setCause s level source) := by
  unfold State.setCause
  extract_lets v0 v1
  have hv0 : Moved T b v0 := State.wr_moved (hT.mono rfl) hs
  have hv1 : Moved T b v1 := State.wr_moved (hT.mono rfl) hv0
  exact State.wr_moved (hT.mono rfl) (State.wr_moved (hT.mono rfl) hv1)

theorem State.dropVolatile_moved {T : Nat} {b : State} (hT : Within 925684 T) {s} (hs : Moved T b s) :
    Moved T b (State.dropVolatile s) := by
  unfold State.dropVolatile
  extract_lets v0 v1 v2
  have hv0 : Moved T b v0 := State.flashLost_moved (hT.mono rfl) hs
  clear_value v0
  exact Moved.upd (C := 923636) (hT.mono rfl) hv0 rfl ⟨rfl, id, id, (fun _ => ⟨rfl, rfl⟩), (fun _ => by simp), .refl _⟩

theorem State.cutFuse_moved {T : Nat} {b : State} (hT : Within 5242880 T) {s} (hs : Moved T b s) :
    Moved T b (State.cutFuse s) := by
  unfold State.cutFuse
  split
  · exact hs
  · exact Moved.upd (C := 5242880) (hT.mono rfl) hs rfl ⟨rfl, id, id, id, id, Fuses.blow_le _ _ _⟩

theorem State.coreOff_moved {T : Nat} {b : State} (hT : Within 5308416 T) {s} (hs : Moved T b s) :
    Moved T b (State.coreOff s) := by
  unfold State.coreOff
  extract_lets v0 v1
  have hv0 : Moved T b v0 := State.cutFuse_moved (hT.mono rfl) hs
  exact Moved.set_opt (hT.mono rfl) hv0

theorem State.powerOnStart_moved {T : Nat} {b : State} (hT : Within 8339446 T) {s source wake crustRestart} (hs :
    Moved T b s) :
    Moved T b (State.powerOnStart s source wake crustRestart) := by
  unfold State.powerOnStart
  extract_lets v0 v1 v2 v3 v4 v5 v6 v7
  have hv1 : Moved T b v1 := State.completeCarry_moved (hT.mono rfl) (State.completeCarry_moved (hT.mono rfl) hs)
  have hv2 : Moved T b v2 := by
    unfold v2
    split
    · exact State.countReset_moved (hT.mono rfl) hv1
    · exact hv1
  have hv3 : Moved T b v3 := State.dropVolatile_moved (hT.mono rfl) (State.coreOff_moved (hT.mono rfl) hv2)
  have hv6 : Moved T b v6 := by
    unfold v6
    exact Moved.upd (C := 3149826) (hT.mono rfl) hv3 rfl ⟨rfl, (storeWf_clear _), id, id, id, ⟨rfl, rfl, rfl, id⟩⟩
  have hv7 : Moved T b v7 := by
    unfold v7
    split
    · exact State.setCause_moved (hT.mono rfl) hv6
    · exact hv6
  exact State.endEdge_moved (hT.mono rfl) (Moved.ite (State.raise_moved (hT.mono rfl) hv7) hv7)

theorem State.systemReset_moved {T : Nat} {b : State} (hT : Within 999414 T) {s source} (hs : Moved T b s) :
    Moved T b (State.systemReset s source) := by
  unfold State.systemReset
  extract_lets v0 v1 v2 v3 v4 v5 v6 v7 v8 v9 v10 v11
  have hv1 : Moved T b v1 := State.countReset_moved (hT.mono rfl) (State.completeCarry_moved (hT.mono rfl)
      (State.completeCarry_moved (hT.mono rfl) hs))
  have hv4 : Moved T b v4 := State.dropVolatile_moved (hT.mono rfl) hv1
  have hv6 : Moved T b v6 := Moved.set_esc (hT.mono rfl) hv4
  have hv10 : Moved T b v10 := by
    unfold v10
    clear_value v6
    exact Moved.upd (C := 69634) (hT.mono rfl) hv6 rfl ⟨rfl, (storeWf_clear _), id, id, id, .refl _⟩
  have hv11 : Moved T b v11 := State.setCause_moved (hT.mono rfl) (State.wr_moved (hT.mono rfl) hv10)
  exact State.endEdge_moved (hT.mono rfl) (Moved.ite (State.raise_moved (hT.mono rfl) hv11) hv11)

theorem State.applyOptions_moved {T : Nat} {b : State} (hT : Within 67586 T) {s m copy defaults otherValid} (hs :
    Moved T b s) :
    Moved T b (State.applyOptions s m copy defaults otherValid) := by
  unfold State.applyOptions
  extract_lets v0 v1 v2 v3 v4 v5 v6 v7
  have hv1 : Moved T b v1 := Moved.set_opt (hT.mono rfl) hs
  have hv2 : Moved T b v2 := State.wr_moved (hT.mono rfl) hv1
  have hv3 : Moved T b v3 := State.wr_moved (hT.mono rfl) hv2
  have hv4 : Moved T b v4 := State.wr_moved (hT.mono rfl) hv3
  have hv5 : Moved T b v5 := State.wr_moved (hT.mono rfl) hv4
  have hv6 : Moved T b v6 := State.wr_moved (hT.mono rfl) hv5
  have hv7 : Moved T b v7 := State.wr_moved (hT.mono rfl) hv6
  exact State.freshChannels_moved (hT.mono rfl) (State.wr_moved (hT.mono rfl) hv7)

theorem State.optionLoader_moved {T : Nat} {b : State} (hT : Within 330238 T) {s} (hs : Moved T b s) :
    Moved T b (State.optionLoader s) := by
  unfold State.optionLoader
  extract_lets v0 v1
  split
  · split
    · exact State.applyOptions_moved (hT.mono rfl) hs
    · exact State.applyOptions_moved (hT.mono rfl) hs
  · exact State.report_moved (hT.mono rfl) (State.applyOptions_moved (hT.mono rfl) hs)
  · exact State.report_moved (hT.mono rfl) (State.applyOptions_moved (hT.mono rfl) hs)
  · exact State.report_moved (hT.mono rfl) (State.applyOptions_moved (hT.mono rfl) hs)

theorem State.release_moved {T : Nat} {b : State} (hT : Within 342526 T) {s testEn} (hs : Moved T b s) :
    Moved T b (State.release s testEn) := by
  unfold State.release
  extract_lets v0 v1 v2 v3 v4
  have hv1 : Moved T b v1 := Moved.set_power (hT.mono rfl) hs
  have hv3 : Moved T b v3 := Moved.ite (State.report_moved (hT.mono rfl) hv1) hv1
  have hv4 : Moved T b v4 := State.optionLoader_moved (hT.mono rfl) hv3
  exact State.writeAlert_moved (hT.mono rfl) hv4

theorem State.presentReady_moved {T : Nat} {b : State} (hT : Within 4 T) {s} (hs : Moved T b s) :
    Moved T b (State.presentReady s) := by
  unfold State.presentReady
  exact Moved.ite (Moved.set_link (hT.mono rfl) hs) hs

theorem State.readRemoval_moved {T : Nat} {b : State} (hT : Within 270846 T) {s} (hs : Moved T b s) :
    Moved T b (State.readRemoval s) := by
  unfold State.readRemoval
  extract_lets v0 v1 v2 v3 v4 v5 v6 v7 v8 v9 v10 v11 v12 v13 v14
  have hv4 : Moved T b v4 := State.wr_moved (hT.mono rfl) hs
  have hv5 : Moved T b v5 := State.wr_moved (hT.mono rfl) hv4
  have hv6 : Moved T b v6 := State.wr_moved (hT.mono rfl) hv5
  have hv7 : Moved T b v7 := State.wr_moved (hT.mono rfl) hv6
  have hv8 : Moved T b v8 := Moved.ite (State.wr_moved (hT.mono rfl) hv7) hs
  have hv9 : Moved T b v9 := State.wr_moved (hT.mono rfl) hv8
  have hv10 : Moved T b v10 := State.wr_moved (hT.mono rfl) hv9
  have hv11 : Moved T b v11 := Moved.ite hv10 (State.setCell_moved (hT.mono rfl) hv10)
  have hv12 : Moved T b v12 := Moved.ite (State.raise_moved (hT.mono rfl) hv11) hv11
  have hv13 : Moved T b v13 := Moved.ite (State.report_moved (hT.mono rfl) hv12) hv12
  have hv14 : Moved T b v14 := Moved.ite (State.report_moved (hT.mono rfl) hv13) hv13
  exact Moved.ite (State.raise_moved (hT.mono rfl) hv14) hv14

theorem State.restoreAddress_moved {T : Nat} {b : State} (hT : Within 2 T) {s} (hs : Moved T b s) :
    Moved T b (State.restoreAddress s) := by
  unfold State.restoreAddress
  exact Moved.ite hs (State.wr_moved (hT.mono rfl) (State.wr_moved (hT.mono rfl) hs))

theorem State.restoreSleep_moved {T : Nat} {b : State} (hT : Within 263166 T) {s} (hs : Moved T b s) :
    Moved T b (State.restoreSleep s) := by
  unfold State.restoreSleep
  split
  · exact hs
  · extract_lets v0
    have hv0 : Moved T b v0 := by
      unfold v0
      split
      · split
        · exact State.report_moved (hT.mono rfl) hs
        · extract_lets v1 v2 v3
          have hv1 : Moved T b v1 := Moved.set_origs (hT.mono rfl) hs
          have hv2 : Moved T b v2 := foldl_moved hv1 (fun u7 x8 h9 => State.setSlice_moved (hT.mono rfl) h9)
          have hv3 : Moved T b v3 := foldl_moved hv2 (fun u4 x5 h6 => State.setSlice_moved (hT.mono rfl) h6)
          exact State.wr_moved (hT.mono rfl) hv3
      · exact State.report_moved (hT.mono rfl) hs
    exact State.raise_moved (hT.mono rfl) hv0

theorem State.loadSettings_moved {T : Nat} {b : State} (hT : Within 512 T) {s} (hs : Moved T b s) :
    Moved T b (State.loadSettings s) := by
  unfold State.loadSettings
  extract_lets v0
  exact State.loadCfgs_moved (hT.mono rfl) hs

theorem State.recover_moved {T : Nat} {b : State} (hT : Within 801790 T) {s env} (hs : Moved T b s) :
    Moved T b (State.recover s env) := by
  unfold State.recover
  extract_lets v0
  have hv0 : Moved T b v0 := State.restoreAddress_moved (hT.mono rfl) (State.endEdge_moved (hT.mono rfl)
      (State.readRemoval_moved (hT.mono rfl) hs))
  split
  · exact hv0
  · exact State.restoreSleep_moved (hT.mono rfl) (State.endEdge_moved (hT.mono rfl) (State.recoverFlash_moved (hT.mono
        rfl) (State.loadSettings_moved (hT.mono rfl) hv0)))

theorem State.coreHalt_moved {T : Nat} {b : State} (hT : Within 15618 T) {s source} (hs : Moved T b s) :
    Moved T b (State.coreHalt s source) := by
  unfold State.coreHalt
  extract_lets v0 v1 v2 v3 v4
  have hv0 : Moved T b v0 := State.wr_moved (hT.mono rfl) hs
  have hv3 : Moved T b v3 := by
    unfold v3
    clear_value v0
    exact Moved.upd (C := 5378) (hT.mono rfl) hv0 rfl ⟨rfl, (storeWf_clear _), id, id, id, .refl _⟩
  have hv4 : Moved T b v4 := State.wr_moved (hT.mono rfl) hv3
  exact State.setCause_moved (hT.mono rfl) (State.countReset_moved (hT.mono rfl) (State.markReconf_moved (hT.mono rfl)
      hv4))

theorem State.discardSlot_moved {T : Nat} {b : State} (hT : Within 139264 T) {s i} (hs : Moved T b s) :
    Moved T b (State.discardSlot s i) := by
  unfold State.discardSlot
  exact State.cellBit_moved (hT.mono rfl) (State.setFwSlot_moved (hT.mono rfl) hs)

theorem execFwStage_moved {T : Nat} {b : State} (hT : Within 401918 T) {q s} (hs : Moved T b s) :
    MovedA T b (execFwStage q s) := by
  unfold execFwStage
  refine State.done_moved (hT.mono rfl) ?_
  refine State.onCmd_moved (hT.mono rfl) hs ?_
  intro y0
  split
  · exact hs
  · split
    · extract_lets v1
      have hv1 : Moved T b v1 := State.setFwSlot_moved (hT.mono rfl) hs
      exact State.complete_moved (hT.mono rfl) hv1
    · exact State.complete_moved (hT.mono rfl) hs

theorem execFwActivate_moved {T : Nat} {b : State} (hT : Within 406014 T) {q readable s} (hs : Moved T b s) :
    MovedA T b (execFwActivate q readable s) := by
  unfold execFwActivate
  refine State.done_moved (hT.mono rfl) ?_
  refine State.onCmd_moved (hT.mono rfl) hs ?_
  intro y0
  extract_lets v1 v2
  split
  · exact State.complete_moved (hT.mono rfl) hs
  · split
    · exact State.complete_moved (hT.mono rfl) hs
    · extract_lets v3 v4 v5
      have hv4 : Moved T b v4 := State.setCell_moved (hT.mono rfl) hs
      have hv5 : Moved T b v5 := State.setFwSlot_moved (hT.mono rfl) hv4
      split
      · exact State.complete_moved (hT.mono rfl) (State.rejectSlot_moved (hT.mono rfl) hs)
      · exact State.complete_moved (hT.mono rfl) (State.requestReset_moved (hT.mono rfl) hv5)

theorem State.confirm_moved {T : Nat} {b : State} (hT : Within 139458 T) {s run shadow} (hs : Moved T b s) :
    Moved T b (State.confirm s run shadow) := by
  unfold State.confirm
  extract_lets v0 v1 v2 v3 v4
  exact State.raise_moved (hT.mono rfl) (State.setCell_moved (hT.mono rfl) (Moved.set_fw (hT.mono rfl) hs))

theorem execFwConfirm_moved {T : Nat} {b : State} (hT : Within 401918 T) {q s} (hs : Moved T b s) :
    MovedA T b (execFwConfirm q s) := by
  unfold execFwConfirm
  refine State.done_moved (hT.mono rfl) ?_
  refine State.onCmd_moved (hT.mono rfl) hs ?_
  intro y0
  extract_lets v1
  split
  · split
    · exact State.complete_moved (hT.mono rfl) hs
    · split
      · exact hs
      · exact State.complete_moved (hT.mono rfl) (State.confirm_moved (hT.mono rfl) hs)
  · exact State.complete_moved (hT.mono rfl) hs

theorem execPowerOn_moved {T : Nat} {b : State} (hT : Within 8339446 T) {s} (hs : Moved T b s) :
    MovedA T b (execPowerOn s) := by
  unfold execPowerOn
  exact MovedA.ite (MovedA.next (State.powerOnStart_moved (hT.mono rfl) hs)) (MovedA.next hs)

theorem execResetRelease_moved {T : Nat} {b : State} (hT : Within 342526 T) {testEn s} (hs : Moved T b s) :
    MovedA T b (execResetRelease testEn s) := by
  unfold execResetRelease
  exact MovedA.ite (MovedA.next (State.release_moved (hT.mono rfl) hs)) (MovedA.next hs)

theorem execPowerUpRecovery_moved {T : Nat} {b : State} (hT : Within 932862 T) {env s} (hs : Moved T b s) :
    MovedA T b (execPowerUpRecovery env s) := by
  unfold execPowerUpRecovery
  split
  · extract_lets v0 v1 v2 v3
    have hv0 : Moved T b v0 := hs
    have hv1 : Moved T b v1 := State.bootSelect_moved (hT.mono rfl) (State.identify_moved (hT.mono rfl) hs)
    have hv2 : Moved T b v2 := State.recover_moved (hT.mono rfl) hv1
    split
    · exact State.done_moved (hT.mono rfl) hv1
    · split
      · exact MovedA.next hv0
      · exact State.done_moved (hT.mono rfl) (State.presentReady_moved (hT.mono rfl) (Moved.set_power (hT.mono rfl)
            hv2))
  · exact MovedA.next hs

theorem execDetNArm_moved {T : Nat} {b : State} (hT : Within 274942 T) {s} (hs : Moved T b s) :
    MovedA T b (execDetNArm s) := by
  unfold execDetNArm
  split
  · exact State.done_moved (hT.mono rfl) (State.presentReady_moved (hT.mono rfl) (Moved.set_power (hT.mono rfl) hs))
  · exact MovedA.next hs

theorem execRstN_moved {T : Nat} {b : State} (hT : Within 999414 T) {s} (hs : Moved T b s) :
    MovedA T b (execRstN s) := by
  unfold execRstN
  exact MovedA.ite (MovedA.next (State.systemReset_moved (hT.mono rfl) hs)) (MovedA.next hs)

theorem execLinkSystemReset_moved {T : Nat} {b : State} (hT : Within 999414 T) {s} (hs : Moved T b s) :
    MovedA T b (execLinkSystemReset s) := by
  unfold execLinkSystemReset
  split
  · extract_lets v0
    exact MovedA.ite (MovedA.next (State.systemReset_moved (hT.mono rfl) hs)) (MovedA.next hs)
  · exact MovedA.next hs

theorem execCoreResetHalt_moved {T : Nat} {b : State} (hT : Within 278014 T) {s} (hs : Moved T b s) :
    MovedA T b (execCoreResetHalt s) := by
  unfold execCoreResetHalt
  split
  · split
    · exact State.done_moved (hT.mono rfl) (State.coreHalt_moved (hT.mono rfl) hs)
    · exact MovedA.next hs
  · exact MovedA.next hs

theorem execCoreResetRestart_moved {T : Nat} {b : State} (hT : Within 932862 T) {env s} (hs : Moved T b s) :
    MovedA T b (execCoreResetRestart env s) := by
  unfold execCoreResetRestart
  split
  · extract_lets v0 v1 v2 v3 v4
    have hv0 : Moved T b v0 := hs
    have hv1 : Moved T b v1 := State.bootSelect_moved (hT.mono rfl) hs
    have hv2 : Moved T b v2 := by
      unfold v2
      split
      · exact State.recover_moved (hT.mono rfl) hv1
      · exact Moved.ite hv1 (State.loadSettings_moved (hT.mono rfl) hv1)
    have hv4 : Moved T b v4 := Moved.set_power (hT.mono rfl) hv2
    split
    · exact State.done_moved (hT.mono rfl) hv1
    · split
      · exact MovedA.next hv0
      · exact State.done_moved (hT.mono rfl) (State.presentReady_moved (hT.mono rfl) (State.raise_moved (hT.mono rfl)
            hv4))
  · exact MovedA.next hs

theorem execRemovalTrigger_moved {T : Nat} {b : State} (hT : Within 12288 T) {detN brownOut s} (hs : Moved T b s) :
    MovedA T b (execRemovalTrigger detN brownOut s) := by
  unfold execRemovalTrigger
  extract_lets v0 v1 v2 v3 v4 v5
  have hv4 : Moved T b v4 := State.cellBit_moved (hT.mono rfl) hs
  exact MovedA.ite (MovedA.next (Moved.set_power (hT.mono rfl) hv4)) (MovedA.next hs)

theorem State.recordRemoval_moved {T : Nat} {b : State} (hT : Within 8192 T) {s r rbTimeout} (hs : Moved T b s) :
    Moved T b (State.recordRemoval s r rbTimeout) := by
  unfold State.recordRemoval
  extract_lets v0 v1 v2 v3 v4
  have hv0 : Moved T b v0 := State.increment48_moved (hT.mono rfl) hs
  have hv2 : Moved T b v2 := State.setCell_moved (hT.mono rfl) hv0
  have hv3 : Moved T b v3 := State.setCell_moved (hT.mono rfl) (State.setCell_moved (hT.mono rfl) hv2)
  exact State.setCell_moved (hT.mono rfl) hv3

theorem execRemovalRbWaitEnd_moved {T : Nat} {b : State} (hT : Within 12288 T) {rbHigh s} (hs : Moved T b s) :
    MovedA T b (execRemovalRbWaitEnd rbHigh s) := by
  unfold execRemovalRbWaitEnd
  split
  · extract_lets v0 v1
    have hv0 : Moved T b v0 := State.recordRemoval_moved (hT.mono rfl) hs
    exact MovedA.next (Moved.set_power (hT.mono rfl) hv0)
  · exact MovedA.next hs

theorem execRemovalRestart_moved {T : Nat} {b : State} (hT : Within 8339446 T) {s} (hs : Moved T b s) :
    MovedA T b (execRemovalRestart s) := by
  unfold execRemovalRestart
  exact MovedA.ite (MovedA.next (State.powerOnStart_moved (hT.mono rfl) hs)) (MovedA.next hs)

theorem execHoldDroop_moved {T : Nat} {b : State} (hT : Within 274942 T) {s} (hs : Moved T b s) :
    MovedA T b (execHoldDroop s) := by
  unfold execHoldDroop
  extract_lets v0 v1 v2
  have hv2 : Moved T b v2 := Moved.set_power (hT.mono rfl) hs
  split
  · exact State.done_moved (hT.mono rfl) (State.report_moved (hT.mono rfl) hv2)
  · exact MovedA.next hv2

theorem execVholdOk_moved {T : Nat} {b : State} (hT : Within 4096 T) {s} (hs : Moved T b s) :
    MovedA T b (execVholdOk s) := by
  unfold execVholdOk
  exact MovedA.ite (MovedA.next (Moved.set_power (hT.mono rfl) hs)) (MovedA.next hs)

theorem execVccLoss_moved {T : Nat} {b : State} (hT : Within 5246976 T) {s} (hs : Moved T b s) :
    MovedA T b (execVccLoss s) := by
  unfold execVccLoss
  split
  · exact MovedA.next hs
  · extract_lets v0 v1
    have hv0 : Moved T b v0 := State.cutFuse_moved (hT.mono rfl) hs
    exact MovedA.next (Moved.set_power (hT.mono rfl) hv0)

theorem execVbakLoss_moved {T : Nat} {b : State} (hT : Within 12288 T) {s} (hs : Moved T b s) :
    MovedA T b (execVbakLoss s) := by
  unfold execVbakLoss
  refine MovedA.next ?_
  exact Moved.upd (C := 12288) (hT.mono rfl) hs rfl ⟨rfl, id, (fun _ => ⟨rfl, rfl⟩), id, id, .refl _⟩

theorem execCrustPowerOn_moved {T : Nat} {b : State} (hT : Within 8339446 T) {s} (hs : Moved T b s) :
    MovedA T b (execCrustPowerOn s) := by
  unfold execCrustPowerOn
  split
  · exact MovedA.next hs
  · extract_lets v0 v1 v2
    have hv1 : Moved T b v1 := by
      unfold v1
      exact Moved.upd (C := 12288) (hT.mono rfl) hs rfl ⟨rfl, id, (fun _ => ⟨rfl, rfl⟩), id, id, .refl _⟩
    have hv2 : Moved T b v2 := State.latchWake_moved (hT.mono rfl) hv1
    split
    · exact MovedA.next (State.powerOnStart_moved (hT.mono rfl) (State.writeAlert_moved (hT.mono rfl) hv2))
    · exact MovedA.next (Moved.ite (State.writeAlert_moved (hT.mono rfl) hv2) hv2)

theorem State.closeWrapper_moved {T : Nat} {b : State} (hT : Within 2290 T) {s page} (hs : Moved T b s) :
    Moved T b (State.closeWrapper s page) := by
  unfold State.closeWrapper
  split
  · exact Moved.set_descs (hT.mono rfl) hs
  · split
    · exact State.onFlash_moved (hT.mono rfl) hs
    · split
      · exact State.cutSteps_moved (hT.mono rfl) hs
      · split
        · exact State.cutSteps_moved (hT.mono rfl) hs
        · split
          · exact State.onFlash_moved (hT.mono rfl) hs
          · split
            · exact foldl_moved hs (fun u0 x1 h2 => State.cutOff_moved (hT.mono rfl) h2)
            · exact hs

theorem State.openWrapper_moved {T : Nat} {b : State} (hT : Within 32 T) {s page} (hs : Moved T b s) :
    Moved T b (State.openWrapper s page) := by
  unfold State.openWrapper
  exact Moved.ite (Moved.set_descs (hT.mono rfl) hs) hs

theorem State.softReset_moved {T : Nat} {b : State} (hT : Within 2290 T) {s page} (hs : Moved T b s) :
    Moved T b (State.softReset s page) := by
  unfold State.softReset
  split
  · exact hs
  · extract_lets v0 v1 v2 v3 v4 v5
    have hv0 : Moved T b v0 := State.closeWrapper_moved (hT.mono rfl) hs
    have hv1 : Moved T b v1 := by
      unfold v1
      clear_value v0
      exact Moved.upd (C := 2) (hT.mono rfl) hv0 rfl ⟨rfl, (storeWf_clear _), id, id, id, .refl _⟩
    have hv3 : Moved T b v3 := Moved.ite (Moved.set_flash (hT.mono rfl) hv1) hv1
    have hv5 : Moved T b v5 := Moved.ite (Moved.set_flash (hT.mono rfl) hv3) hv3
    exact State.wr_moved (hT.mono rfl) hv5

theorem State.softResetEnd_moved {T : Nat} {b : State} (hT : Within 34 T) {s page} (hs : Moved T b s) :
    Moved T b (State.softResetEnd s page) := by
  unfold State.softResetEnd
  split
  · extract_lets v0
    have hv0 : Moved T b v0 := State.wr_moved (hT.mono rfl) hs
    split
    · exact State.wr_moved (hT.mono rfl) hv0
    · exact State.openWrapper_moved (hT.mono rfl) hv0
  · exact hs

theorem State.isolate_moved {T : Nat} {b : State} (hT : Within 2290 T) {s page on} (hs : Moved T b s) :
    Moved T b (State.isolate s page on) := by
  unfold State.isolate
  split
  · exact hs
  · extract_lets v0 v1
    have hv0 : Moved T b v0 := State.wr_moved (hT.mono rfl) hs
    have hv1 : Moved T b v1 := State.wr_moved (hT.mono rfl) hv0
    split
    · exact State.closeWrapper_moved (hT.mono rfl) hv1
    · exact Moved.ite hv1 (State.openWrapper_moved (hT.mono rfl) hv1)

theorem State.enable_moved {T : Nat} {b : State} (hT : Within 2 T) {s page on} (hs : Moved T b s) :
    Moved T b (State.enable s page on) := by
  unfold State.enable
  exact Moved.ite hs (State.wr_moved (hT.mono rfl) hs)

theorem State.freshParity_moved {T : Nat} {b : State} (hT : Within 262144 T) {s page bank index} (hs : Moved T b s) :
    Moved T b (State.freshParity s page bank index) := by
  unfold State.freshParity
  exact Moved.set_esc (hT.mono rfl) hs

theorem execBlockSoftReset_moved {T : Nat} {b : State} (hT : Within 272894 T) {page s} (hs : Moved T b s) :
    MovedA T b (execBlockSoftReset page s) := by
  unfold execBlockSoftReset
  split
  · exact State.done_moved (hT.mono rfl) (State.freshParity_moved (hT.mono rfl) (State.softReset_moved (hT.mono rfl)
        hs))
  · exact MovedA.next hs

theorem execBlockSoftResetEnd_moved {T : Nat} {b : State} (hT : Within 270846 T) {page s} (hs : Moved T b s) :
    MovedA T b (execBlockSoftResetEnd page s) := by
  unfold execBlockSoftResetEnd
  split
  · exact State.done_moved (hT.mono rfl) (State.softResetEnd_moved (hT.mono rfl) hs)
  · exact MovedA.next hs

theorem execBlockIsolate_moved {T : Nat} {b : State} (hT : Within 272894 T) {page on s} (hs : Moved T b s) :
    MovedA T b (execBlockIsolate page on s) := by
  unfold execBlockIsolate
  split
  · exact State.done_moved (hT.mono rfl) (State.freshParity_moved (hT.mono rfl) (State.isolate_moved (hT.mono rfl) hs))
  · exact MovedA.next hs

theorem execBlockEnable_moved {T : Nat} {b : State} (hT : Within 270846 T) {page on s} (hs : Moved T b s) :
    MovedA T b (execBlockEnable page on s) := by
  unfold execBlockEnable
  split
  · exact State.done_moved (hT.mono rfl) (State.freshParity_moved (hT.mono rfl) (State.enable_moved (hT.mono rfl) hs))
  · exact MovedA.next hs

theorem State.postEnables_moved {T : Nat} {b : State} (hT : Within 194 T) {s0 s page bank} (hs : Moved T b s) :
    Moved T b (State.postEnables s0 s page bank) := by
  unfold State.postEnables
  extract_lets v0 v1 v2 v3
  have hv3 : Moved T b v3 := foldl_moved hs (fun u7 x8 h9 => Moved.ite (State.post_moved (hT.mono rfl) h9) h9)
  exact foldl_moved hv3 (fun u4 x5 h6 => Moved.ite (State.post_moved (hT.mono rfl) h6) h6)

theorem State.clearCrossings_moved {T : Nat} {b : State} (hT : Within 2 T) {s w met} (hs : Moved T b s) :
    Moved T b (State.clearCrossings s w met) := by
  unfold State.clearCrossings
  exact State.wr_moved (hT.mono rfl) hs

theorem State.writeHeader_moved {T : Nat} {b : State} (hT : Within 262146 T) {s page bank index value met} (hs : Moved
    T b s) :
    Moved T b (State.writeHeader s page bank index value met) := by
  unfold State.writeHeader
  extract_lets v0 v1 v2 v3 v4
  have hv1 : Moved T b v1 := State.freshParity_moved (hT.mono rfl) hs
  have hv2 : Moved T b v2 := State.wr_moved (hT.mono rfl) hv1
  have hv4 : Moved T b v4 := Moved.ite (State.clearCrossings_moved (hT.mono rfl) hv2) hv2
  split
  · exact State.wr_moved (hT.mono rfl) hv1
  · split
    · exact State.wr_moved (hT.mono rfl) hv1
    · split
      · exact State.wr_moved (hT.mono rfl) hv1
      · split
        · exact Moved.ite (Moved.ite (State.clearCrossings_moved (hT.mono rfl) hv4) hv4) hv2
        · exact Moved.ite (State.wr_moved (hT.mono rfl) hv1) hv1

theorem State.landHeader_moved {T : Nat} {b : State} (hT : Within 262338 T) {s page bank index value met} (hs : Moved
    T b s) :
    Moved T b (State.landHeader s page bank index value met) := by
  unfold State.landHeader
  split
  · exact State.postEnables_moved (hT.mono rfl) (State.writeHeader_moved (hT.mono rfl) hs)
  · exact hs

theorem execEnableWrite_moved {T : Nat} {b : State} (hT : Within 270846 T) {page bank index value s} (hs : Moved T b
    s) :
    MovedA T b (execEnableWrite page bank index value s) := by
  unfold execEnableWrite
  split
  · exact State.done_moved (hT.mono rfl) (State.landHeader_moved (hT.mono rfl) hs)
  · exact MovedA.next hs

theorem execFaultHandling_moved {T : Nat} {b : State} (hT : Within 270846 T) {page bank index value met s} (hs : Moved
    T b s) :
    MovedA T b (execFaultHandling page bank index value met s) := by
  unfold execFaultHandling
  split
  · exact State.done_moved (hT.mono rfl) (State.landHeader_moved (hT.mono rfl) hs)
  · exact MovedA.next hs

theorem execWmCrossClear_moved {T : Nat} {b : State} (hT : Within 270846 T) {ring mask met s} (hs : Moved T b s) :
    MovedA T b (execWmCrossClear ring mask met s) := by
  unfold execWmCrossClear
  split
  · refine State.done_moved (hT.mono rfl) ?_
    split
    · exact State.landHeader_moved (hT.mono rfl) hs
    · exact State.landHeader_moved (hT.mono rfl) hs
  · exact MovedA.next hs

theorem State.mapError_moved {T : Nat} {b : State} (hT : Within 2048 T) {s i idx} (hs : Moved T b s) :
    Moved T b (State.mapError s i idx) := by
  unfold State.mapError
  extract_lets v0
  exact State.onMap_moved (hT.mono rfl) hs

theorem State.bufferError_moved {T : Nat} {b : State} (hT : Within 2048 T) {s i t} (hs : Moved T b s) :
    Moved T b (State.bufferError s i t) := by
  unfold State.bufferError
  exact State.onFlash_moved (hT.mono rfl) hs

theorem State.errorAt_moved {T : Nat} {b : State} (hT : Within 2050 T) {s page bit a} (hs : Moved T b s) :
    Moved T b (State.errorAt s page bit a) := by
  unfold State.errorAt
  split
  · exact hs
  · split
    · exact State.mapError_moved (hT.mono rfl) hs
    · split
      · exact State.bufferError_moved (hT.mono rfl) hs
      · exact Moved.ite (State.wr_moved (hT.mono rfl) hs) hs

theorem execFaultSourceError_moved {T : Nat} {b : State} (hT : Within 272894 T) {page bank bit place s} (hs : Moved T
    b s) :
    MovedA T b (execFaultSourceError page bank bit place s) := by
  unfold execFaultSourceError
  split
  · exact State.done_moved (hT.mono rfl) (State.errorAt_moved (hT.mono rfl) (State.report_moved (hT.mono rfl) hs))
  · exact MovedA.next hs

theorem execGraceExpiry_moved {T : Nat} {b : State} (hT : Within 270846 T) {s} (hs : Moved T b s) :
    MovedA T b (execGraceExpiry s) := by
  unfold execGraceExpiry
  split
  · exact State.done_moved (hT.mono rfl) (Moved.set_esc (hT.mono rfl) hs)
  · exact MovedA.next hs

theorem execHdrParity_moved {T : Nat} {b : State} (hT : Within 270846 T) {page bank index s} (hs : Moved T b s) :
    MovedA T b (execHdrParity page bank index s) := by
  unfold execHdrParity
  split
  · extract_lets v0 v1
    exact State.done_moved (hT.mono rfl) (Moved.set_esc (hT.mono rfl) hs)
  · exact MovedA.next hs

theorem execStageEcc_moved {T : Nat} {b : State} (hT : Within 272894 T) {q s} (hs : Moved T b s) :
    MovedA T b (execStageEcc q s) := by
  unfold execStageEcc
  split
  · extract_lets v0
    have hv0 : Moved T b v0 := State.report_moved (hT.mono rfl) hs
    split
    · split
      · exact State.done_moved (hT.mono rfl) (State.endCmd_moved (hT.mono rfl) hv0)
      · exact State.done_moved (hT.mono rfl) (State.endCmd_moved (hT.mono rfl) hv0)
    · exact State.done_moved (hT.mono rfl) hv0
  · exact MovedA.next hs

theorem execAlertReadback_moved {T : Nat} {b : State} (hT : Within 270846 T) {padP padN s} (hs : Moved T b s) :
    MovedA T b (execAlertReadback padP padN s) := by
  unfold execAlertReadback
  split
  · split
    · exact MovedA.next (Moved.set_esc (hT.mono rfl) hs)
    · extract_lets v0 v1
      have hv1 : Moved T b v1 := Moved.set_esc (hT.mono rfl) hs
      exact State.done_moved (hT.mono rfl) (State.report_moved (hT.mono rfl) hv1)
  · exact MovedA.next hs

theorem execFaultGraceWrite_moved {T : Nat} {b : State} (hT : Within 270846 T) {value s} (hs : Moved T b s) :
    MovedA T b (execFaultGraceWrite value s) := by
  unfold execFaultGraceWrite
  split
  · exact State.done_moved (hT.mono rfl) (State.wr_moved (hT.mono rfl) hs)
  · exact MovedA.next hs

theorem execAlertControlWrite_moved {T : Nat} {b : State} (hT : Within 270846 T) {mask force s} (hs : Moved T b s) :
    MovedA T b (execAlertControlWrite mask force s) := by
  unfold execAlertControlWrite
  split
  · extract_lets v0
    have hv0 : Moved T b v0 := Moved.ite hs (State.wr_moved (hT.mono rfl) hs)
    exact State.done_moved (hT.mono rfl) (State.wr_moved (hT.mono rfl) hv0)
  · exact MovedA.next hs

theorem State.inject_moved {T : Nat} {b : State} (hT : Within 262654 T) {s page bank bit} (hs : Moved T b s) :
    Moved T b (State.inject s page bank bit) := by
  unfold State.inject
  split
  · exact hs
  · split
    · extract_lets v0 v1
      exact Moved.set_esc (hT.mono rfl) hs
    · exact State.report_moved (hT.mono rfl) hs

theorem execInject_moved {T : Nat} {b : State} (hT : Within 270846 T) {page bank bit s} (hs : Moved T b s) :
    MovedA T b (execInject page bank bit s) := by
  unfold execInject
  split
  · extract_lets v0
    have hv0 : Moved T b v0 := State.wr_moved (hT.mono rfl) (State.wr_moved (hT.mono rfl) hs)
    exact State.done_moved (hT.mono rfl) (State.inject_moved (hT.mono rfl) (State.wr_moved (hT.mono rfl) hv0))
  · exact MovedA.next hs

theorem execWakeForce_moved {T : Nat} {b : State} (hT : Within 270846 T) {s} (hs : Moved T b s) :
    MovedA T b (execWakeForce s) := by
  unfold execWakeForce
  split
  · exact State.done_moved (hT.mono rfl) (State.latchWake_moved (hT.mono rfl) hs)
  · exact MovedA.next hs

theorem execWakeCauseClear_moved {T : Nat} {b : State} (hT : Within 270846 T) {mask met s} (hs : Moved T b s) :
    MovedA T b (execWakeCauseClear mask met s) := by
  unfold execWakeCauseClear
  split
  · exact State.done_moved (hT.mono rfl) (State.clearWake_moved (hT.mono rfl) hs)
  · exact MovedA.next hs

theorem execCrustLostClear_moved {T : Nat} {b : State} (hT : Within 270846 T) {s} (hs : Moved T b s) :
    MovedA T b (execCrustLostClear s) := by
  unfold execCrustLostClear
  split
  · exact State.done_moved (hT.mono rfl) (State.cellBit_moved (hT.mono rfl) hs)
  · exact MovedA.next hs

theorem State.stageLoad_moved {T : Nat} {b : State} (hT : Within 65536 T) {s} (hs : Moved T b s) :
    Moved T b (State.stageLoad s) := by
  unfold State.stageLoad
  exact Moved.set_opt (hT.mono rfl) hs

theorem State.commitGo_moved {T : Nat} {b : State} (hT : Within 65730 T) {s} (hs : Moved T b s) :
    Moved T b (State.commitGo s) := by
  unfold State.commitGo
  split
  · exact hs
  · split
    · extract_lets v0 v1 v2 v3
      have hv3 : Moved T b v3 := State.wr_moved (hT.mono rfl) (State.wr_moved (hT.mono rfl) hs)
      exact Moved.set_opt (hT.mono rfl) hv3
    · exact State.raise_moved (hT.mono rfl) (State.wr_moved (hT.mono rfl) hs)

theorem State.commitDone_moved {T : Nat} {b : State} (hT : Within 65730 T) {s good} (hs : Moved T b s) :
    Moved T b (State.commitDone s good) := by
  unfold State.commitDone
  split
  · exact hs
  · extract_lets v0 v1 v2 v3
    have hv2 : Moved T b v2 := Moved.set_opt (hT.mono rfl) hs
    have hv3 : Moved T b v3 := State.wr_moved (hT.mono rfl) hv2
    exact State.raise_moved (hT.mono rfl) (State.wr_moved (hT.mono rfl) hv3)

theorem execOptionStageLoad_moved {T : Nat} {b : State} (hT : Within 336382 T) {s} (hs : Moved T b s) :
    MovedA T b (execOptionStageLoad s) := by
  unfold execOptionStageLoad
  split
  · exact State.done_moved (hT.mono rfl) (State.stageLoad_moved (hT.mono rfl) hs)
  · exact MovedA.next hs

theorem execOptionCommit_moved {T : Nat} {b : State} (hT : Within 336382 T) {s} (hs : Moved T b s) :
    MovedA T b (execOptionCommit s) := by
  unfold execOptionCommit
  split
  · exact State.done_moved (hT.mono rfl) (State.commitGo_moved (hT.mono rfl) hs)
  · exact MovedA.next hs

theorem execOptionCommitDone_moved {T : Nat} {b : State} (hT : Within 336382 T) {good s} (hs : Moved T b s) :
    MovedA T b (execOptionCommitDone good s) := by
  unfold execOptionCommitDone
  split
  · exact State.done_moved (hT.mono rfl) (State.commitDone_moved (hT.mono rfl) hs)
  · exact MovedA.next hs

theorem State.fuseGo_moved {T : Nat} {b : State} (hT : Within 1048578 T) {s t confirm both} (hs : Moved T b s) :
    Moved T b (State.fuseGo s t confirm both) := by
  unfold State.fuseGo
  extract_lets v0 v1 v2
  have hv1 : Moved T b v1 := State.wr_moved (hT.mono rfl) hs
  split
  · exact hs
  · split
    · exact State.wr_moved (hT.mono rfl) hs
    · exact Moved.upd (C := 1048576) (hT.mono rfl) hv1 rfl ⟨rfl, id, id, id, id, ⟨rfl, rfl, rfl, id⟩⟩

theorem State.fuseDone_moved {T : Nat} {b : State} (hT : Within 5242882 T) {s good} (hs : Moved T b s) :
    Moved T b (State.fuseDone s good) := by
  unfold State.fuseDone
  split
  · exact hs
  · extract_lets v0 v1 v2
    have hv2 : Moved T b v2 := by
      unfold v2
      exact Moved.upd (C := 5242880) (hT.mono rfl) hs rfl ⟨rfl, id, id, id, id, Fuses.blow_le _ _ _⟩
    exact State.wr_moved (hT.mono rfl) hv2

theorem execFuseProgram_moved {T : Nat} {b : State} (hT : Within 1319422 T) {entry code confirm s} (hs : Moved T b s) :
    MovedA T b (execFuseProgram entry code confirm s) := by
  unfold execFuseProgram
  split
  · extract_lets v0 v1
    have hv0 : Moved T b v0 := State.wr_moved (hT.mono rfl) (State.wr_moved (hT.mono rfl) hs)
    have hv1 : Moved T b v1 := State.wr_moved (hT.mono rfl) (State.wr_moved (hT.mono rfl) hv0)
    exact State.done_moved (hT.mono rfl) (State.fuseGo_moved (hT.mono rfl) hv1)
  · exact MovedA.next hs

theorem execTestSeal_moved {T : Nat} {b : State} (hT : Within 1319422 T) {confirm s} (hs : Moved T b s) :
    MovedA T b (execTestSeal confirm s) := by
  unfold execTestSeal
  split
  · extract_lets v0
    have hv0 : Moved T b v0 := State.wr_moved (hT.mono rfl) (State.wr_moved (hT.mono rfl) hs)
    exact State.done_moved (hT.mono rfl) (State.fuseGo_moved (hT.mono rfl) hv0)
  · exact MovedA.next hs

theorem State.keyFields_moved {T : Nat} {b : State} (hT : Within 2 T) {s slot revoke confirm} (hs : Moved T b s) :
    Moved T b (State.keyFields s slot revoke confirm) := by
  unfold State.keyFields
  exact State.wr_moved (hT.mono rfl) (State.wr_moved (hT.mono rfl) (State.wr_moved (hT.mono rfl) hs))

theorem execKeyProgram_moved {T : Nat} {b : State} (hT : Within 1319422 T) {slot confirm s} (hs : Moved T b s) :
    MovedA T b (execKeyProgram slot confirm s) := by
  unfold execKeyProgram
  split
  · exact State.done_moved (hT.mono rfl) (State.fuseGo_moved (hT.mono rfl) (State.keyFields_moved (hT.mono rfl) hs))
  · exact MovedA.next hs

theorem execKeyRevoke_moved {T : Nat} {b : State} (hT : Within 1319422 T) {slot confirm s} (hs : Moved T b s) :
    MovedA T b (execKeyRevoke slot confirm s) := by
  unfold execKeyRevoke
  split
  · exact State.done_moved (hT.mono rfl) (State.fuseGo_moved (hT.mono rfl) (State.keyFields_moved (hT.mono rfl) hs))
  · exact MovedA.next hs

theorem execFuseProgramDone_moved {T : Nat} {b : State} (hT : Within 5513726 T) {good s} (hs : Moved T b s) :
    MovedA T b (execFuseProgramDone good s) := by
  unfold execFuseProgramDone
  split
  · exact State.done_moved (hT.mono rfl) (State.fuseDone_moved (hT.mono rfl) hs)
  · exact MovedA.next hs

theorem execWdStop_moved {T : Nat} {b : State} (hT : Within 270846 T) {on s} (hs : Moved T b s) :
    MovedA T b (execWdStop on s) := by
  unfold execWdStop
  split
  · exact State.done_moved (hT.mono rfl) (State.wr_moved (hT.mono rfl) hs)
  · exact MovedA.next hs

theorem State.tapSelect_moved {T : Nat} {b : State} (hT : Within 2097152 T) {s i captured} (hs : Moved T b s) :
    Moved T b (State.tapSelect s i captured) := by
  unfold State.tapSelect
  extract_lets v0 v1
  split
  · exact hs
  · exact Moved.ite (Moved.set_tap (hT.mono rfl) hs) (Moved.set_tap (hT.mono rfl) hs)

theorem execExtest_moved {T : Nat} {b : State} (hT : Within 2097152 T) {s} (hs : Moved T b s) :
    MovedA T b (execExtest s) := by
  unfold execExtest
  exact MovedA.next (State.tapSelect_moved (hT.mono rfl) hs)

theorem execSamplePreload_moved {T : Nat} {b : State} (hT : Within 2097152 T) {levels s} (hs : Moved T b s) :
    MovedA T b (execSamplePreload levels s) := by
  unfold execSamplePreload
  exact MovedA.ite (MovedA.next (Moved.set_tap (hT.mono rfl) hs)) (MovedA.next hs)

theorem execIdcode_moved {T : Nat} {b : State} (hT : Within 2097152 T) {s} (hs : Moved T b s) :
    MovedA T b (execIdcode s) := by
  unfold execIdcode
  exact MovedA.next (State.tapSelect_moved (hT.mono rfl) hs)

theorem execHighz_moved {T : Nat} {b : State} (hT : Within 2097152 T) {s} (hs : Moved T b s) :
    MovedA T b (execHighz s) := by
  unfold execHighz
  exact MovedA.next (State.tapSelect_moved (hT.mono rfl) hs)

theorem execClamp_moved {T : Nat} {b : State} (hT : Within 2097152 T) {s} (hs : Moved T b s) :
    MovedA T b (execClamp s) := by
  unfold execClamp
  exact MovedA.next (State.tapSelect_moved (hT.mono rfl) hs)

theorem execBypass_moved {T : Nat} {b : State} (hT : Within 2097152 T) {s} (hs : Moved T b s) :
    MovedA T b (execBypass s) := by
  unfold execBypass
  exact MovedA.next (State.tapSelect_moved (hT.mono rfl) hs)

theorem execTrstN_moved {T : Nat} {b : State} (hT : Within 2097152 T) {s} (hs : Moved T b s) :
    MovedA T b (execTrstN s) := by
  unfold execTrstN
  exact MovedA.ite (MovedA.next (Moved.set_tap (hT.mono rfl) hs)) (MovedA.next hs)

end Sys2Proof.Machine
end

