-- ==== Sys2Proof/Laws/MovedCmds.lean ====
section
/-!
SUPPORT. Which parts of the card change, and that nothing is broken: the command rings, the plain commands and the Slices. One lemma per operation, in the order of the
model's files.
-/
namespace Sys2Proof.Machine

theorem State.pushed_moved {T : Nat} {b : State} (hT : Within 194 T) {s ring before} (hs : Moved T b s) :
    Moved T b (State.pushed s ring before) := by
  unfold State.pushed
  extract_lets v0 v1
  have hv1 : Moved T b v1 := Moved.ite (State.wr_moved (hT.mono rfl) hs) hs
  exact State.submitRose_moved (hT.mono rfl) hv1

theorem State.commitStamp_moved {T : Nat} {b : State} (hT : Within 1026 T) {s c} (hs : Moved T b s) :
    Moved T b (State.commitStamp s c) := by
  unfold State.commitStamp
  split
  · extract_lets v0 v1
    have hv0 : Moved T b v0 := State.wr_moved (hT.mono rfl) hs
    exact Moved.set_shelf (hT.mono rfl) hv0
  · exact hs

theorem State.stamp_moved {T : Nat} {b : State} (hT : Within 9726 T) {s orig tag opcode fields bcast idMode payload}
    (hs : Moved T b s) :
    Moved T b (State.stamp s orig tag opcode fields bcast idMode payload) := by
  unfold State.stamp
  extract_lets v0 v1 v2 v3 v4 v5 v6 v7 v8
  have hv1 : Moved T b v1 := State.wr_moved (hT.mono rfl) hs
  have hv2 : Moved T b v2 := Moved.ite (State.latchWake_moved (hT.mono rfl) hv1) hv1
  have hv7 : Moved T b v7 := Moved.set_cmds (hT.mono rfl) hv2
  have hv8 : Moved T b v8 := State.commitStamp_moved (hT.mono rfl) hv7
  split
  · exact State.complete_moved (hT.mono rfl) hv7
  · split
    · exact State.complete_moved (hT.mono rfl) hv7
    · clear_value v3
      split
      · exact State.pushed_moved (hT.mono rfl) hv8
      · exact hv8

theorem State.dataReq_moved {T : Nat} {b : State} (hT : Within 20 T) {s c} (hs : Moved T b s) :
    Moved T b (State.dataReq s c) := by
  unfold State.dataReq
  extract_lets v0
  exact State.enqueue_moved (hT.mono rfl) (State.setCmd_moved (hT.mono rfl) hs)

theorem State.postDeferred_moved {T : Nat} {b : State} (hT : Within 214 T) {s} (hs : Moved T b s) :
    Moved T b (State.postDeferred s) := by
  unfold State.postDeferred
  exact foldl_moved hs (fun u0 x1 h2 => Moved.ite (State.placeCompletion_moved (hT.mono rfl) h2) h2)

theorem State.fetchEnd_moved {T : Nat} {b : State} (hT : Within 510 T) {s q} (hs : Moved T b s) :
    Moved T b (State.fetchEnd s q) := by
  unfold State.fetchEnd
  split
  · split
    · extract_lets v0 v1 v2
      have hv1 : Moved T b v1 := Moved.set_attn (hT.mono rfl) hs
      have hv2 : Moved T b v2 := State.postDeferred_moved (hT.mono rfl) (State.complete_moved (hT.mono rfl) hv1)
      exact foldl_moved hv2 (fun u3 x4 h5 => State.attnRose_moved (hT.mono rfl) h5)
    · exact hs
  · exact hs

theorem State.dataEnd_moved {T : Nat} {b : State} (hT : Within 2558 T) {s q} (hs : Moved T b s) :
    Moved T b (State.dataEnd s q) := by
  unfold State.dataEnd
  split
  · extract_lets v0 v1 v2
    have hv1 : Moved T b v1 := State.setCmd_moved (hT.mono rfl) hs
    have hv2 : Moved T b v2 := Moved.ite (State.scanJob_moved (hT.mono rfl) hv1) hv1
    exact State.setDesc_moved (hT.mono rfl) hv2
  · exact hs

theorem State.takeData_moved {T : Nat} {b : State} (hT : Within 2558 T) {s addr orig tag index payload} (hs : Moved T
    b s) :
    Moved T b (State.takeData s addr orig tag index payload) := by
  unfold State.takeData
  extract_lets v0
  clear_value v0
  split
  · split
    · extract_lets v1 v2
      have hv1 : Moved T b v1 := State.setCmd_moved (hT.mono rfl) hs
      have hv2 : Moved T b v2 := State.setDesc_moved (hT.mono rfl) hv1
      split
      · exact State.endCmd_moved (hT.mono rfl) hv2
      · exact Moved.ite (State.dataEnd_moved (hT.mono rfl) hv2) hv2
    · exact State.tally_moved (hT.mono rfl) hs
  · exact State.tally_moved (hT.mono rfl) hs

theorem execNop_moved {T : Nat} {b : State} (hT : Within 270846 T) {q s} (hs : Moved T b s) :
    MovedA T b (execNop q s) := by
  unfold execNop
  exact State.done_moved (hT.mono rfl) (State.onCmd_moved (hT.mono rfl) hs (fun y0 => State.complete_moved (hT.mono
      rfl) hs))

theorem execIdentify_moved {T : Nat} {b : State} (hT : Within 270846 T) {q s} (hs : Moved T b s) :
    MovedA T b (execIdentify q s) := by
  unfold execIdentify
  exact State.done_moved (hT.mono rfl) (State.onCmd_moved (hT.mono rfl) hs (fun y0 => State.complete_moved (hT.mono
      rfl) hs))

theorem execAssignAddress_moved {T : Nat} {b : State} (hT : Within 270846 T) {q s} (hs : Moved T b s) :
    MovedA T b (execAssignAddress q s) := by
  unfold execAssignAddress
  refine State.done_moved (hT.mono rfl) ?_
  refine State.onCmd_moved (hT.mono rfl) hs ?_
  intro y0
  extract_lets v1
  have hv1 : Moved T b v1 := State.wr_moved (hT.mono rfl) (State.wr_moved (hT.mono rfl) hs)
  exact State.complete_moved (hT.mono rfl) (State.raise_moved (hT.mono rfl) (State.bump_moved (hT.mono rfl) hv1))

theorem execSwitch_moved {T : Nat} {b : State} (hT : Within 270846 T) {q s} (hs : Moved T b s) :
    MovedA T b (execSwitch q s) := by
  unfold execSwitch
  refine State.done_moved (hT.mono rfl) ?_
  refine State.onCmd_moved (hT.mono rfl) hs ?_
  intro y0
  extract_lets v1 v2
  have hv1 : Moved T b v1 := State.complete_moved (hT.mono rfl) hs
  exact Moved.set_link (hT.mono rfl) hv1

theorem execDeclareClock_moved {T : Nat} {b : State} (hT : Within 270846 T) {q s} (hs : Moved T b s) :
    MovedA T b (execDeclareClock q s) := by
  unfold execDeclareClock
  exact State.done_moved (hT.mono rfl) (State.onCmd_moved (hT.mono rfl) hs (fun y0 => State.setCmd_moved (hT.mono rfl)
      hs))

theorem State.loadCounts_moved {T : Nat} {b : State} (hT : Within 2048 T) {s khz} (hs : Moved T b s) :
    Moved T b (State.loadCounts s khz) := by
  unfold State.loadCounts
  exact State.onFlash_moved (hT.mono rfl) hs

theorem execDeclareClockCountsLoad_moved {T : Nat} {b : State} (hT : Within 272894 T) {q s} (hs : Moved T b s) :
    MovedA T b (execDeclareClockCountsLoad q s) := by
  unfold execDeclareClockCountsLoad
  refine State.done_moved (hT.mono rfl) ?_
  refine State.onCmd_moved (hT.mono rfl) hs ?_
  intro y0
  split
  · exact State.endCmd_moved (hT.mono rfl) hs
  · split
    · extract_lets v1 v2 v3 v4 v5
      have hv3 : Moved T b v3 := State.wr_moved (hT.mono rfl) hs
      have hv4 : Moved T b v4 := Moved.ite (State.raise_moved (hT.mono rfl) hv3) hv3
      have hv5 : Moved T b v5 := by
        unfold v5
        split
        · exact State.newFrequency_moved (hT.mono rfl) (State.loadCounts_moved (hT.mono rfl) hv4)
        · exact hv4
      exact State.complete_moved (hT.mono rfl) hv5
    · exact hs

theorem State.setOrig_moved {T : Nat} {b : State} (hT : Within 256 T) {s o f} (hs : Moved T b s) :
    Moved T b (State.setOrig s o f) := by
  unfold State.setOrig
  exact Moved.set_origs (hT.mono rfl) hs

theorem execHello_moved {T : Nat} {b : State} (hT : Within 270846 T) {q s} (hs : Moved T b s) :
    MovedA T b (execHello q s) := by
  unfold execHello
  refine State.done_moved (hT.mono rfl) ?_
  refine State.onCmd_moved (hT.mono rfl) hs ?_
  intro y0
  extract_lets v1 v2
  split
  · exact State.complete_moved (hT.mono rfl) (State.raise_moved (hT.mono rfl) hs)
  · split
    · exact State.complete_moved (hT.mono rfl) hs
    · exact State.setCmd_moved (hT.mono rfl) hs

theorem execHelloEpochRecord_moved {T : Nat} {b : State} (hT : Within 271358 T) {q s} (hs : Moved T b s) :
    MovedA T b (execHelloEpochRecord q s) := by
  unfold execHelloEpochRecord
  refine State.done_moved (hT.mono rfl) ?_
  refine State.onCmd_moved (hT.mono rfl) hs ?_
  intro y0
  split
  · extract_lets v1 v2 v3 v4
    have hv2 : Moved T b v2 := State.setOrig_moved (hT.mono rfl) hs
    have hv3 : Moved T b v3 := Moved.ite (State.raise_moved (hT.mono rfl) hv2) hv2
    have hv4 : Moved T b v4 := by
      unfold v4
      refine foldl_moved hv3 ?_
      intro u5 x6 h7
      split
      · split
        · exact State.raise_moved (hT.mono rfl) (State.setSlice_moved (hT.mono rfl) h7)
        · exact h7
      · exact h7
    exact State.complete_moved (hT.mono rfl) hv4
  · exact hs

theorem State.veto_moved {T : Nat} {b : State} (hT : Within 510 T) {s q reason} (hs : Moved T b s) :
    Moved T b (State.veto s q reason) := by
  unfold State.veto
  extract_lets v0
  have hv0 : Moved T b v0 := State.bump_moved (hT.mono rfl) (State.wr_moved (hT.mono rfl) hs)
  exact State.complete_moved (hT.mono rfl) (State.raise_moved (hT.mono rfl) hv0)

theorem execSleepPropose_moved {T : Nat} {b : State} (hT : Within 271870 T) {q s} (hs : Moved T b s) :
    MovedA T b (execSleepPropose q s) := by
  unfold execSleepPropose
  refine State.done_moved (hT.mono rfl) ?_
  refine State.onCmd_moved (hT.mono rfl) hs ?_
  intro y0
  split
  · exact hs
  · extract_lets v1 v2 v3
    have hv2 : Moved T b v2 := State.wr_moved (hT.mono rfl) (State.setCmd_moved (hT.mono rfl) hs)
    split
    · exact State.veto_moved (hT.mono rfl) hs
    · split
      · exact State.complete_moved (hT.mono rfl) hs
      · exact Moved.set_shelf (hT.mono rfl) hv2

theorem State.vetoEdge_moved {T : Nat} {b : State} (hT : Within 1534 T) {s} (hs : Moved T b s) :
    Moved T b (State.vetoEdge s) := by
  unfold State.vetoEdge
  split
  · exact hs
  · extract_lets v0
    have hv0 : ∀ y1, Moved T b y1 → Moved T b (v0 y1) := by
      intro y2 h3
      unfold v0
      extract_lets v4 v5
      have hv4 : Moved T b v4 := State.wr_moved (hT.mono rfl) h3
      exact Moved.set_shelf (hT.mono rfl) hv4
    split
    · exact State.complete_moved (hT.mono rfl) (hv0 _ hs)
    · exact Moved.ite (State.veto_moved (hT.mono rfl) (hv0 _ hs)) hs

theorem execSleepVeto_moved {T : Nat} {b : State} (hT : Within 271870 T) {s} (hs : Moved T b s) :
    MovedA T b (execSleepVeto s) := by
  unfold execSleepVeto
  split
  · exact State.done_moved (hT.mono rfl) (State.vetoEdge_moved (hT.mono rfl) hs)
  · exact MovedA.next hs

theorem State.windowEnds_moved {T : Nat} {b : State} (hT : Within 1534 T) {s} (hs : Moved T b s) :
    Moved T b (State.windowEnds s) := by
  unfold State.windowEnds
  extract_lets v0 v1
  have hv0 : Moved T b v0 := State.vetoEdge_moved (hT.mono rfl) hs
  have hv1 : Moved T b v1 := State.wr_moved (hT.mono rfl) hv0
  split
  · extract_lets v2 v3 v4 v5
    have hv3 : Moved T b v3 := State.wr_moved (hT.mono rfl) hv1
    have hv5 : Moved T b v5 := Moved.set_shelf (hT.mono rfl) hv3
    exact State.complete_moved (hT.mono rfl) hv5
  · exact hv0

theorem execVetoWindowEnd_moved {T : Nat} {b : State} (hT : Within 271870 T) {s} (hs : Moved T b s) :
    MovedA T b (execVetoWindowEnd s) := by
  unfold execVetoWindowEnd
  split
  · exact State.done_moved (hT.mono rfl) (State.windowEnds_moved (hT.mono rfl) hs)
  · exact MovedA.next hs

theorem execSleepCommit_moved {T : Nat} {b : State} (hT : Within 270846 T) {q s} (hs : Moved T b s) :
    MovedA T b (execSleepCommit q s) := by
  unfold execSleepCommit
  refine State.done_moved (hT.mono rfl) ?_
  refine State.onCmd_moved (hT.mono rfl) hs ?_
  intro y0
  split
  · exact State.setCmd_moved (hT.mono rfl) hs
  · exact State.complete_moved (hT.mono rfl) hs

theorem execSleepCommitComplete_moved {T : Nat} {b : State} (hT : Within 271870 T) {q s} (hs : Moved T b s) :
    MovedA T b (execSleepCommitComplete q s) := by
  unfold execSleepCommitComplete
  refine State.done_moved (hT.mono rfl) ?_
  refine State.onCmd_moved (hT.mono rfl) hs ?_
  intro y0
  split
  · exact hs
  · split
    · extract_lets v1 v2
      have hv1 : Moved T b v1 := State.wr_moved (hT.mono rfl) hs
      exact State.complete_moved (hT.mono rfl) (Moved.set_shelf (hT.mono rfl) hv1)
    · extract_lets v3 v4 v5
      have hv4 : Moved T b v4 := Moved.set_shelf (hT.mono rfl) hs
      exact State.complete_moved (hT.mono rfl) (Moved.set_esc (hT.mono rfl) hv4)

theorem execReset_moved {T : Nat} {b : State} (hT : Within 274942 T) {q s} (hs : Moved T b s) :
    MovedA T b (execReset q s) := by
  unfold execReset
  refine State.done_moved (hT.mono rfl) ?_
  refine State.onCmd_moved (hT.mono rfl) hs ?_
  intro y0
  split
  · exact State.complete_moved (hT.mono rfl) hs
  · extract_lets v1
    exact State.complete_moved (hT.mono rfl) (State.requestReset_moved (hT.mono rfl) hs)

theorem execAbort_moved {T : Nat} {b : State} (hT : Within 272894 T) {q s} (hs : Moved T b s) :
    MovedA T b (execAbort q s) := by
  unfold execAbort
  refine State.done_moved (hT.mono rfl) ?_
  refine State.onCmd_moved (hT.mono rfl) hs ?_
  intro y0
  split
  · exact State.complete_moved (hT.mono rfl) hs
  · split
    · exact State.complete_moved (hT.mono rfl) hs
    · extract_lets v1
      have hv1 : Moved T b v1 := State.setCmd_moved (hT.mono rfl) (State.setCmd_moved (hT.mono rfl) hs)
      exact Moved.ite (State.endCmd_moved (hT.mono rfl) hv1) hv1

theorem execAbortTakesEffect_moved {T : Nat} {b : State} (hT : Within 272894 T) {q s} (hs : Moved T b s) :
    MovedA T b (execAbortTakesEffect q s) := by
  unfold execAbortTakesEffect
  split
  · split
    · exact State.done_moved (hT.mono rfl) (State.abortNow_moved (hT.mono rfl) hs)
    · exact MovedA.next hs
  · exact MovedA.next hs

theorem State.sampleDies_moved {T : Nat} {b : State} (hT : Within 2558 T) {s} (hs : Moved T b s) :
    Moved T b (State.sampleDies s) := by
  unfold State.sampleDies
  refine State.flashSettle_moved (hT.mono rfl) ?_
  refine foldl_moved hs ?_
  intro u0 x1 h2
  split
  · exact State.arrayRead_moved (hT.mono rfl) (State.countGrant_moved (hT.mono rfl) h2)
  · exact h2

theorem execSelftest_moved {T : Nat} {b : State} (hT : Within 272894 T) {q findings s} (hs : Moved T b s) :
    MovedA T b (execSelftest q findings s) := by
  unfold execSelftest
  refine State.done_moved (hT.mono rfl) ?_
  refine State.onCmd_moved (hT.mono rfl) hs ?_
  intro y0
  extract_lets v1 v2
  have hv2 : Moved T b v2 := Moved.ite (State.sampleDies_moved (hT.mono rfl) hs) hs
  split
  · exact State.complete_moved (hT.mono rfl) hs
  · exact State.complete_moved (hT.mono rfl) hv2

theorem execSliceCreate_moved {T : Nat} {b : State} (hT : Within 8840190 T) {q s} (hs : Moved T b s) :
    MovedA T b (execSliceCreate q s) := by
  unfold execSliceCreate
  refine State.done_moved (hT.mono rfl) ?_
  refine State.onCmd_moved (hT.mono rfl) hs ?_
  intro y0
  extract_lets v1 v2 v3 v4 v5 v6 v7
  have hv3 : Moved T b v3 := Moved.ite (Moved.set_keys (hT.mono rfl) hs) hs
  have hv5 : Moved T b v5 := State.setSlice_moved (hT.mono rfl) hv3
  have hv6 : Moved T b v6 := foldl_moved hv5 (fun u8 x9 h10 => State.wr_moved (hT.mono rfl) h10)
  have hv7 : Moved T b v7 := by
    unfold v7
    split
    · exact State.persist_moved (hT.mono rfl) (State.persist_moved (hT.mono rfl) hv6)
    · exact State.persist_moved (hT.mono rfl) hv6
  split
  · exact State.complete_moved (hT.mono rfl) hs
  · split
    · exact State.complete_moved (hT.mono rfl) hs
    · split
      · exact hs
      · exact State.complete_moved (hT.mono rfl) (State.raise_moved (hT.mono rfl) hv7)

theorem execSliceBindChallenge_moved {T : Nat} {b : State} (hT : Within 4465150 T) {q s} (hs : Moved T b s) :
    MovedA T b (execSliceBindChallenge q s) := by
  unfold execSliceBindChallenge
  refine State.done_moved (hT.mono rfl) ?_
  refine State.onCmd_moved (hT.mono rfl) hs ?_
  intro y0
  split
  · exact hs
  · extract_lets v1 v2 v3
    have hv3 : Moved T b v3 := Moved.set_draws (hT.mono rfl) hs
    split
    · exact State.complete_moved (hT.mono rfl) hs
    · exact State.complete_moved (hT.mono rfl) (State.setOrig_moved (hT.mono rfl) hv3)

theorem execSliceBindAnswer_moved {T : Nat} {b : State} (hT : Within 271358 T) {q s} (hs : Moved T b s) :
    MovedA T b (execSliceBindAnswer q s) := by
  unfold execSliceBindAnswer
  refine State.done_moved (hT.mono rfl) ?_
  refine State.onCmd_moved (hT.mono rfl) hs ?_
  intro y0
  split
  · exact hs
  · extract_lets v1 v2 v3 v4 v5 v6
    have hv2 : Moved T b v2 := State.setSlice_moved (hT.mono rfl) hs
    have hv5 : Moved T b v5 := State.raise_moved (hT.mono rfl) (State.wr_moved (hT.mono rfl) hs)
    have hv6 : Moved T b v6 := Moved.ite (State.raise_moved (hT.mono rfl) (State.wr_moved (hT.mono rfl) hv5)) hv5
    split
    · exact State.complete_moved (hT.mono rfl) hs
    · extract_lets v7
      split
      · exact State.complete_moved (hT.mono rfl) hs
      · split
        · exact State.complete_moved (hT.mono rfl) (State.raise_moved (hT.mono rfl) (State.wr_moved (hT.mono rfl) hv2))
        · exact State.complete_moved (hT.mono rfl) hv6

theorem execSliceUnbind_moved {T : Nat} {b : State} (hT : Within 270846 T) {q s} (hs : Moved T b s) :
    MovedA T b (execSliceUnbind q s) := by
  unfold execSliceUnbind
  refine State.done_moved (hT.mono rfl) ?_
  refine State.onCmd_moved (hT.mono rfl) hs ?_
  intro y0
  extract_lets v1
  split
  · exact State.complete_moved (hT.mono rfl) hs
  · exact State.setCmd_moved (hT.mono rfl) hs

theorem State.unbind_moved {T : Nat} {b : State} (hT : Within 706 T) {s i sender} (hs : Moved T b s) :
    Moved T b (State.unbind s i sender) := by
  unfold State.unbind
  split
  · exact hs
  · extract_lets v0 v1 v2
    have hv1 : Moved T b v1 := State.setSlice_moved (hT.mono rfl) hs
    have hv2 : Moved T b v2 := Moved.ite (State.raise_moved (hT.mono rfl) hv1) hv1
    exact State.raise_moved (hT.mono rfl) hv2

theorem execSliceUnbindComplete_moved {T : Nat} {b : State} (hT : Within 271358 T) {q s} (hs : Moved T b s) :
    MovedA T b (execSliceUnbindComplete q s) := by
  unfold execSliceUnbindComplete
  refine State.done_moved (hT.mono rfl) ?_
  refine State.onCmd_moved (hT.mono rfl) hs ?_
  intro y0
  extract_lets v1
  split
  · exact State.complete_moved (hT.mono rfl) (State.unbind_moved (hT.mono rfl) hs)
  · exact hs

theorem State.takeLock_moved {T : Nat} {b : State} (hT : Within 830 T) {s c i} (hs : Moved T b s) :
    Moved T b (State.takeLock s c i) := by
  unfold State.takeLock
  extract_lets v0
  exact State.complete_moved (hT.mono rfl) (State.setSlice_moved (hT.mono rfl) hs)

theorem execSliceLock_moved {T : Nat} {b : State} (hT : Within 271358 T) {q s} (hs : Moved T b s) :
    MovedA T b (execSliceLock q s) := by
  unfold execSliceLock
  refine State.done_moved (hT.mono rfl) ?_
  refine State.onCmd_moved (hT.mono rfl) hs ?_
  intro y0
  extract_lets v1
  split
  · split
    · exact State.complete_moved (hT.mono rfl) (State.bump_moved (hT.mono rfl) hs)
    · exact State.takeLock_moved (hT.mono rfl) hs
  · exact State.takeLock_moved (hT.mono rfl) hs

theorem execSliceUnlock_moved {T : Nat} {b : State} (hT : Within 271358 T) {q s} (hs : Moved T b s) :
    MovedA T b (execSliceUnlock q s) := by
  unfold execSliceUnlock
  refine State.done_moved (hT.mono rfl) ?_
  refine State.onCmd_moved (hT.mono rfl) hs ?_
  intro y0
  extract_lets v1 v2
  have hv2 : Moved T b v2 := State.setSlice_moved (hT.mono rfl) hs
  split
  · exact State.complete_moved (hT.mono rfl) hs
  · split
    · exact State.complete_moved (hT.mono rfl) hv2
    · split
      · exact State.complete_moved (hT.mono rfl) (State.raise_moved (hT.mono rfl) hv2)
      · exact State.complete_moved (hT.mono rfl) hs

theorem State.expireLease_moved {T : Nat} {b : State} (hT : Within 706 T) {s i} (hs : Moved T b s) :
    Moved T b (State.expireLease s i) := by
  unfold State.expireLease
  exact State.raise_moved (hT.mono rfl) (State.setSlice_moved (hT.mono rfl) hs)

theorem execLeaseExpired_moved {T : Nat} {b : State} (hT : Within 271358 T) {slice s} (hs : Moved T b s) :
    MovedA T b (execLeaseExpired slice s) := by
  unfold execLeaseExpired
  split
  · split
    · split
      · exact State.done_moved (hT.mono rfl) (State.expireLease_moved (hT.mono rfl) hs)
      · exact MovedA.next hs
    · exact MovedA.next hs
  · exact MovedA.next hs

theorem State.endSlice_moved {T : Nat} {b : State} (hT : Within 2430 T) {s i cs} (hs : Moved T b s) :
    Moved T b (State.endSlice s i cs) := by
  unfold State.endSlice
  extract_lets v0 v1
  have hv1 : Moved T b v1 := by
    unfold v1
    refine foldl_moved hs ?_
    intro u2 x3 h4
    extract_lets v5 v6
    have hv5 : Moved T b v5 := Moved.ite (State.bump_moved (hT.mono rfl) h4) h4
    have hv6 : Moved T b v6 := Moved.ite (Moved.set_attn (hT.mono rfl) hv5) hv5
    exact State.endTrim_moved (hT.mono rfl) hv6
  clear_value v1
  exact Moved.upd (C := 2) (hT.mono rfl) hv1 rfl ⟨rfl, (storeWf_clear _), id, id, id, .refl _⟩

theorem State.beginReset_moved {T : Nat} {b : State} (hT : Within 3070 T) {s i mover cs} (hs : Moved T b s) :
    Moved T b (State.beginReset s i mover cs) := by
  unfold State.beginReset
  extract_lets v0
  have hv0 : Moved T b v0 := State.endSlice_moved (hT.mono rfl) (State.setSlice_moved (hT.mono rfl) hs)
  exact State.flashSettle_moved (hT.mono rfl) (State.snapSweep_moved (hT.mono rfl) hv0)

theorem execSliceReset_moved {T : Nat} {b : State} (hT : Within 273406 T) {q s} (hs : Moved T b s) :
    MovedA T b (execSliceReset q s) := by
  unfold execSliceReset
  refine State.done_moved (hT.mono rfl) ?_
  refine State.onCmd_moved (hT.mono rfl) hs ?_
  intro y0
  extract_lets v1
  split
  · exact State.complete_moved (hT.mono rfl) hs
  · exact State.beginReset_moved (hT.mono rfl) (State.setCmd_moved (hT.mono rfl) hs)

theorem execSliceResetEnd_moved {T : Nat} {b : State} (hT : Within 271358 T) {slice s} (hs : Moved T b s) :
    MovedA T b (execSliceResetEnd slice s) := by
  unfold execSliceResetEnd
  split
  · extract_lets v0 v1 v2
    have hv1 : Moved T b v1 := State.setSlice_moved (hT.mono rfl) hs
    have hv2 : Moved T b v2 := State.raise_moved (hT.mono rfl) (State.bump_moved (hT.mono rfl) hv1)
    clear_value v0
    split
    · exact State.done_moved (hT.mono rfl) (State.complete_moved (hT.mono rfl) hv2)
    · exact State.done_moved (hT.mono rfl) hv2
  · exact MovedA.next hs

theorem State.sliceSoftReset_moved {T : Nat} {b : State} (hT : Within 3070 T) {s i cs} (hs : Moved T b s) :
    Moved T b (State.sliceSoftReset s i cs) := by
  unfold State.sliceSoftReset
  exact Moved.ite (State.beginReset_moved (hT.mono rfl) hs) hs

theorem execSliceSoftReset_moved {T : Nat} {b : State} (hT : Within 273406 T) {slice s} (hs : Moved T b s) :
    MovedA T b (execSliceSoftReset slice s) := by
  unfold execSliceSoftReset
  split
  · exact State.done_moved (hT.mono rfl) (State.sliceSoftReset_moved (hT.mono rfl) hs)
  · exact MovedA.next hs

theorem execSliceDestroy_moved {T : Nat} {b : State} (hT : Within 273406 T) {q s} (hs : Moved T b s) :
    MovedA T b (execSliceDestroy q s) := by
  unfold execSliceDestroy
  refine State.done_moved (hT.mono rfl) ?_
  refine State.onCmd_moved (hT.mono rfl) hs ?_
  intro y0
  extract_lets v1 v2 v3
  have hv2 : Moved T b v2 := State.setCmd_moved (hT.mono rfl) hs
  have hv3 : Moved T b v3 := State.endSlice_moved (hT.mono rfl) (State.setSlice_moved (hT.mono rfl) hv2)
  split
  · exact State.complete_moved (hT.mono rfl) hs
  · exact State.flashSettle_moved (hT.mono rfl) (State.snapSweep_moved (hT.mono rfl) (State.unbind_moved (hT.mono rfl)
        hv3))

theorem execSliceDestroyComplete_moved {T : Nat} {b : State} (hT : Within 453630 T) {q s} (hs : Moved T b s) :
    MovedA T b (execSliceDestroyComplete q s) := by
  unfold execSliceDestroyComplete
  refine State.done_moved (hT.mono rfl) ?_
  refine State.onCmd_moved (hT.mono rfl) hs ?_
  intro y0
  extract_lets v1 v2 v3 v4
  have hv2 : Moved T b v2 := Moved.set_attn (hT.mono rfl) hs
  have hv3 : Moved T b v3 := State.setSlice_moved (hT.mono rfl) (State.releaseMap_moved (hT.mono rfl) hv2)
  have hv4 : Moved T b v4 := State.raise_moved (hT.mono rfl) (State.persist_moved (hT.mono rfl) (State.persist_moved
      (hT.mono rfl) hv3))
  split
  · exact hs
  · exact State.flashSettle_moved (hT.mono rfl) (State.complete_moved (hT.mono rfl) hv4)

theorem State.setCfg_moved {T : Nat} {b : State} (hT : Within 180930 T) {s i f} (hs : Moved T b s) :
    Moved T b (State.setCfg s i f) := by
  unfold State.setCfg
  exact State.raise_moved (hT.mono rfl) (State.persist_moved (hT.mono rfl) (State.setSlice_moved (hT.mono rfl) hs))

theorem State.landCapacity_moved {T : Nat} {b : State} (hT : Within 183294 T) {s i cap} (hs : Moved T b s) :
    Moved T b (State.landCapacity s i cap) := by
  unfold State.landCapacity
  extract_lets v0 v1
  have hv1 : Moved T b v1 := Moved.ite (State.trimRange_moved (hT.mono rfl) hs) hs
  exact State.flashSettle_moved (hT.mono rfl) (State.setCfg_moved (hT.mono rfl) hv1)

theorem State.writeCapacity_moved {T : Nat} {b : State} (hT : Within 183294 T) {s q i cap} (hs : Moved T b s) :
    Moved T b (State.writeCapacity s q i cap) := by
  unfold State.writeCapacity
  split
  · exact State.setSlice_moved (hT.mono rfl) hs
  · exact State.landCapacity_moved (hT.mono rfl) hs

theorem execCapacityWrite_moved {T : Nat} {b : State} (hT : Within 453630 T) {q slice cap s} (hs : Moved T b s) :
    MovedA T b (execCapacityWrite q slice cap s) := by
  unfold execCapacityWrite
  extract_lets v0
  split
  · exact State.done_moved (hT.mono rfl) (State.writeCapacity_moved (hT.mono rfl) hs)
  · exact MovedA.next hs

theorem State.writePin_moved {T : Nat} {b : State} (hT : Within 180930 T) {s i on} (hs : Moved T b s) :
    Moved T b (State.writePin s i on) := by
  unfold State.writePin
  extract_lets v0 v1
  have hv1 : Moved T b v1 := State.setCfg_moved (hT.mono rfl) hs
  split
  · exact State.pinSettle_moved (hT.mono rfl) (State.setSlice_moved (hT.mono rfl) hv1)
  · exact Moved.ite hv1 (State.setSlice_moved (hT.mono rfl) hv1)

theorem execMapPin_moved {T : Nat} {b : State} (hT : Within 451582 T) {slice on s} (hs : Moved T b s) :
    MovedA T b (execMapPin slice on s) := by
  unfold execMapPin
  split
  · exact State.done_moved (hT.mono rfl) (State.writePin_moved (hT.mono rfl) hs)
  · exact MovedA.next hs

theorem State.clearAuth_moved {T : Nat} {b : State} (hT : Within 2 T) {s i} (hs : Moved T b s) :
    Moved T b (State.clearAuth s i) := by
  unfold State.clearAuth
  exact State.wr_moved (hT.mono rfl) (State.wr_moved (hT.mono rfl) hs)

theorem execAuthClear_moved {T : Nat} {b : State} (hT : Within 270846 T) {slice s} (hs : Moved T b s) :
    MovedA T b (execAuthClear slice s) := by
  unfold execAuthClear
  split
  · exact State.done_moved (hT.mono rfl) (State.clearAuth_moved (hT.mono rfl) hs)
  · exact MovedA.next hs

theorem execBindKeyWrite_moved {T : Nat} {b : State} (hT : Within 451582 T) {slice key s} (hs : Moved T b s) :
    MovedA T b (execBindKeyWrite slice key s) := by
  unfold execBindKeyWrite
  split
  · exact State.done_moved (hT.mono rfl) (State.setCfg_moved (hT.mono rfl) hs)
  · exact MovedA.next hs

theorem State.writeQos_moved {T : Nat} {b : State} (hT : Within 180930 T) {s i cls weight dieCap} (hs : Moved T b s) :
    Moved T b (State.writeQos s i cls weight dieCap) := by
  unfold State.writeQos
  exact State.setCfg_moved (hT.mono rfl) hs

theorem execQosWrite_moved {T : Nat} {b : State} (hT : Within 451582 T) {slice cls weight dieCap s} (hs : Moved T b s) :
    MovedA T b (execQosWrite slice cls weight dieCap s) := by
  unfold execQosWrite
  split
  · exact State.done_moved (hT.mono rfl) (State.writeQos_moved (hT.mono rfl) hs)
  · exact MovedA.next hs

theorem State.clearHwm_moved {T : Nat} {b : State} (hT : Within 2 T) {s i} (hs : Moved T b s) :
    Moved T b (State.clearHwm s i) := by
  unfold State.clearHwm
  exact State.wr_moved (hT.mono rfl) (State.wr_moved (hT.mono rfl) hs)

theorem execHwmClr_moved {T : Nat} {b : State} (hT : Within 270846 T) {slice s} (hs : Moved T b s) :
    MovedA T b (execHwmClr slice s) := by
  unfold execHwmClr
  split
  · exact State.done_moved (hT.mono rfl) (State.clearHwm_moved (hT.mono rfl) hs)
  · exact MovedA.next hs

end Sys2Proof.Machine
end

