-- ==== Sys2Proof/Laws/MovedLink.lean ====
section
/-!
SUPPORT. Which parts of the card change, and that nothing is broken: the link, register commands and the decoder. One lemma per operation, in the order of the
model's files.
-/
namespace Sys2Proof.Machine

theorem State.onLink_moved {T : Nat} {b : State} (hT : Within 4 T) {s f} (hs : Moved T b s) :
    Moved T b (State.onLink s f) := by
  unfold State.onLink
  exact Moved.set_link (hT.mono rfl) hs

theorem State.endLink_moved {T : Nat} {b : State} (hT : Within 2558 T) {s q} (hs : Moved T b s) :
    Moved T b (State.endLink s q) := by
  unfold State.endLink
  exact State.tally_moved (hT.mono rfl) (State.endCmd_moved (hT.mono rfl) hs)

theorem State.reopen_moved {T : Nat} {b : State} (hT : Within 210 T) {s f} (hs : Moved T b s) :
    Moved T b (State.reopen s f) := by
  unfold State.reopen
  extract_lets v0
  have hv0 : Moved T b v0 := Moved.ite (State.tally_moved (hT.mono rfl) hs) hs
  exact Moved.ite (State.setCmd_moved (hT.mono rfl) hv0) (Moved.set_cmds (hT.mono rfl) hv0)

theorem State.linkLoss_moved {T : Nat} {b : State} (hT : Within 2558 T) {s} (hs : Moved T b s) :
    Moved T b (State.linkLoss s) := by
  unfold State.linkLoss
  extract_lets v0 v1 v2 v3 v4 v5 v6 v7 v8
  have hv3 : Moved T b v3 := State.onLink_moved (hT.mono rfl) hs
  have hv4 : Moved T b v4 := foldl_moved hv3 (fun u12 x13 h14 => State.reopen_moved (hT.mono rfl) h14)
  have hv5 : Moved T b v5 := Moved.set_attn (hT.mono rfl) hv4
  have hv7 : Moved T b v7 := Moved.ite hv5 (State.onLink_moved (hT.mono rfl) hv5)
  exact foldl_moved hv7 (fun u9 x10 h11 => State.endLink_moved (hT.mono rfl) h11)

theorem State.disarm_moved {T : Nat} {b : State} (hT : Within 1026 T) {s} (hs : Moved T b s) :
    Moved T b (State.disarm s) := by
  unfold State.disarm
  split
  · extract_lets v0 v1
    have hv0 : Moved T b v0 := State.wr_moved (hT.mono rfl) hs
    exact Moved.set_shelf (hT.mono rfl) hv0
  · exact hs

theorem State.loseLink_moved {T : Nat} {b : State} (hT : Within 3582 T) {s} (hs : Moved T b s) :
    Moved T b (State.loseLink s) := by
  unfold State.loseLink
  split
  · exact hs
  · extract_lets v0
    have hv0 : Moved T b v0 := State.tally_moved (hT.mono rfl) (State.onLink_moved (hT.mono rfl) hs)
    exact State.linkLoss_moved (hT.mono rfl) (State.disarm_moved (hT.mono rfl) (State.raise_moved (hT.mono rfl) hv0))

theorem State.replay_moved {T : Nat} {b : State} (hT : Within 3582 T) {s} (hs : Moved T b s) :
    Moved T b (State.replay s) := by
  unfold State.replay
  split
  · exact hs
  · split
    · exact State.loseLink_moved (hT.mono rfl) hs
    · extract_lets v0
      have hv0 : Moved T b v0 := State.onLink_moved (hT.mono rfl) hs
      exact State.tally_moved (hT.mono rfl) (foldl_moved hv0 (fun u1 x2 h3 => State.transmit_moved (hT.mono rfl) h3))

theorem State.takeAck_moved {T : Nat} {b : State} (hT : Within 3582 T) {s h} (hs : Moved T b s) :
    Moved T b (State.takeAck s h) := by
  unfold State.takeAck
  split
  · exact hs
  · extract_lets v0 v1 v2
    have hv1 : Moved T b v1 := State.onLink_moved (hT.mono rfl) hs
    have hv2 : Moved T b v2 := foldl_moved hv1 (fun u3 x4 h5 => Moved.ite (State.fetchEnd_moved (hT.mono rfl) h5) h5)
    exact Moved.ite (State.replay_moved (hT.mono rfl) hv2) hv2

theorem State.nak_moved {T : Nat} {b : State} (hT : Within 3582 T) {s lseq retx} (hs : Moved T b s) :
    Moved T b (State.nak s lseq retx) := by
  unfold State.nak
  extract_lets v0 v1 v2 v3 v4
  have hv3 : Moved T b v3 := State.tally_moved (hT.mono rfl) hs
  have hv4 : Moved T b v4 := State.onLink_moved (hT.mono rfl) hv3
  exact Moved.ite hs (Moved.ite (State.loseLink_moved (hT.mono rfl) hv4) hv4)

theorem State.receive_moved {T : Nat} {b : State} (hT : Within 3582 T) {s h} (hs : Moved T b s) :
    Moved T b (State.receive s h).1 := by
  unfold State.receive
  extract_lets v0 v1
  have hv0 : Moved T b v0 := State.takeAck_moved (hT.mono rfl) hs
  split
  · exact Moved.fst hv0
  · split
    · exact Moved.fst (State.onLink_moved (hT.mono rfl) hv0)
    · split
      · exact Moved.fst (State.onLink_moved (hT.mono rfl) hv0)
      · exact Moved.fst (State.nak_moved (hT.mono rfl) hv0)

theorem State.credit_moved {T : Nat} {b : State} (hT : Within 4 T) {s} (hs : Moved T b s) :
    Moved T b (State.credit s) := by
  unfold State.credit
  exact State.onLink_moved (hT.mono rfl) hs

theorem State.stray_moved {T : Nat} {b : State} (hT : Within 198 T) {s} (hs : Moved T b s) :
    Moved T b (State.stray s) := by
  unfold State.stray
  exact State.credit_moved (hT.mono rfl) (State.tally_moved (hT.mono rfl) hs)

theorem State.refuseForSleep_moved {T : Nat} {b : State} (hT : Within 8192 T) {s} (hs : Moved T b s) :
    Moved T b (State.refuseForSleep s) := by
  unfold State.refuseForSleep
  exact State.latchWake_moved (hT.mono rfl) hs

theorem State.takeCommand_moved {T : Nat} {b : State} (hT : Within 9726 T) {s f} (hs : Moved T b s) :
    Moved T b (State.takeCommand s f) := by
  unfold State.takeCommand
  extract_lets v0 v1
  have hv1 : Moved T b v1 := State.onLink_moved (hT.mono rfl) hs
  split
  · exact State.refuseForSleep_moved (hT.mono rfl) (State.stray_moved (hT.mono rfl) hv1)
  · split
    · exact State.credit_moved (hT.mono rfl) (State.bump_moved (hT.mono rfl) hv1)
    · split
      · exact State.stray_moved (hT.mono rfl) hv1
      · split
        · exact State.stray_moved (hT.mono rfl) hv1
        · split
          · exact State.stray_moved (hT.mono rfl) hv1
          · split
            · exact State.credit_moved (hT.mono rfl) (State.tally_moved (hT.mono rfl) hv1)
            · split
              · exact State.stray_moved (hT.mono rfl) hv1
              · split
                · exact State.credit_moved (hT.mono rfl) (State.bump_moved (hT.mono rfl) hv1)
                · exact State.stamp_moved (hT.mono rfl) hv1

theorem State.admitHeld_moved {T : Nat} {b : State} (hT : Within 9726 T) {s} (hs : Moved T b s) :
    Moved T b (State.admitHeld s) := by
  unfold State.admitHeld
  split
  · exact foldl_moved (State.onLink_moved (hT.mono rfl) hs) (fun u0 x1 h2 => State.takeCommand_moved (hT.mono rfl) h2)
  · exact hs

theorem State.acceptCommand_moved {T : Nat} {b : State} (hT : Within 4 T) {s f} (hs : Moved T b s) :
    Moved T b (State.acceptCommand s f) := by
  unfold State.acceptCommand
  exact State.onLink_moved (hT.mono rfl) hs

theorem State.takeTsd_moved {T : Nat} {b : State} (hT : Within 4 T) {s lane bytes inSlot} (hs : Moved T b s) :
    Moved T b (State.takeTsd s lane bytes inSlot) := by
  unfold State.takeTsd
  split
  · exact hs
  · extract_lets v0 v1
    exact State.onLink_moved (hT.mono rfl) hs

theorem State.restartLink_moved {T : Nat} {b : State} (hT : Within 4 T) {s} (hs : Moved T b s) :
    Moved T b (State.restartLink s) := by
  unfold State.restartLink
  exact State.onLink_moved (hT.mono rfl) hs

theorem State.answerTse_moved {T : Nat} {b : State} (hT : Within 8 T) {s} (hs : Moved T b s) :
    Moved T b (State.answerTse s) := by
  unfold State.answerTse
  exact foldl_moved hs (fun u0 x1 h2 => State.emit_moved (hT.mono rfl) h2)

theorem State.takeTse_moved {T : Nat} {b : State} (hT : Within 206 T) {s blocks inSlot} (hs : Moved T b s) :
    Moved T b (State.takeTse s blocks inSlot) := by
  unfold State.takeTse
  split
  · extract_lets v0 v1
    have hv0 : Moved T b v0 := State.onLink_moved (hT.mono rfl) (State.answerTse_moved (hT.mono rfl) hs)
    have hv1 : Moved T b v1 := State.raise_moved (hT.mono rfl) (State.bump_moved (hT.mono rfl) hv0)
    exact Moved.ite hv1 (State.restartLink_moved (hT.mono rfl) hv1)
  · exact hs

theorem State.takeLinkctl_moved {T : Nat} {b : State} (hT : Within 3582 T) {s h restart} (hs : Moved T b s) :
    Moved T b (State.takeLinkctl s h restart) := by
  unfold State.takeLinkctl
  split
  · exact hs
  · split
    · exact State.takeAck_moved (hT.mono rfl) hs
    · extract_lets v0 v1 v2 v3
      have hv1 : Moved T b v1 := State.onLink_moved (hT.mono rfl) hs
      have hv2 : Moved T b v2 := Moved.ite (State.tally_moved (hT.mono rfl) hv1) hv1
      have hv3 : Moved T b v3 := State.takeAck_moved (hT.mono rfl) hv2
      split
      · exact Moved.ite hv2 (State.takeAck_moved (hT.mono rfl) hv2)
      · split
        · exact State.restartLink_moved (hT.mono rfl) (State.linkLoss_moved (hT.mono rfl) (State.disarm_moved (hT.mono
              rfl) hv2))
        · exact Moved.ite hv3 (State.replay_moved (hT.mono rfl) hv3)

theorem State.beginReturn_moved {T : Nat} {b : State} (hT : Within 3582 T) {s} (hs : Moved T b s) :
    Moved T b (State.beginReturn s) := by
  unfold State.beginReturn
  split
  · extract_lets v0
    have hv0 : Moved T b v0 := State.onLink_moved (hT.mono rfl) hs
    exact State.linkLoss_moved (hT.mono rfl) (State.disarm_moved (hT.mono rfl) (State.tally_moved (hT.mono rfl) hv0))
  · exact hs

theorem State.changeDividers_moved {T : Nat} {b : State} (hT : Within 264192 T) {s} (hs : Moved T b s) :
    Moved T b (State.changeDividers s) := by
  unfold State.changeDividers
  extract_lets v0 v1
  have hv0 : Moved T b v0 := State.onFlash_moved (hT.mono rfl) hs
  exact Moved.set_esc (hT.mono rfl) hv0

theorem State.endReturn_moved {T : Nat} {b : State} (hT : Within 264390 T) {s} (hs : Moved T b s) :
    Moved T b (State.endReturn s) := by
  unfold State.endReturn
  split
  · extract_lets v0 v1
    have hv0 : Moved T b v0 := State.changeDividers_moved (hT.mono rfl) hs
    have hv1 : Moved T b v1 := Moved.set_link (hT.mono rfl) hv0
    exact State.presentReady_moved (hT.mono rfl) (State.newFrequency_moved (hT.mono rfl) (State.raise_moved (hT.mono
        rfl) hv1))
  · exact hs

theorem State.cancelSwitch_moved {T : Nat} {b : State} (hT : Within 4 T) {s} (hs : Moved T b s) :
    Moved T b (State.cancelSwitch s) := by
  unfold State.cancelSwitch
  exact Moved.ite (State.onLink_moved (hT.mono rfl) hs) hs

theorem State.enterFast_moved {T : Nat} {b : State} (hT : Within 264198 T) {s} (hs : Moved T b s) :
    Moved T b (State.enterFast s) := by
  unfold State.enterFast
  split
  · extract_lets v0 v1 v2 v3
    have hv2 : Moved T b v2 := State.onLink_moved (hT.mono rfl) hs
    have hv3 : Moved T b v3 := State.wr_moved (hT.mono rfl) (State.wr_moved (hT.mono rfl) hv2)
    exact State.newFrequency_moved (hT.mono rfl) (State.changeDividers_moved (hT.mono rfl) (State.bump_moved (hT.mono
        rfl) hv3))
  · exact hs

theorem State.timeoutSwitch_moved {T : Nat} {b : State} (hT : Within 262654 T) {s} (hs : Moved T b s) :
    Moved T b (State.timeoutSwitch s) := by
  unfold State.timeoutSwitch
  exact State.report_moved (hT.mono rfl) (State.cancelSwitch_moved (hT.mono rfl) hs)

theorem State.answerAgain_moved {T : Nat} {b : State} (hT : Within 8 T) {s} (hs : Moved T b s) :
    Moved T b (State.answerAgain s) := by
  unfold State.answerAgain
  split
  · exact State.emit_moved (hT.mono rfl) hs
  · exact hs

theorem State.takeIdFrame_moved {T : Nat} {b : State} (hT : Within 9726 T) {s bx} (hs : Moved T b s) :
    Moved T b (State.takeIdFrame s bx) := by
  unfold State.takeIdFrame
  split
  · exact hs
  · extract_lets v0 v1 v2
    have hv0 : Moved T b v0 := State.onLink_moved (hT.mono rfl) (State.cancelSwitch_moved (hT.mono rfl) hs)
    have hv2 : Moved T b v2 := Moved.ite (State.refuseForSleep_moved (hT.mono rfl) hv0) hv0
    split
    · exact State.bump_moved (hT.mono rfl) hv0
    · split
      · exact hv2
      · split
        · exact State.bump_moved (hT.mono rfl) hv2
        · split
          · exact hv2
          · split
            · exact hv2
            · split
              · exact hv2
              · split
                · exact State.answerAgain_moved (hT.mono rfl) hv2
                · exact Moved.ite (State.bump_moved (hT.mono rfl) hv2) (State.stamp_moved (hT.mono rfl) hv2)

theorem State.progressEdge_moved {T : Nat} {b : State} (hT : Within 20 T) {s q} (hs : Moved T b s) :
    Moved T b (State.progressEdge s q) := by
  unfold State.progressEdge
  split
  · exact hs
  · extract_lets v0 v1 v2
    have hv0 : Moved T b v0 := State.setCmd_moved (hT.mono rfl) hs
    exact Moved.ite (State.enqueue_moved (hT.mono rfl) hv0) hv0

theorem State.sendWords_moved {T : Nat} {b : State} (hT : Within 318 T) {s c} (hs : Moved T b s) :
    Moved T b (State.sendWords s c) := by
  unfold State.sendWords
  split
  · exact State.complete_moved (hT.mono rfl) hs
  · exact State.complete_moved (hT.mono rfl) (State.enqueue_moved (hT.mono rfl) (State.setCmd_moved (hT.mono rfl) hs))

theorem State.sampleNext_moved {T : Nat} {b : State} (hT : Within 318 T) {s c} (hs : Moved T b s) :
    Moved T b (State.sampleNext s c) := by
  unfold State.sampleNext
  extract_lets v0 v1
  have hv1 : Moved T b v1 := State.setCmd_moved (hT.mono rfl) hs
  exact Moved.ite hv1 (State.sendWords_moved (hT.mono rfl) hv1)

theorem execRegread_moved {T : Nat} {b : State} (hT : Within 270846 T) {q s} (hs : Moved T b s) :
    MovedA T b (execRegread q s) := by
  unfold execRegread
  refine State.done_moved (hT.mono rfl) ?_
  split
  · exact State.onCmd_moved (hT.mono rfl) hs (fun y0 => State.sampleNext_moved (hT.mono rfl) hs)
  · exact State.onCmd_moved (hT.mono rfl) hs (fun y1 => Moved.ite hs (State.sampleNext_moved (hT.mono rfl) hs))

theorem State.sampleAll_moved {T : Nat} {b : State} (hT : Within 318 T) {s} (hs : Moved T b s) :
    Moved T b (State.sampleAll s) := by
  unfold State.sampleAll
  exact foldl_moved hs (fun u0 x1 h2 => State.onCmd_moved (hT.mono rfl) h2 (fun y3 => State.sampleNext_moved (hT.mono
      rfl) h2))

theorem State.writeField_moved {T : Nat} {b : State} (hT : Within 2 T) {s f w} (hs : Moved T b s) :
    Moved T b (State.writeField s f w) := by
  unfold State.writeField
  extract_lets v0
  split
  · exact Moved.ite hs (State.wr_moved (hT.mono rfl) hs)
  · exact Moved.ite hs (State.wr_moved (hT.mono rfl) hs)
  · exact hs
  · exact hs
  · exact hs
  · exact hs

theorem State.writeFields_moved {T : Nat} {b : State} (hT : Within 2 T) {s page bank index w} (hs : Moved T b s) :
    Moved T b (State.writeFields s page bank index w) := by
  unfold State.writeFields
  exact foldl_moved hs (fun u0 x1 h2 => Moved.ite (State.writeField_moved (hT.mono rfl) h2) h2)

theorem State.writeCtrl_moved {T : Nat} {b : State} (hT : Within 264434 T) {s page bank w} (hs : Moved T b s) :
    Moved T b (State.writeCtrl s page bank w) := by
  unfold State.writeCtrl
  exact State.freshParity_moved (hT.mono rfl) (State.isolate_moved (hT.mono rfl) (State.enable_moved (hT.mono rfl) hs))

theorem State.writeWord_moved {T : Nat} {b : State} (hT : Within 264434 T) {s page bank index w met} (hs : Moved T b
    s) :
    Moved T b (State.writeWord s page bank index w met) := by
  unfold State.writeWord
  split
  · exact hs
  · split
    · exact State.writeCtrl_moved (hT.mono rfl) hs
    · split
      · exact State.writeHeader_moved (hT.mono rfl) hs
      · exact State.writeFields_moved (hT.mono rfl) hs

theorem State.writeStage_moved {T : Nat} {b : State} (hT : Within 65536 T) {s c} (hs : Moved T b s) :
    Moved T b (State.writeStage s c) := by
  unfold State.writeStage
  extract_lets v0 v1
  exact Moved.set_opt (hT.mono rfl) hs

theorem State.writeSlice_moved {T : Nat} {b : State} (hT : Within 180930 T) {s c i} (hs : Moved T b s) :
    Moved T b (State.writeSlice s c i) := by
  unfold State.writeSlice
  extract_lets v0 v1 v2
  have hv1 : Moved T b v1 := Moved.ite (State.writeQos_moved (hT.mono rfl) hs) hs
  have hv2 : Moved T b v2 := Moved.ite (State.writePin_moved (hT.mono rfl) hv1) hv1
  exact Moved.ite (State.setCfg_moved (hT.mono rfl) hv2) hv2

theorem State.landWords_moved {T : Nat} {b : State} (hT : Within 510974 T) {s c bank met} (hs : Moved T b s) :
    Moved T b (State.landWords s c bank met) := by
  unfold State.landWords
  extract_lets v0 v1 v2 v3 v4
  have hv2 : Moved T b v2 := foldl_moved hs (fun u5 x6 h7 => State.writeWord_moved (hT.mono rfl) h7)
  have hv3 : Moved T b v3 := Moved.ite (State.landCapacity_moved (hT.mono rfl) hv2) hv2
  have hv4 : Moved T b v4 := Moved.ite (State.writeSlice_moved (hT.mono rfl) hv3) hv3
  exact Moved.ite hs (Moved.ite (State.writeStage_moved (hT.mono rfl) hv4) hv4)

theorem State.clearCrust_moved {T : Nat} {b : State} (hT : Within 8192 T) {s c} (hs : Moved T b s) :
    Moved T b (State.clearCrust s c) := by
  unfold State.clearCrust
  extract_lets v0
  have hv0 : Moved T b v0 := Moved.ite (State.cellBit_moved (hT.mono rfl) hs) hs
  exact Moved.ite (State.clearWake_moved (hT.mono rfl) hv0) hv0

theorem State.startFuses_moved {T : Nat} {b : State} (hT : Within 1048578 T) {s c} (hs : Moved T b s) :
    Moved T b (State.startFuses s c) := by
  unfold State.startFuses
  extract_lets v0 v1 v2 v3
  have hv3 : Moved T b v3 := Moved.ite (State.fuseGo_moved (hT.mono rfl) hs) hs
  exact Moved.ite (State.fuseGo_moved (hT.mono rfl) hv3) hv3

theorem State.regActions_moved {T : Nat} {b : State} (hT : Within 1911806 T) {s c bank cs} (hs : Moved T b s) :
    Moved T b (State.regActions s c bank cs) := by
  unfold State.regActions
  split
  · extract_lets v0
    have hv0 : Moved T b v0 := Moved.ite (State.clearAuth_moved (hT.mono rfl) hs) hs
    exact Moved.ite (State.sliceSoftReset_moved (hT.mono rfl) hv0) hv0
  · exact Moved.ite (State.clearHwm_moved (hT.mono rfl) hs) hs
  · extract_lets v1
    have hv1 : Moved T b v1 := Moved.ite (State.startPatrol_moved (hT.mono rfl) hs) hs
    exact Moved.ite (State.softReset_moved (hT.mono rfl) hv1) hv1
  · extract_lets v2
    have hv2 : Moved T b v2 := Moved.ite (State.commitGo_moved (hT.mono rfl) hs) hs
    exact Moved.ite (State.stageLoad_moved (hT.mono rfl) hv2) hv2
  · extract_lets v3 v4
    have hv4 : Moved T b v4 := Moved.ite (Moved.set_temp (hT.mono rfl) hs) hs
    exact Moved.ite (State.latchWake_moved (hT.mono rfl) hv4) hv4
  · extract_lets v5
    have hv5 : Moved T b v5 := Moved.ite (State.inject_moved (hT.mono rfl) hs) hs
    exact State.startFuses_moved (hT.mono rfl) hv5
  · exact Moved.ite (State.softReset_moved (hT.mono rfl) hs) hs

theorem State.landWrite_moved {T : Nat} {b : State} (hT : Within 2092030 T) {s c bank met} (hs : Moved T b s) :
    Moved T b (State.landWrite s c bank met) := by
  unfold State.landWrite
  extract_lets v0 v1 v2
  have hv2 : Moved T b v2 := State.endEdge_moved (hT.mono rfl) (State.complete_moved (hT.mono rfl)
      (State.clearCrust_moved (hT.mono rfl) (State.landWords_moved (hT.mono rfl) hs)))
  exact State.debtSettle_moved (hT.mono rfl) (State.regActions_moved (hT.mono rfl) (Moved.ite hv2
      (State.postEnables_moved (hT.mono rfl) hv2)))

theorem execRegwrite_moved {T : Nat} {b : State} (hT : Within 2092030 T) {q met s} (hs : Moved T b s) :
    MovedA T b (execRegwrite q met s) := by
  unfold execRegwrite
  refine State.done_moved (hT.mono rfl) ?_
  refine State.onCmd_moved (hT.mono rfl) hs ?_
  intro y0
  extract_lets v1
  split
  · exact hs
  · split
    · exact State.complete_moved (hT.mono rfl) hs
    · split
      · exact hs
      · split
        · exact State.setSlice_moved (hT.mono rfl) (State.setCmd_moved (hT.mono rfl) hs)
        · exact State.landWrite_moved (hT.mono rfl) hs

theorem execCapacityLowerLand_moved {T : Nat} {b : State} (hT : Within 2092030 T) {slice s} (hs : Moved T b s) :
    MovedA T b (execCapacityLowerLand slice s) := by
  unfold execCapacityLowerLand
  split
  · split
    · extract_lets v0
      have hv0 : Moved T b v0 := State.setSlice_moved (hT.mono rfl) hs
      refine State.done_moved (hT.mono rfl) ?_
      split
      · split
        · exact State.landWrite_moved (hT.mono rfl) hv0
        · exact State.landCapacity_moved (hT.mono rfl) hv0
      · exact State.landCapacity_moved (hT.mono rfl) hv0
    · exact MovedA.next hs
  · exact MovedA.next hs

theorem State.freeDescs_moved {T : Nat} {b : State} (hT : Within 32 T) {s} (hs : Moved T b s) :
    Moved T b (State.freeDescs s) := by
  unfold State.freeDescs
  exact Moved.set_descs (hT.mono rfl) hs

theorem State.allocate_moved {T : Nat} {b : State} (hT : Within 32 T) {s q st} (hs : Moved T b s) :
    Moved T b (State.allocate s q st) := by
  unfold State.allocate
  extract_lets v0
  have hv0 : Moved T b v0 := State.freeDescs_moved (hT.mono rfl) hs
  exact Moved.set_descs (hT.mono rfl) hv0

theorem State.drawSeq_moved {T : Nat} {b : State} (hT : Within 2064 T) {s q} (hs : Moved T b s) :
    Moved T b (State.drawSeq s q) := by
  unfold State.drawSeq
  extract_lets v0
  exact State.setCmd_moved (hT.mono rfl) (State.onMap_moved (hT.mono rfl) hs)

theorem State.decoded_moved {T : Nat} {b : State} (hT : Within 141364 T) {s c} (hs : Moved T b s) :
    Moved T b (State.decoded s c) := by
  unfold State.decoded
  extract_lets v0 v1 v2
  have hv2 : Moved T b v2 := State.setCmd_moved (hT.mono rfl) (State.allocate_moved (hT.mono rfl) hs)
  split
  · exact State.allocate_moved (hT.mono rfl) hs
  · split
    · exact State.drawSeq_moved (hT.mono rfl) (State.allocate_moved (hT.mono rfl) hs)
    · split
      · exact State.drawSeq_moved (hT.mono rfl) hs
      · split
        · clear_value v1
          split
          · exact Moved.ite (State.discardSlot_moved (hT.mono rfl) hv2) hv2
          · exact hv2
        · split
          · exact State.setCmd_moved (hT.mono rfl) hs
          · split
            · split
              · exact State.setCmd_moved (hT.mono rfl) hs
              · exact State.dataReq_moved (hT.mono rfl) hs
            · exact hs

theorem State.decode_moved {T : Nat} {b : State} (hT : Within 141630 T) {s c} (hs : Moved T b s) :
    Moved T b (State.decode s c) := by
  unfold State.decode
  extract_lets v0 v1 v2
  have hv1 : Moved T b v1 := State.setCmd_moved (hT.mono rfl) hs
  split
  · exact State.complete_moved (hT.mono rfl) hv1
  · exact State.decoded_moved (hT.mono rfl) hv1

theorem execCommandDecode_moved {T : Nat} {b : State} (hT : Within 403966 T) {s} (hs : Moved T b s) :
    MovedA T b (execCommandDecode s) := by
  unfold execCommandDecode
  split
  · split
    · exact State.done_moved (hT.mono rfl) (State.decode_moved (hT.mono rfl) hs)
    · exact MovedA.next hs
  · exact MovedA.next hs

theorem State.reserve_moved {T : Nat} {b : State} (hT : Within 2366 T) {s c} (hs : Moved T b s) :
    Moved T b (State.reserve s c) := by
  unfold State.reserve
  split
  · exact State.endCmd_moved (hT.mono rfl) hs
  · exact State.dataReq_moved (hT.mono rfl) (State.setDesc_moved (hT.mono rfl) hs)

theorem execStagingReserved_moved {T : Nat} {b : State} (hT : Within 272894 T) {s} (hs : Moved T b s) :
    MovedA T b (execStagingReserved s) := by
  unfold execStagingReserved
  split
  · split
    · split
      · exact State.done_moved (hT.mono rfl) (State.reserve_moved (hT.mono rfl) hs)
      · exact MovedA.next hs
    · exact MovedA.next hs
  · exact MovedA.next hs

theorem execAttnFetch_moved {T : Nat} {b : State} (hT : Within 270846 T) {q s} (hs : Moved T b s) :
    MovedA T b (execAttnFetch q s) := by
  unfold execAttnFetch
  refine State.done_moved (hT.mono rfl) ?_
  refine State.onCmd_moved (hT.mono rfl) hs ?_
  intro y0
  extract_lets v1 v2 v3 v4 v5
  have hv4 : Moved T b v4 := Moved.set_attn (hT.mono rfl) hs
  have hv5 : Moved T b v5 := State.setCmd_moved (hT.mono rfl) hv4
  split
  · exact State.complete_moved (hT.mono rfl) hs
  · exact State.enqueue_moved (hT.mono rfl) hv5

theorem State.inStep_moved {T : Nat} {b : State} (hT : Within 4 T) {s} (hs : Moved T b s) :
    Moved T b (State.inStep s) := by
  unfold State.inStep
  exact State.onLink_moved (hT.mono rfl) hs

theorem execCmdFrame_moved {T : Nat} {b : State} (hT : Within 273918 T) {idle bx s} (hs : Moved T b s) :
    MovedA T b (execCmdFrame idle bx s) := by
  unfold execCmdFrame
  split
  · exact MovedA.next hs
  · split
    · exact State.done_moved (hT.mono rfl) (State.bump_moved (hT.mono rfl) hs)
    · split
      · extract_lets v0
        have hv0 : Moved T b v0.1 := State.receive_moved (hT.mono rfl) (State.inStep_moved (hT.mono rfl) hs)
        exact State.done_moved (hT.mono rfl) (State.admitHeld_moved (hT.mono rfl) (Moved.ite
            (State.acceptCommand_moved (hT.mono rfl) hv0) hv0))
      · exact MovedA.next hs

theorem execDataDn_moved {T : Nat} {b : State} (hT : Within 273918 T) {idle bx s} (hs : Moved T b s) :
    MovedA T b (execDataDn idle bx s) := by
  unfold execDataDn
  split
  · exact MovedA.next hs
  · split
    · exact State.done_moved (hT.mono rfl) (State.bump_moved (hT.mono rfl) hs)
    · split
      · extract_lets v0 v1
        have hv0 : Moved T b v0.1 := State.receive_moved (hT.mono rfl) (State.inStep_moved (hT.mono rfl) hs)
        exact State.done_moved (hT.mono rfl) (State.admitHeld_moved (hT.mono rfl) (Moved.ite (State.takeData_moved
            (hT.mono rfl) hv0) hv0))
      · exact MovedA.next hs

theorem execLinkctl_moved {T : Nat} {b : State} (hT : Within 273918 T) {idle bx s} (hs : Moved T b s) :
    MovedA T b (execLinkctl idle bx s) := by
  unfold execLinkctl
  split
  · exact MovedA.next hs
  · split
    · exact State.done_moved (hT.mono rfl) (State.bump_moved (hT.mono rfl) hs)
    · split
      · exact State.done_moved (hT.mono rfl) (State.admitHeld_moved (hT.mono rfl) (State.takeLinkctl_moved (hT.mono
            rfl) (State.inStep_moved (hT.mono rfl) hs)))
      · exact MovedA.next hs

theorem execFrameDiscard_moved {T : Nat} {b : State} (hT : Within 273918 T) {idle bx s} (hs : Moved T b s) :
    MovedA T b (execFrameDiscard idle bx s) := by
  unfold execFrameDiscard
  split
  · extract_lets v0
    split
    · exact State.done_moved (hT.mono rfl) (State.admitHeld_moved (hT.mono rfl) (State.nak_moved (hT.mono rfl)
          (State.onLink_moved (hT.mono rfl) (State.tally_moved (hT.mono rfl) hs))))
    · split
      · exact MovedA.next hs
      · exact State.done_moved (hT.mono rfl) (State.admitHeld_moved (hT.mono rfl) (State.receive_moved (hT.mono rfl)
            (State.inStep_moved (hT.mono rfl) hs)))
  · exact MovedA.next hs

theorem execNakReplay_moved {T : Nat} {b : State} (hT : Within 273918 T) {ackSeq s} (hs : Moved T b s) :
    MovedA T b (execNakReplay ackSeq s) := by
  unfold execNakReplay
  split
  · exact State.done_moved (hT.mono rfl) (State.admitHeld_moved (hT.mono rfl) (State.takeAck_moved (hT.mono rfl) hs))
  · exact MovedA.next hs

theorem execReplayTimeout_moved {T : Nat} {b : State} (hT : Within 273918 T) {s} (hs : Moved T b s) :
    MovedA T b (execReplayTimeout s) := by
  unfold execReplayTimeout
  split
  · exact State.done_moved (hT.mono rfl) (State.replay_moved (hT.mono rfl) hs)
  · exact MovedA.next hs

theorem execLinkctlIdleAck_moved {T : Nat} {b : State} (hT : Within 270846 T) {s} (hs : Moved T b s) :
    MovedA T b (execLinkctlIdleAck s) := by
  unfold execLinkctlIdleAck
  split
  · exact State.done_moved (hT.mono rfl) (State.onLink_moved (hT.mono rfl) hs)
  · exact MovedA.next hs

theorem execTsd_moved {T : Nat} {b : State} (hT : Within 270846 T) {lane bx inSlot s} (hs : Moved T b s) :
    MovedA T b (execTsd lane bx inSlot s) := by
  unfold execTsd
  split
  · exact State.done_moved (hT.mono rfl) (State.takeTsd_moved (hT.mono rfl) hs)
  · exact MovedA.next hs

theorem execTse_moved {T : Nat} {b : State} (hT : Within 270846 T) {blocks inSlot s} (hs : Moved T b s) :
    MovedA T b (execTse blocks inSlot s) := by
  unfold execTse
  split
  · exact State.done_moved (hT.mono rfl) (State.takeTse_moved (hT.mono rfl) hs)
  · exact MovedA.next hs

theorem execReturnToIdRequest_moved {T : Nat} {b : State} (hT : Within 273918 T) {s} (hs : Moved T b s) :
    MovedA T b (execReturnToIdRequest s) := by
  unfold execReturnToIdRequest
  split
  · exact State.done_moved (hT.mono rfl) (State.beginReturn_moved (hT.mono rfl) hs)
  · exact MovedA.next hs

theorem execReturnToIdComplete_moved {T : Nat} {b : State} (hT : Within 272894 T) {s} (hs : Moved T b s) :
    MovedA T b (execReturnToIdComplete s) := by
  unfold execReturnToIdComplete
  split
  · exact State.done_moved (hT.mono rfl) (State.endReturn_moved (hT.mono rfl) hs)
  · exact MovedA.next hs

theorem execIdCommandFrame_moved {T : Nat} {b : State} (hT : Within 271870 T) {bx s} (hs : Moved T b s) :
    MovedA T b (execIdCommandFrame bx s) := by
  unfold execIdCommandFrame
  split
  · exact State.done_moved (hT.mono rfl) (State.takeIdFrame_moved (hT.mono rfl) hs)
  · exact MovedA.next hs

theorem execIdReceiverResync_moved {T : Nat} {b : State} (hT : Within 270846 T) {s} (hs : Moved T b s) :
    MovedA T b (execIdReceiverResync s) := by
  unfold execIdReceiverResync
  split
  · exact State.done_moved (hT.mono rfl) (State.onLink_moved (hT.mono rfl) hs)
  · exact MovedA.next hs

theorem execSwitchRegulated_moved {T : Nat} {b : State} (hT : Within 270846 T) {s} (hs : Moved T b s) :
    MovedA T b (execSwitchRegulated s) := by
  unfold execSwitchRegulated
  split
  · exact State.done_moved (hT.mono rfl) (State.onLink_moved (hT.mono rfl) hs)
  · exact MovedA.next hs

theorem execSwitchConfirm_moved {T : Nat} {b : State} (hT : Within 272894 T) {s} (hs : Moved T b s) :
    MovedA T b (execSwitchConfirm s) := by
  unfold execSwitchConfirm
  split
  · exact State.done_moved (hT.mono rfl) (State.enterFast_moved (hT.mono rfl) hs)
  · exact MovedA.next hs

theorem execSwitchCancel_moved {T : Nat} {b : State} (hT : Within 270846 T) {startBit s} (hs : Moved T b s) :
    MovedA T b (execSwitchCancel startBit s) := by
  unfold execSwitchCancel
  split
  · exact State.done_moved (hT.mono rfl) (State.onLink_moved (hT.mono rfl) (State.cancelSwitch_moved (hT.mono rfl) hs))
  · exact MovedA.next hs

theorem execSwitchTimeout_moved {T : Nat} {b : State} (hT : Within 270846 T) {s} (hs : Moved T b s) :
    MovedA T b (execSwitchTimeout s) := by
  unfold execSwitchTimeout
  split
  · exact State.done_moved (hT.mono rfl) (State.timeoutSwitch_moved (hT.mono rfl) hs)
  · exact MovedA.next hs

theorem execProgressInterval_moved {T : Nat} {b : State} (hT : Within 270846 T) {q s} (hs : Moved T b s) :
    MovedA T b (execProgressInterval q s) := by
  unfold execProgressInterval
  split
  · extract_lets v0
    exact State.done_moved (hT.mono rfl) (State.progressEdge_moved (hT.mono rfl) (State.setCmd_moved (hT.mono rfl) hs))
  · exact MovedA.next hs

end Sys2Proof.Machine
end

