-- ==== Sys2Proof/Laws/MovedData.lean ====
section
/-!
SUPPORT. Which parts of the card change, and that nothing is broken: upkeep steps, the engines and the data commands. One lemma per operation, in the order of the
model's files.
-/
namespace Sys2Proof.Machine

theorem State.decodeCounts_moved {T : Nat} {b : State} (hT : Within 264702 T) {s d bx out} (hs : Moved T b s) :
    Moved T b (State.decodeCounts s d bx out) := by
  unfold State.decodeCounts
  split
  · extract_lets v0 v1
    have hv0 : Moved T b v0 := State.tally_moved (hT.mono rfl) hs
    have hv1 : Moved T b v1 := State.wr_moved (hT.mono rfl) hv0
    exact Moved.ite (State.flagBlock_moved (hT.mono rfl) hv1) hv1
  · exact State.flagBlock_moved (hT.mono rfl) (State.tally_moved (hT.mono rfl) hs)
  · exact State.flagBlock_moved (hT.mono rfl) (State.tally_moved (hT.mono rfl) hs)
  · extract_lets v2
    have hv2 : Moved T b v2 := State.tally_moved (hT.mono rfl) (State.report_moved (hT.mono rfl) hs)
    exact Moved.ite (State.flagBlock_moved (hT.mono rfl) hv2) hv2
  · exact State.tally_moved (hT.mono rfl) hs
  · exact State.tally_moved (hT.mono rfl) hs

theorem State.decodeEnds_moved {T : Nat} {b : State} (hT : Within 264702 T) {s d bx p k urgent out} (hs : Moved T b s) :
    Moved T b (State.decodeEnds s d bx p k urgent out).1 := by
  unfold State.decodeEnds
  extract_lets v0 v1
  have hv0 : Moved T b v0 := State.decodeCounts_moved (hT.mono rfl) hs
  have hv1 : Moved T b v1.1 := State.rebuild_moved (hT.mono rfl) hv0
  exact Moved.itep (Moved.fst hv1) (Moved.fst hv0)

theorem State.softReads_moved {T : Nat} {b : State} (hT : Within 2242 T) {s d bx urgent} (hs : Moved T b s) :
    Moved T b (State.softReads s d bx urgent) := by
  unfold State.softReads
  exact State.arrayRead_moved (hT.mono rfl) (State.arrayRead_moved (hT.mono rfl) (State.arrayRead_moved (hT.mono rfl)
      hs))

theorem State.decodeSlot_moved {T : Nat} {b : State} (hT : Within 264702 T) {s d bx p k urgent out} (hs : Moved T b s) :
    Moved T b (State.decodeSlot s d bx p k urgent out).1 := by
  unfold State.decodeSlot
  exact State.decodeEnds_moved (hT.mono rfl) (Moved.ite (State.softReads_moved (hT.mono rfl) hs) hs)

theorem State.carryBatch_moved {T : Nat} {b : State} (hT : Within 2048 T) {s before q urgent} (hs : Moved T b s) :
    Moved T b (State.carryBatch s before q urgent) := by
  unfold State.carryBatch
  exact Moved.ite (State.addJob_moved (hT.mono rfl) hs) hs

theorem State.eraseStep_moved {T : Nat} {b : State} (hT : Within 2558 T) {s d bx pass} (hs : Moved T b s) :
    Moved T b (State.eraseStep s d bx pass) := by
  unfold State.eraseStep
  extract_lets v0
  have hv0 : Moved T b v0 := by
    unfold v0
    split
    · exact State.tally_moved (hT.mono rfl) (State.wearLevel_moved (hT.mono rfl) (State.eraseBlock_moved (hT.mono rfl)
          hs))
    · exact State.retire_moved (hT.mono rfl) (State.chTally_moved (hT.mono rfl) hs)
  exact State.flashSettle_moved (hT.mono rfl) hv0

theorem State.loseSector_moved {T : Nat} {b : State} (hT : Within 2242 T) {s e} (hs : Moved T b s) :
    Moved T b (State.loseSector s e) := by
  unfold State.loseSector
  split
  · exact hs
  · exact State.setEntry_moved (hT.mono rfl) (State.dirty_moved (hT.mono rfl) hs)

theorem State.stepSlot_moved {T : Nat} {b : State} (hT : Within 264702 T) {s d bx p k out rebuilt} (hs : Moved T b s) :
    Moved T b (State.stepSlot s d bx p k out rebuilt).1 := by
  unfold State.stepSlot
  split
  · exact Moved.fst (State.decodeCounts_moved (hT.mono rfl) (Moved.ite (State.softReads_moved (hT.mono rfl) hs) hs))
  · extract_lets v0
    have hv0 : Moved T b v0.1 := State.decodeSlot_moved (hT.mono rfl) hs
    exact Moved.fst hv0

theorem State.lift_moved {T : Nat} {b : State} (hT : Within 2048 T) {s m} (hs : Moved T b s) :
    Moved T b (State.lift s m) := by
  unfold State.lift
  exact State.onFlash_moved (hT.mono rfl) hs

theorem State.liftPage_moved {T : Nat} {b : State} (hT : Within 264702 T) {s d bx p outs} (hs : Moved T b s) :
    Moved T b (State.liftPage s d bx p outs) := by
  unfold State.liftPage
  extract_lets v0
  refine foldl_fst_moved (Moved.fst hs) ?_
  intro u1 x2 h3
  extract_lets v4 v5
  have hv5 : Moved T b v5.1 := State.stepSlot_moved (hT.mono rfl) h3
  split
  · exact h3
  · split
    · exact Moved.fst (State.lift_moved (hT.mono rfl) hv5)
    · split
      · exact Moved.fst (Moved.ite hv5 (State.loseSector_moved (hT.mono rfl) hv5))
      · exact Moved.fst hv5

theorem State.sweepMoving_moved {T : Nat} {b : State} (hT : Within 2048 T) {s} (hs : Moved T b s) :
    Moved T b (State.sweepMoving s) := by
  unfold State.sweepMoving
  exact State.onFlash_moved (hT.mono rfl) hs

theorem State.pageRelocated_moved {T : Nat} {b : State} (hT : Within 2242 T) {s d bx p} (hs : Moved T b s) :
    Moved T b (State.pageRelocated s d bx p) := by
  unfold State.pageRelocated
  split
  · exact hs
  · split
    · exact hs
    · split
      · exact hs
      · extract_lets v0
        have hv0 : Moved T b v0 := State.setSb_moved (hT.mono rfl) hs
        exact State.tryRelease_moved (hT.mono rfl) hv0

theorem State.refreshed_moved {T : Nat} {b : State} (hT : Within 2 T) {s d bx} (hs : Moved T b s) :
    Moved T b (State.refreshed s d bx) := by
  unfold State.refreshed
  exact Moved.ite (State.bump_moved (hT.mono rfl) hs) hs

theorem State.fetchFor_moved {T : Nat} {b : State} (hT : Within 2242 T) {s l} (hs : Moved T b s) :
    Moved T b (State.fetchFor s l) := by
  unfold State.fetchFor
  exact foldl_moved hs (fun u0 x1 h2 => Moved.ite h2 (State.beginFetch_moved (hT.mono rfl) h2))

theorem State.makeClean_moved {T : Nat} {b : State} (hT : Within 2558 T) :
    ∀ q pages a a', Moved T b a' → Moved T b (State.makeClean q pages a a')
  | q, pages, 0, x0, h3 => by
    rw [State.makeClean]
    exact h3
  | q, pages, (n + 1), x0, h3 => by
    rw [State.makeClean]
    split
    · exact h3
    · extract_lets v0 v1
      split
      · exact State.makeClean_moved hT _ _ _ _ (State.beginJob_moved (hT.mono rfl) h3)
      · exact h3

theorem State.makeClean_moves {T : Nat} {b : State} (hT : Within 2558 T) {q pages a a'} (ha' : Moved T b a') :
    Moved T b (State.makeClean q pages a a') := State.makeClean_moved hT q pages a a' ha'

theorem State.commitNow_moved {T : Nat} {b : State} (hT : Within 2242 T) {s l} (hs : Moved T b s) :
    Moved T b (State.commitNow s l) := by
  unfold State.commitNow
  extract_lets v0 v1 v2 v3 v4 v5
  have hv0 : Moved T b v0 := by
    unfold v0
    refine foldl_moved hs ?_
    intro u12 x13 h14
    split
    · exact State.moveSector_moved (hT.mono rfl) h14
    · exact h14
  have hv2 : Moved T b v2 := State.onFlash_moved (hT.mono rfl) hv0
  have hv5 : Moved T b v5 := foldl_moved hv2 (fun u9 x10 h11 => State.refreshed_moved (hT.mono rfl) h11)
  exact foldl_moved hv5 (fun u6 x7 h8 => State.pageRelocated_moved (hT.mono rfl) h8)

theorem State.commitPlaced_moved {T : Nat} {b : State} (hT : Within 2558 T) {s} (hs : Moved T b s) :
    Moved T b (State.commitPlaced s) := by
  unfold State.commitPlaced
  extract_lets v0 v1 v2
  have hv2 : Moved T b v2 := State.makeClean_moves (hT.mono rfl) hs
  exact Moved.ite hs (Moved.ite hv2 (State.commitNow_moved (hT.mono rfl) hv2))

theorem State.commitMoves_moved {T : Nat} {b : State} (hT : Within 2558 T) {s l} (hs : Moved T b s) :
    Moved T b (State.commitMoves s l) := by
  unfold State.commitMoves
  extract_lets v0
  have hv0 : Moved T b v0 := State.onFlash_moved (hT.mono rfl) hs
  exact State.commitPlaced_moved (hT.mono rfl) (State.fetchFor_moved (hT.mono rfl) hv0)

theorem State.moveProgram_moved {T : Nat} {b : State} (hT : Within 264702 T) {s who all out} (hs : Moved T b s) :
    Moved T b (State.moveProgram s who all out) := by
  unfold State.moveProgram
  extract_lets v0
  have hv0 : Moved T b v0 := State.readySb_moved (hT.mono rfl) hs
  split
  · exact hv0
  · extract_lets v1
    split
    · exact hv0
    · extract_lets v2 v3 v4 v5 v6
      have hv3 : Moved T b v3 := State.countGrant_moved (hT.mono rfl) hv0
      have hv4 : Moved T b v4.1 := State.beginPages_moved (hT.mono rfl) hv3
      have hv6 : Moved T b v6 := State.endPages_moved (hT.mono rfl) hv4
      split
      · exact hv0
      · exact State.commitMoves_moved (hT.mono rfl) (State.scanJob_moved (hT.mono rfl) hv6)

theorem State.relocateStep_moved {T : Nat} {b : State} (hT : Within 264702 T) {s who d bx p outs prog} (hs : Moved T b
    s) :
    Moved T b (State.relocateStep s who d bx p outs prog) := by
  unfold State.relocateStep
  extract_lets v0 v1
  have hv0 : Moved T b v0 := State.onMap_moved (hT.mono rfl) (State.liftPage_moved (hT.mono rfl)
      (State.sweepMoving_moved (hT.mono rfl) hs))
  have hv1 : Moved T b v1 := State.tally_moved (hT.mono rfl) (State.moveProgram_moved (hT.mono rfl) hv0)
  exact State.flashSettle_moved (hT.mono rfl) (State.pageRelocated_moved (hT.mono rfl) hv1)

theorem State.stepStarted_moved {T : Nat} {b : State} (hT : Within 16 T) {s d} (hs : Moved T b s) :
    Moved T b (State.stepStarted s d) := by
  unfold State.stepStarted
  extract_lets v0
  exact Moved.set_cmds (hT.mono rfl) hs

theorem State.stepEnded_moved {T : Nat} {b : State} (hT : Within 16 T) {s d} (hs : Moved T b s) :
    Moved T b (State.stepEnded s d) := by
  unfold State.stepEnded
  extract_lets v0
  exact Moved.set_cmds (hT.mono rfl) hs

theorem State.loadLoading_moved {T : Nat} {b : State} (hT : Within 2242 T) {s} (hs : Moved T b s) :
    Moved T b (State.loadLoading s) := by
  unfold State.loadLoading
  exact foldl_moved hs (fun u0 x1 h2 => Moved.ite (State.beginFetch_moved (hT.mono rfl) h2) h2)

theorem State.restWriteBack_moved {T : Nat} {b : State} (hT : Within 2558 T) {s} (hs : Moved T b s) :
    Moved T b (State.restWriteBack s) := by
  unfold State.restWriteBack
  split
  · exact Moved.ite hs (State.beginJob_moved (hT.mono rfl) hs)
  · exact hs

theorem State.mapWork_moved {T : Nat} {b : State} (hT : Within 2558 T) {s} (hs : Moved T b s) :
    Moved T b (State.mapWork s) := by
  unfold State.mapWork
  split
  · refine State.beginBatch_moved (hT.mono rfl) ?_
    split
    · exact State.restWriteBack_moved (hT.mono rfl) (State.loadLoading_moved (hT.mono rfl) hs)
    · exact hs
  · exact hs

theorem State.forcedOver_moved {T : Nat} {b : State} (hT : Within 2064 T) {s q} (hs : Moved T b s) :
    Moved T b (State.forcedOver s q) := by
  unfold State.forcedOver
  extract_lets v0
  exact State.setCmd_moved (hT.mono rfl) (State.onFlash_moved (hT.mono rfl) hs)

theorem State.carry_moved {T : Nat} {b : State} (hT : Within 210 T) {s q x} (hs : Moved T b s) :
    Moved T b (State.carry s q x) := by
  unfold State.carry
  split
  · extract_lets v0
    have hv0 : Moved T b v0 := Moved.ite (State.tally_moved (hT.mono rfl) hs) hs
    exact State.setCmd_moved (hT.mono rfl) hv0
  · exact hs

theorem State.forcedBody_moved {T : Nat} {b : State} (hT : Within 264702 T) {s op d bx p pass} (hs : Moved T b s) :
    Moved T b (State.forcedBody s op d bx p pass) := by
  unfold State.forcedBody
  extract_lets v0
  have hv0 : Moved T b v0 := State.tally_moved (hT.mono rfl) hs
  split
  · exact State.eraseStep_moved (hT.mono rfl) hv0
  · exact State.relocateStep_moved (hT.mono rfl) hv0
  · exact hv0

theorem State.runForced_moved {T : Nat} {b : State} (hT : Within 264702 T) :
    ∀ q a a', Moved T b a' → Moved T b (State.runForced q a a')
  | q, 0, x0, h2 => by
    rw [State.runForced]
    exact h2
  | q, (n + 1), x0, h2 => by
    rw [State.runForced]
    split
    · exact h2
    · split
      · exact State.forcedOver_moved (hT.mono rfl) h2
      · split
        · exact h2
        · split
          · exact State.forcedOver_moved (hT.mono rfl) h2
          · extract_lets v0 v1 v2
            have hv1 : Moved T b v1 := State.countGrant_moved (hT.mono rfl) (State.carry_moved (hT.mono rfl) h2)
            have hv2 : Moved T b v2 := Moved.ite (State.arrayRead_moved (hT.mono rfl) hv1) hv1
            split
            · exact h2
            · split
              · exact State.fetchFor_moved (hT.mono rfl) h2
              · split
                · exact State.runForced_moved hT _ _ _ (State.forcedBody_moved (hT.mono rfl) hv2)
                · exact State.present_moved (hT.mono rfl) (State.carry_moved (hT.mono rfl) h2)

theorem State.runForced_moves {T : Nat} {b : State} (hT : Within 264702 T) {q a a'} (ha' : Moved T b a') :
    Moved T b (State.runForced q a a') := State.runForced_moved hT q a a' ha'

theorem State.hold_moved {T : Nat} {b : State} (hT : Within 262654 T) {s q n x bad} (hs : Moved T b s) :
    Moved T b (State.hold s q n x bad) := by
  unfold State.hold
  extract_lets v0
  have hv0 : Moved T b v0 := Moved.ite (State.report_moved (hT.mono rfl) hs) hs
  exact State.setDesc_moved (hT.mono rfl) hv0

theorem State.deliver_moved {T : Nat} {b : State} (hT : Within 52 T) {s q x} (hs : Moved T b s) :
    Moved T b (State.deliver s q x) := by
  unfold State.deliver
  split
  · extract_lets v0
    have hv0 : Moved T b v0 := State.setDesc_moved (hT.mono rfl) hs
    split
    · exact State.enqueue_moved (hT.mono rfl) (State.setCmd_moved (hT.mono rfl) hv0)
    · exact hv0
  · exact hs

theorem State.sendReady_moved {T : Nat} {b : State} (hT : Within 2366 T) :
    ∀ q a a', Moved T b a' → Moved T b (State.sendReady q a a')
  | q, 0, x0, h2 => by
    rw [State.sendReady]
    exact h2
  | q, (n + 1), x0, h2 => by
    rw [State.sendReady]
    split
    · split
      · exact h2
      · split
        · exact Moved.ite h2 (State.endCmd_moved (hT.mono rfl) h2)
        · split
          · exact State.sendReady_moved hT _ _ _ (State.deliver_moved (hT.mono rfl) h2)
          · exact State.endCmd_moved (hT.mono rfl) h2
          · exact h2
    · exact h2

theorem State.sendReady_moves {T : Nat} {b : State} (hT : Within 2366 T) {q a a'} (ha' : Moved T b a') :
    Moved T b (State.sendReady q a a') := State.sendReady_moved hT q a a' ha'

theorem State.failedDieRead_moved {T : Nat} {b : State} (hT : Within 264702 T) {s q n d bx p k urgent out} (hs : Moved
    T b s) :
    Moved T b (State.failedDieRead s q n d bx p k urgent out) := by
  unfold State.failedDieRead
  extract_lets v0
  have hv0 : Moved T b v0.1 := State.rebuild_moved (hT.mono rfl) hs
  exact State.hold_moved (hT.mono rfl) (State.carryBatch_moved (hT.mono rfl) hv0)

theorem State.readNow_moved {T : Nat} {b : State} (hT : Within 264702 T) {s q i n d bx p k urgent out} (hs : Moved T b
    s) :
    Moved T b (State.readNow s q i n d bx p k urgent out) := by
  unfold State.readNow
  extract_lets v0
  have hv0 : Moved T b v0.1 := State.decodeSlot_moved (hT.mono rfl) (State.arrayRead_moved (hT.mono rfl)
      (State.countGrant_moved (hT.mono rfl) hs))
  exact State.hold_moved (hT.mono rfl) (State.carryBatch_moved (hT.mono rfl) hv0)

theorem State.startSector_moved {T : Nat} {b : State} (hT : Within 264702 T) {s q i n x out} (hs : Moved T b s) :
    Moved T b (State.startSector s q i n x out) := by
  unfold State.startSector
  split
  · exact hs
  · exact State.hold_moved (hT.mono rfl) hs
  · exact State.hold_moved (hT.mono rfl) hs
  · extract_lets v0
    split
    · exact State.failedDieRead_moved (hT.mono rfl) hs
    · split
      · split
        · exact State.readNow_moved (hT.mono rfl) hs
        · exact State.present_moved (hT.mono rfl) hs
      · exact State.present_moved (hT.mono rfl) hs

theorem State.lookupNext_moved {T : Nat} {b : State} (hT : Within 2274 T) {s q i idx} (hs : Moved T b s) :
    Moved T b (State.lookupNext s q i idx).1 := by
  unfold State.lookupNext
  split
  · exact Moved.fst (State.setDesc_moved (hT.mono rfl) (State.touch_moved (hT.mono rfl) hs))
  · exact State.lookup_moved (hT.mono rfl) hs

theorem State.lookAhead_moved {T : Nat} {b : State} (hT : Within 264702 T) :
    ∀ q i a a' a'', Moved T b a'' → Moved T b (State.lookAhead q i a a' a'')
  | q, i, 0, x1, x0, h4 => by
    rw [State.lookAhead]
    exact h4
  | q, i, (m + 1), x1, x0, h4 => by
    rw [State.lookAhead]
    split
    · split
      · exact h4
      · split
        · exact State.abortNow_moved (hT.mono rfl) h4
        · extract_lets v0 v1 v2
          have hv1 : Moved T b v1.1 := State.lookupNext_moved (hT.mono rfl) h4
          have hv2 : Moved T b v2 := State.setDesc_moved (hT.mono rfl) hv1
          split
          · exact h4
          · split
            · exact State.park_moved (hT.mono rfl) hv1
            · exact State.lookAhead_moved hT _ _ _ _ _ (State.startSector_moved (hT.mono rfl) hv2)
          · split
            · exact State.park_moved (hT.mono rfl) hv1
            · exact State.lookAhead_moved hT _ _ _ _ _ (State.startSector_moved (hT.mono rfl) hv2)
          · split
            · exact State.park_moved (hT.mono rfl) hv1
            · exact State.lookAhead_moved hT _ _ _ _ _ (State.startSector_moved (hT.mono rfl) hv2)
    · exact h4

theorem State.lookAhead_moves {T : Nat} {b : State} (hT : Within 264702 T) {q i a a' a''} (ha'' : Moved T b a'') :
    Moved T b (State.lookAhead q i a a' a'') := State.lookAhead_moved hT q i a a' a'' ha''

theorem State.readOn_moved {T : Nat} {b : State} (hT : Within 264702 T) {s q outs} (hs : Moved T b s) :
    Moved T b (State.readOn s q outs) := by
  unfold State.readOn
  split
  · split
    · extract_lets v0
      have hv0 : Moved T b v0 := State.jobsGo_moved (hT.mono rfl) (State.lookAhead_moves (hT.mono rfl) hs)
      exact State.sendReady_moves (hT.mono rfl) hv0
    · exact hs
  · exact hs

theorem State.asBarrier_moved {T : Nat} {b : State} (hT : Within 16 T) {s q} (hs : Moved T b s) :
    Moved T b (State.asBarrier s q) := by
  unfold State.asBarrier
  exact State.setCmd_moved (hT.mono rfl) hs

theorem execRead_moved {T : Nat} {b : State} (hT : Within 272894 T) {q outs s} (hs : Moved T b s) :
    MovedA T b (execRead q outs s) := by
  unfold execRead
  refine State.done_moved (hT.mono rfl) ?_
  refine State.onCmd_moved (hT.mono rfl) hs ?_
  intro y0
  split
  · exact State.asBarrier_moved (hT.mono rfl) hs
  · exact State.flashSettle_moved (hT.mono rfl) (State.readOn_moved (hT.mono rfl) hs)

theorem execVerify_moved {T : Nat} {b : State} (hT : Within 272894 T) {q outs s} (hs : Moved T b s) :
    MovedA T b (execVerify q outs s) := by
  unfold execVerify
  refine State.done_moved (hT.mono rfl) ?_
  refine State.onCmd_moved (hT.mono rfl) hs ?_
  intro y0
  split
  · exact State.asBarrier_moved (hT.mono rfl) hs
  · exact State.flashSettle_moved (hT.mono rfl) (State.readOn_moved (hT.mono rfl) hs)

theorem State.gather_moved {T : Nat} {b : State} (hT : Within 2274 T) :
    ∀ i a a' a'' a''', Moved T b a''' → Moved T b (State.gather i a a' a'' a''').1
  | i, 0, x2, x1, x0, h4 => by
    rw [State.gather]
    exact Moved.fst h4
  | i, (n + 1), 0, x1, x0, h4 => by
    rw [State.gather]
    exact Moved.fst h4
  | i, (n + 1), (n_1 + 1), [], x0, h4 => by
    rw [State.gather]
    exact Moved.fst h4
  | i, (fuel + 1), (n + 1), (q :: qs), x0, h4 => by
    rw [State.gather]
    split
    · split
      · exact State.gather_moved hT _ _ _ _ _ h4
      · extract_lets v0 v1 v2
        have hv0 : Moved T b v0.1 := State.lookupNext_moved (hT.mono rfl) h4
        have hv1 : Moved T b v1 := State.setDesc_moved (hT.mono rfl) hv0
        have hv2 : Moved T b v2.1 := State.gather_moved hT _ _ _ _ _ hv1
        split
        · exact Moved.fst hv2
        · exact State.gather_moved hT _ _ _ _ _ (State.park_moved (hT.mono rfl) hv0)
    · exact State.gather_moved hT _ _ _ _ _ h4

theorem State.gather_moves {T : Nat} {b : State} (hT : Within 2274 T) {i a a' a'' a'''} (ha''' : Moved T b a''') :
    Moved T b (State.gather i a a' a'' a''').1 := State.gather_moved hT i a a' a'' a''' ha'''

theorem State.fill_moved {T : Nat} {b : State} (hT : Within 2274 T) {s i w} (hs : Moved T b s) :
    Moved T b (State.fill s i w).1 := by
  unfold State.fill
  extract_lets v0
  exact State.gather_moves (hT.mono rfl) hs

theorem State.commitAll_moved {T : Nat} {b : State} (hT : Within 2242 T) {s c i} (hs : Moved T b s) :
    Moved T b (State.commitAll s c i) := by
  unfold State.commitAll
  refine foldl_moved hs ?_
  intro u0 x1 h2
  split
  · exact State.commitSector_moved (hT.mono rfl) h2
  · exact h2

theorem State.finishWrite_moved {T : Nat} {b : State} (hT : Within 264702 T) {s q} (hs : Moved T b s) :
    Moved T b (State.finishWrite s q) := by
  unfold State.finishWrite
  extract_lets v0
  have hv0 : Moved T b v0 := State.runForced_moves (hT.mono rfl) hs
  split
  · split
    · exact hv0
    · exact State.endCmd_moved (hT.mono rfl) (State.flashSettle_moved (hT.mono rfl) hv0)
  · exact hv0

theorem State.tryCommit_moved {T : Nat} {b : State} (hT : Within 264702 T) {s q} (hs : Moved T b s) :
    Moved T b (State.tryCommit s q) := by
  unfold State.tryCommit
  split
  · split
    · split
      · exact hs
      · split
        · exact State.finishWrite_moved (hT.mono rfl) hs
        · split
          · exact hs
          · split
            · exact State.park_moved (hT.mono rfl) (State.tally_moved (hT.mono rfl) hs)
            · extract_lets v0 v1
              have hv1 : Moved T b v1 := State.setDesc_moved (hT.mono rfl) (State.makeClean_moves (hT.mono rfl) hs)
              split
              · exact hv1
              · exact State.finishWrite_moved (hT.mono rfl) (State.beginBatch_moved (hT.mono rfl) (State.setCmd_moved
                    (hT.mono rfl) (State.commitAll_moved (hT.mono rfl) hv1)))
    · exact hs
  · exact hs

theorem State.commitReady_moved {T : Nat} {b : State} (hT : Within 264702 T) {s i} (hs : Moved T b s) :
    Moved T b (State.commitReady s i) := by
  unfold State.commitReady
  exact foldl_moved hs (fun u0 x1 h2 => State.tryCommit_moved (hT.mono rfl) h2)

theorem State.programs_moved {T : Nat} {b : State} (hT : Within 264702 T) :
    ∀ q i a a', Moved T b a' → Moved T b (State.programs q i a a')
  | q, i, [], x0, h3 => by
    rw [State.programs]
    exact h3
  | q, i, (o :: l), x0, h3 => by
    rw [State.programs]
    split
    · exact h3
    · extract_lets v0
      have hv0 : Moved T b v0 := State.readySb_moved (hT.mono rfl) h3
      split
      · exact hv0
      · split
        · exact hv0
        · split
          · exact hv0
          · extract_lets v1 v2 v3 v4 v5
            have hv1 : Moved T b v1.1 := State.fill_moved (hT.mono rfl) hv0
            have hv2 : Moved T b v2 := State.countGrant_moved (hT.mono rfl) hv1
            have hv3 : Moved T b v3.1 := State.beginPages_moved (hT.mono rfl) hv2
            split
            · exact hv1
            · exact State.programs_moved hT _ _ _ _ (State.flashSettle_moved (hT.mono rfl) (State.endPages_moved
                  (hT.mono rfl) hv3))

theorem State.programs_moves {T : Nat} {b : State} (hT : Within 264702 T) {q i a a'} (ha' : Moved T b a') :
    Moved T b (State.programs q i a a') := State.programs_moved hT q i a a' ha'

theorem State.presentProgram_moved {T : Nat} {b : State} (hT : Within 2242 T) {s q i} (hs : Moved T b s) :
    Moved T b (State.presentProgram s q i) := by
  unfold State.presentProgram
  split
  · exact hs
  · extract_lets v0
    have hv0 : Moved T b v0 := State.readySb_moved (hT.mono rfl) hs
    split
    · exact hv0
    · split
      · exact hv0
      · exact State.present_moved (hT.mono rfl) hv0

theorem State.writeOn_moved {T : Nat} {b : State} (hT : Within 264702 T) {s q i progs} (hs : Moved T b s) :
    Moved T b (State.writeOn s q i progs) := by
  unfold State.writeOn
  extract_lets v0
  have hv0 : Moved T b v0 := State.programs_moves (hT.mono rfl) hs
  split
  · split
    · exact State.abortNow_moved (hT.mono rfl) hv0
    · exact hv0
  · exact State.presentProgram_moved (hT.mono rfl) (State.commitReady_moved (hT.mono rfl) hv0)

theorem execWrite_moved {T : Nat} {b : State} (hT : Within 272894 T) {q progs s} (hs : Moved T b s) :
    MovedA T b (execWrite q progs s) := by
  unfold execWrite
  split
  · split
    · split
      · exact State.done_moved (hT.mono rfl) (State.asBarrier_moved (hT.mono rfl) hs)
      · split
        · exact State.done_moved (hT.mono rfl) (State.flashSettle_moved (hT.mono rfl) (State.writeOn_moved (hT.mono
              rfl) hs))
        · exact State.done_moved (hT.mono rfl) hs
    · exact State.done_moved (hT.mono rfl) hs
  · exact State.done_moved (hT.mono rfl) hs

theorem State.fetchAll_moved {T : Nat} {b : State} (hT : Within 2242 T) {s q i l} (hs : Moved T b s) :
    Moved T b (State.fetchAll s q i l) := by
  unfold State.fetchAll
  exact foldl_moved hs (fun u0 x1 h2 => State.beginFetch_moved (hT.mono rfl) h2)

theorem State.trimOn_moved {T : Nat} {b : State} (hT : Within 2558 T) {s c i} (hs : Moved T b s) :
    Moved T b (State.trimOn s c i) := by
  unfold State.trimOn
  extract_lets v0 v1 v2 v3 v4 v5
  have hv3 : Moved T b v3 := State.makeClean_moves (hT.mono rfl) hs
  have hv4 : Moved T b v4 := State.setCmd_moved (hT.mono rfl) (State.trimRange_moved (hT.mono rfl) hv3)
  have hv5 : Moved T b v5 := State.beginBatch_moved (hT.mono rfl) (State.setCmd_moved (hT.mono rfl) hv4)
  split
  · exact State.abortNow_moved (hT.mono rfl) hs
  · split
    · exact State.fetchAll_moved (hT.mono rfl) hs
    · split
      · exact hv3
      · split
        · exact State.flashSettle_moved (hT.mono rfl) hv4
        · exact State.flashSettle_moved (hT.mono rfl) (State.beginJob_moved (hT.mono rfl) hv5)

theorem execTrim_moved {T : Nat} {b : State} (hT : Within 272894 T) {q s} (hs : Moved T b s) :
    MovedA T b (execTrim q s) := by
  unfold execTrim
  refine State.done_moved (hT.mono rfl) ?_
  refine State.onCmd_moved (hT.mono rfl) hs ?_
  intro y0
  split
  · exact State.asBarrier_moved (hT.mono rfl) hs
  · split
    · exact State.trimOn_moved (hT.mono rfl) hs
    · exact hs

theorem execBarrier_moved {T : Nat} {b : State} (hT : Within 270846 T) {q s} (hs : Moved T b s) :
    MovedA T b (execBarrier q s) := by
  unfold execBarrier
  exact State.done_moved (hT.mono rfl) (State.onCmd_moved (hT.mono rfl) hs (fun y0 => State.asBarrier_moved (hT.mono
      rfl) hs))

theorem execBarrierRelease_moved {T : Nat} {b : State} (hT : Within 270846 T) {q s} (hs : Moved T b s) :
    MovedA T b (execBarrierRelease q s) := by
  unfold execBarrierRelease
  split
  · split
    · split
      · exact State.done_moved (hT.mono rfl) (State.complete_moved (hT.mono rfl) hs)
      · exact State.done_moved (hT.mono rfl) hs
    · exact State.done_moved (hT.mono rfl) hs
  · exact State.done_moved (hT.mono rfl) hs

theorem State.resume_moved {T : Nat} {b : State} (hT : Within 264702 T) {s q} (hs : Moved T b s) :
    Moved T b (State.resume s q) := by
  unfold State.resume
  split
  · split
    · split
      · exact State.readOn_moved (hT.mono rfl) hs
      · exact Moved.ite (State.trimOn_moved (hT.mono rfl) hs) hs
    · exact Moved.ite (State.writeOn_moved (hT.mono rfl) hs) hs
    · exact hs
  · exact hs

theorem State.goOn_moved {T : Nat} {b : State} (hT : Within 264702 T) {s} (hs : Moved T b s) :
    Moved T b (State.goOn s) := by
  unfold State.goOn
  extract_lets v0 v1
  have hv0 : Moved T b v0 := State.commitPlaced_moved (hT.mono rfl) (State.jobsGo_moved (hT.mono rfl)
      (State.strandedPages_moved (hT.mono rfl) hs))
  have hv1 : Moved T b v1 := foldl_moved hv0 (fun u5 x6 h7 => State.askFetch_moved (hT.mono rfl) h7)
  exact foldl_moved hv1 (fun u2 x3 h4 => State.resume_moved (hT.mono rfl) h4)

theorem execMapPageResident_moved {T : Nat} {b : State} (hT : Within 273406 T) {slice idx firstOk secondOk s} (hs :
    Moved T b s) :
    MovedA T b (execMapPageResident slice idx firstOk secondOk s) := by
  unfold execMapPageResident
  split
  · split
    · exact State.done_moved (hT.mono rfl) (State.flashSettle_moved (hT.mono rfl) (State.goOn_moved (hT.mono rfl)
          (State.fetchOn_moves (hT.mono rfl) hs)))
    · exact MovedA.next hs
  · exact MovedA.next hs

end Sys2Proof.Machine
end

