-- ==== Sys2Proof/Laws/MovedRows.lean ====
section
/-!
SUPPORT. Which parts of the card change, and that nothing is broken: the dies' rows, upkeep, sleep, the tick and every command. One lemma per operation, in the order of the
model's files.
-/
namespace Sys2Proof.Machine

theorem State.beginGranted_moved {T : Nat} {b : State} (hT : Within 2274 T) {s d r} (hs : Moved T b s) :
    Moved T b (State.beginGranted s d r) := by
  unfold State.beginGranted
  split
  · exact State.release__moved (hT.mono rfl) hs
  · split
    · exact State.release__moved (hT.mono rfl) hs
    · split
      · exact State.release__moved (hT.mono rfl) hs
      · extract_lets v0 v1
        have hv0 : Moved T b v0.1 := State.fill_moved (hT.mono rfl) hs
        have hv1 : Moved T b v1.1 := State.beginPages_moved (hT.mono rfl) hv0
        split
        · exact State.release__moved (hT.mono rfl) hv0
        · exact State.setDie_moved (hT.mono rfl) hv1

theorem State.holdChannel_moved {T : Nat} {b : State} (hT : Within 2048 T) {s n} (hs : Moved T b s) :
    Moved T b (State.holdChannel s n) := by
  unfold State.holdChannel
  exact State.onFlash_moved (hT.mono rfl) hs

theorem State.grantBegun_moved {T : Nat} {b : State} (hT : Within 2290 T) {s d} (hs : Moved T b s) :
    Moved T b (State.grantBegun s d) := by
  unfold State.grantBegun
  split
  · exact hs
  · split
    · split
      · exact State.beginGranted_moved (hT.mono rfl) hs
      · exact Moved.ite (State.stepStarted_moved (hT.mono rfl) hs) hs
    · exact hs
    · exact hs
    · exact hs
    · exact hs

theorem execArbiterGrant_moved {T : Nat} {b : State} (hT : Within 272894 T) {die s} (hs : Moved T b s) :
    MovedA T b (execArbiterGrant die s) := by
  unfold execArbiterGrant
  split
  · exact State.done_moved (hT.mono rfl) hs
  · split
    · exact State.done_moved (hT.mono rfl) hs
    · extract_lets v0 v1
      have hv0 : Moved T b v0 := State.arbSettle_moved (hT.mono rfl) hs
      split
      · exact State.done_moved (hT.mono rfl) (State.holdChannel_moved (hT.mono rfl) hv0)
      · exact State.done_moved (hT.mono rfl) (State.flashSettle_moved (hT.mono rfl) (State.grantBegun_moved (hT.mono
            rfl) (State.grantDie_moved (hT.mono rfl) hv0)))

theorem State.programEnds_moved {T : Nat} {b : State} (hT : Within 264702 T) {s br d bx p pass} (hs : Moved T b s) :
    Moved T b (State.programEnds s br d bx p pass) := by
  unfold State.programEnds
  split
  · exact hs
  · split
    · exact hs
    · exact State.endPages_moved (hT.mono rfl) hs

theorem State.opEnds_moved {T : Nat} {b : State} (hT : Within 264702 T) {s d r pass} (hs : Moved T b s) :
    Moved T b (State.opEnds s d r pass) := by
  unfold State.opEnds
  split
  · exact State.arrayRead_moved (hT.mono rfl) hs
  · split
    · split
      · exact State.jobRuns_moved (hT.mono rfl) hs
      · exact hs
    · exact Moved.ite (State.programEnds_moved (hT.mono rfl) hs) hs
    · exact hs
    · exact hs
    · exact hs
    · exact hs
    · exact hs
  · split
    · exact State.forcedBody_moved (hT.mono rfl) hs
    · extract_lets v0
      have hv0 : Moved T b v0 := State.eraseStep_moved (hT.mono rfl) hs
      exact Moved.ite (State.stepEnded_moved (hT.mono rfl) hv0) hv0

theorem State.readMade_moved {T : Nat} {b : State} (hT : Within 2242 T) {s d r} (hs : Moved T b s) :
    Moved T b (State.readMade s d r) := by
  unfold State.readMade
  extract_lets v0 v1
  have hv1 : Moved T b v1 := by
    unfold v1
    split
    · exact State.hostRead_moved (hT.mono rfl) hs
    · exact State.hostRead_moved (hT.mono rfl) hs
    · split
      · exact State.fetchRead_moved (hT.mono rfl) hs
      · exact State.arrayRead_moved (hT.mono rfl) hs
    · exact State.arrayRead_moved (hT.mono rfl) hs
    · exact State.arrayRead_moved (hT.mono rfl) hs
    · exact State.arrayRead_moved (hT.mono rfl) hs
    · exact State.arrayRead_moved (hT.mono rfl) hs
  exact State.needBus_moved (hT.mono rfl) (State.setDie_moved (hT.mono rfl) hv1)

theorem State.suspendedEnds_moved {T : Nat} {b : State} (hT : Within 264702 T) {s d} (hs : Moved T b s) :
    Moved T b (State.suspendedEnds s d) := by
  unfold State.suspendedEnds
  split
  · exact hs
  · split
    · exact hs
    · split
      · exact State.opEnds_moved (hT.mono rfl) (State.setDie_moved (hT.mono rfl) hs)
      · exact State.opEnds_moved (hT.mono rfl) (State.setDie_moved (hT.mono rfl) hs)
      · exact State.setDie_moved (hT.mono rfl) hs

theorem State.resetLunEnds_moved {T : Nat} {b : State} (hT : Within 264702 T) {s d back orphan} (hs : Moved T b s) :
    Moved T b (State.resetLunEnds s d back orphan) := by
  unfold State.resetLunEnds
  extract_lets v0
  have hv0 : Moved T b v0 := State.release__moved (hT.mono rfl) (State.suspendedEnds_moved (hT.mono rfl) hs)
  split
  · exact hv0
  · split
    · exact State.opEnds_moved (hT.mono rfl) hv0
    · split
      · exact State.setDie_moved (hT.mono rfl) hv0
      · exact State.present_moved (hT.mono rfl) hv0

theorem State.takenAgain_moved {T : Nat} {b : State} (hT : Within 2048 T) {s e x} (hs : Moved T b s) :
    Moved T b (State.takenAgain s e x) := by
  unfold State.takenAgain
  split
  · exact State.leaveBus_moved (hT.mono rfl) (State.setDie_moved (hT.mono rfl) hs)
  · split
    · exact State.needBus_moved (hT.mono rfl) (State.setDie_moved (hT.mono rfl) (State.leaveBus_moved (hT.mono rfl) hs))
    · exact hs

theorem State.resetMate_moved {T : Nat} {b : State} (hT : Within 264702 T) {s e} (hs : Moved T b s) :
    Moved T b (State.resetMate s e) := by
  unfold State.resetMate
  extract_lets v0
  have hv0 : Moved T b v0 := State.suspendedEnds_moved (hT.mono rfl) hs
  split
  · exact hv0
  · split
    · split
      · exact State.opEnds_moved (hT.mono rfl) (State.release__moved (hT.mono rfl) hv0)
      · exact State.takenAgain_moved (hT.mono rfl) hv0
    · exact hv0

theorem State.resetMates_moved {T : Nat} {b : State} (hT : Within 264702 T) {s d} (hs : Moved T b s) :
    Moved T b (State.resetMates s d) := by
  unfold State.resetMates
  exact foldl_moved hs (fun u0 x1 h2 => State.resetMate_moved (hT.mono rfl) h2)

theorem State.wayReset_moved {T : Nat} {b : State} (hT : Within 264702 T) {s d x} (hs : Moved T b s) :
    Moved T b (State.wayReset s d x) := by
  unfold State.wayReset
  exact Moved.ite (State.resetMates_moved (hT.mono rfl) hs) hs

theorem State.operationEnds_moved {T : Nat} {b : State} (hT : Within 264702 T) {s d x h pass} (hs : Moved T b s) :
    Moved T b (State.operationEnds s d x h pass) := by
  unfold State.operationEnds
  split
  · exact State.setDie_moved (hT.mono rfl) hs
  · exact State.resetLunEnds_moved (hT.mono rfl) (State.resetMates_moved (hT.mono rfl) hs)
  · split
    · exact State.opEnds_moved (hT.mono rfl) (State.release__moved (hT.mono rfl) hs)
    · exact hs
  · split
    · exact State.readMade_moved (hT.mono rfl) hs
    · split
      · exact State.opEnds_moved (hT.mono rfl) (State.release__moved (hT.mono rfl) hs)
      · exact hs

theorem execDieReady_moved {T : Nat} {b : State} (hT : Within 272894 T) {die pass s} (hs : Moved T b s) :
    MovedA T b (execDieReady die pass s) := by
  unfold execDieReady
  split
  · exact State.done_moved (hT.mono rfl) hs
  · split
    · exact State.done_moved (hT.mono rfl) hs
    · split
      · exact State.done_moved (hT.mono rfl) (State.grantUrgent_moved (hT.mono rfl) (State.makeWay_moved (hT.mono rfl)
            (State.wayReset_moved (hT.mono rfl) hs)))
      · split
        · exact State.done_moved (hT.mono rfl) hs
        · exact State.done_moved (hT.mono rfl) (State.flashSettle_moved (hT.mono rfl) (State.goOn_moved (hT.mono rfl)
              (State.arbSettle_moved (hT.mono rfl) (State.operationEnds_moved (hT.mono rfl) hs))))

theorem State.lostRead_moved {T : Nat} {b : State} (hT : Within 264702 T) {s d bx p q n urgent} (hs : Moved T b s) :
    Moved T b (State.lostRead s d bx p q n urgent) := by
  unfold State.lostRead
  split
  · split
    · exact State.failedDieRead_moved (hT.mono rfl) hs
    · exact hs
  · exact hs

theorem State.dieFails_moved {T : Nat} {b : State} (hT : Within 264702 T) {s d} (hs : Moved T b s) :
    Moved T b (State.dieFails s d) := by
  unfold State.dieFails
  split
  · exact hs
  · extract_lets v0 v1 v2 v3 v4 v5 v6
    have hv2 : Moved T b v2 := State.failDie_moved (hT.mono rfl) hs
    have hv4 : Moved T b v4 := Moved.set_cmds (hT.mono rfl) hv2
    have hv5 : Moved T b v5 := foldl_moved hv4 (fun u10 x11 h12 => State.programEnds_moved (hT.mono rfl) h12)
    have hv6 : Moved T b v6 := foldl_moved hv5 (fun u7 x8 h9 => State.lostRead_moved (hT.mono rfl) h9)
    exact State.flashSettle_moved (hT.mono rfl) (State.goOn_moved (hT.mono rfl) hv6)

theorem State.recordBite_moved {T : Nat} {b : State} (hT : Within 262654 T) {s x h} (hs : Moved T b s) :
    Moved T b (State.recordBite s x h) := by
  unfold State.recordBite
  extract_lets v0 v1 v2
  have hv0 : Moved T b v0 := State.bump_moved (hT.mono rfl) (State.report_moved (hT.mono rfl) hs)
  have hv1 : Moved T b v1 := State.wr_moved (hT.mono rfl) (State.wr_moved (hT.mono rfl) hv0)
  have hv2 : Moved T b v2 := State.wr_moved (hT.mono rfl) (State.wr_moved (hT.mono rfl) hv1)
  exact State.wr_moved (hT.mono rfl) hv2

theorem State.bite_moved {T : Nat} {b : State} (hT : Within 264702 T) {s die} (hs : Moved T b s) :
    Moved T b (State.bite s die) := by
  unfold State.bite
  split
  · exact hs
  · split
    · exact hs
    · extract_lets v0
      have hv0 : Moved T b v0 := State.recordBite_moved (hT.mono rfl) hs
      split
      · exact State.dieFails_moved (hT.mono rfl) (State.bump_moved (hT.mono rfl) (State.report_moved (hT.mono rfl) hv0))
      · exact State.leaveBus_moved (hT.mono rfl) (State.setDie_moved (hT.mono rfl) hv0)

theorem execGrantWatchdogBite_moved {T : Nat} {b : State} (hT : Within 272894 T) {die s} (hs : Moved T b s) :
    MovedA T b (execGrantWatchdogBite die s) := by
  unfold execGrantWatchdogBite
  split
  · exact State.done_moved (hT.mono rfl) (State.bite_moved (hT.mono rfl) hs)
  · exact MovedA.next hs

theorem State.setWord_moved {T : Nat} {b : State} (hT : Within 2048 T) {s w f} (hs : Moved T b s) :
    Moved T b (State.setWord s w f) := by
  unfold State.setWord
  exact State.onFlash_moved (hT.mono rfl) hs

theorem State.softAssign_moved {T : Nat} {b : State} (hT : Within 2048 T) {s} (hs : Moved T b s) :
    Moved T b (State.softAssign s) := by
  unfold State.softAssign
  split
  · exact hs
  · refine foldl_moved hs ?_
    intro u0 x1 h2
    split
    · exact h2
    · split
      · exact State.setWord_moved (hT.mono rfl) h2
      · exact h2

theorem State.softRead_moved {T : Nat} {b : State} (hT : Within 2242 T) {s w} (hs : Moved T b s) :
    Moved T b (State.softRead s w) := by
  unfold State.softRead
  split
  · split
    · extract_lets v0 v1
      exact State.presentNext_moved (hT.mono rfl) hs
    · exact hs
  · exact hs

theorem State.wordEnds_moved {T : Nat} {b : State} (hT : Within 264702 T) {s w out} (hs : Moved T b s) :
    Moved T b (State.wordEnds s w out) := by
  unfold State.wordEnds
  extract_lets v0 v1 v2
  have hv0 : Moved T b v0 := State.onFlash_moved (hT.mono rfl) hs
  have hv1 : Moved T b v1.1 := State.decodeEnds_moved (hT.mono rfl) hv0
  have hv2 : Moved T b v2 := State.hold_moved (hT.mono rfl) (State.carryBatch_moved (hT.mono rfl) hv1)
  exact State.flashSettle_moved (hT.mono rfl) (State.softAssign_moved (hT.mono rfl) (State.readOn_moved (hT.mono rfl)
      hv2))

theorem execHardDecodeDone_moved {T : Nat} {b : State} (hT : Within 272894 T) {die block page slot out s} (hs : Moved
    T b s) :
    MovedA T b (execHardDecodeDone die block page slot out s) := by
  unfold execHardDecodeDone
  split
  · split
    · exact State.done_moved (hT.mono rfl) hs
    · split
      · extract_lets v0
        exact State.done_moved (hT.mono rfl) (State.flashSettle_moved (hT.mono rfl) (State.softRead_moved (hT.mono
            rfl) (State.setWord_moved (hT.mono rfl) hs)))
      · exact State.done_moved (hT.mono rfl) (State.wordEnds_moved (hT.mono rfl) hs)
  · exact State.done_moved (hT.mono rfl) hs

theorem execSoftDecodeDone_moved {T : Nat} {b : State} (hT : Within 272894 T) {die block page slot out s} (hs : Moved
    T b s) :
    MovedA T b (execSoftDecodeDone die block page slot out s) := by
  unfold execSoftDecodeDone
  split
  · split
    · exact State.done_moved (hT.mono rfl) hs
    · exact State.done_moved (hT.mono rfl) (State.wordEnds_moved (hT.mono rfl) hs)
  · exact State.done_moved (hT.mono rfl) hs

theorem State.chanTally_moved {T : Nat} {b : State} (hT : Within 2 T) {s f n} (hs : Moved T b s) :
    Moved T b (State.chanTally s f n) := by
  unfold State.chanTally
  exact State.bump_moved (hT.mono rfl) hs

theorem State.train_moved {T : Nat} {b : State} (hT : Within 264702 T) :
    ∀ n khz limits a a' a'' a''' a'''', Moved T b a'''' → Moved T b (State.train n khz limits a a' a'' a''' a'''').1
  | n, khz, limits, 0, x3, x2, x1, x0, h7 => by
    rw [State.train]
    exact Moved.fst h7
  | n, khz, limits, (fuel + 1), x3, x2, x1, x0, h7 => by
    rw [State.train]
    split
    · exact Moved.fst h7
    · extract_lets v0 v1 v2 v3 v4
      have hv0 : Moved T b v0 := State.chanTally_moved (hT.mono rfl) h7
      have hv3 : Moved T b v3 := State.dieFails_moved (hT.mono rfl) (State.report_moved (hT.mono rfl) hv0)
      have hv4 : Moved T b v4 := State.raise_moved (hT.mono rfl) hv0
      split
      · exact State.train_moved hT _ _ _ _ _ _ _ _ hv3
      · exact State.train_moved hT _ _ _ _ _ _ _ _ hv4

theorem State.train_moves {T : Nat} {b : State} (hT : Within 264702 T) {n khz limits a a' a'' a''' a''''} (ha'''' :
    Moved T b a'''') :
    Moved T b (State.train n khz limits a a' a'' a''' a'''').1 := State.train_moved hT n khz limits a a' a'' a'''
        a'''' ha''''

theorem State.configure_moved {T : Nat} {b : State} (hT : Within 264702 T) {s n p limits} (hs : Moved T b s) :
    Moved T b (State.configure s n p limits) := by
  unfold State.configure
  extract_lets v0 v1 v2 v3 v4 v5
  have hv4 : Moved T b v4.1 := by
    unfold v4
    split
    · exact Moved.fst hs
    · exact Moved.itep (State.train_moves (hT.mono rfl) hs) (Moved.fst hs)
  exact State.onFlash_moved (hT.mono rfl) hv4

theorem execReconfiguration_moved {T : Nat} {b : State} (hT : Within 272894 T) {ch trainLimits s} (hs : Moved T b s) :
    MovedA T b (execReconfiguration ch trainLimits s) := by
  unfold execReconfiguration
  split
  · split
    · extract_lets v0
      have hv0 : Moved T b v0 := State.configure_moved (hT.mono rfl) hs
      exact State.done_moved (hT.mono rfl) (State.chanTally_moved (hT.mono rfl) (State.raise_moved (hT.mono rfl) hv0))
    · exact State.done_moved (hT.mono rfl) hs
  · exact State.done_moved (hT.mono rfl) hs

theorem execRest_moved {T : Nat} {b : State} (hT : Within 272894 T) {q s} (hs : Moved T b s) :
    MovedA T b (execRest q s) := by
  unfold execRest
  refine State.done_moved (hT.mono rfl) ?_
  refine State.onCmd_moved (hT.mono rfl) hs ?_
  intro y0
  split
  · exact State.complete_moved (hT.mono rfl) hs
  · exact State.flashSettle_moved (hT.mono rfl) (State.mapWork_moved (hT.mono rfl) (State.setCmd_moved (hT.mono rfl)
        hs))

theorem execRestComplete_moved {T : Nat} {b : State} (hT : Within 272894 T) {q s} (hs : Moved T b s) :
    MovedA T b (execRestComplete q s) := by
  unfold execRestComplete
  exact State.done_moved (hT.mono rfl) (State.onCmd_moved (hT.mono rfl) hs (fun y0 => Moved.ite (State.endCmd_moved
      (hT.mono rfl) hs) hs))

theorem State.restsEnd_moved {T : Nat} {b : State} (hT : Within 2366 T) {s} (hs : Moved T b s) :
    Moved T b (State.restsEnd s) := by
  unfold State.restsEnd
  exact foldl_moved hs (fun u0 x1 h2 => Moved.ite (State.endCmd_moved (hT.mono rfl) h2) h2)

theorem State.engineRead_moved {T : Nat} {b : State} (hT : Within 2258 T) {s who d bx p goesOn may body} (hs : Moved T
    b s) (hbody : ∀ y0, Moved T b y0 → Moved T b (body y0)) :
    Moved T b (State.engineRead s who d bx p goesOn may body) := by
  unfold State.engineRead
  split
  · split
    · exact State.release__moved (hT.mono rfl) (State.stepEnded_moved (hT.mono rfl) (hbody _ hs))
    · exact State.release__moved (hT.mono rfl) hs
  · split
    · exact hs
    · split
      · exact State.stepEnded_moved (hT.mono rfl) (hbody _ (State.arrayRead_moved (hT.mono rfl)
            (State.countGrant_moved (hT.mono rfl) hs)))
      · exact State.present_moved (hT.mono rfl) hs

theorem State.engineErase_moved {T : Nat} {b : State} (hT : Within 2558 T) {s d bx may pass} (hs : Moved T b s) :
    Moved T b (State.engineErase s d bx may pass) := by
  unfold State.engineErase
  split
  · exact hs
  · split
    · exact State.stepEnded_moved (hT.mono rfl) (State.eraseStep_moved (hT.mono rfl) (State.countGrant_moved (hT.mono
          rfl) hs))
    · exact State.present_moved (hT.mono rfl) hs

theorem State.engineMove_moved {T : Nat} {b : State} (hT : Within 264702 T) {s who d bx p may outs prog} (hs : Moved T
    b s) :
    Moved T b (State.engineMove s who d bx p may outs prog) := by
  unfold State.engineMove
  extract_lets v0 v1
  have hv1 : Moved T b v1 := Moved.ite (State.fetchFor_moved (hT.mono rfl) hs) hs
  exact State.engineRead_moved (hT.mono rfl) hv1 (fun y2 h3 => State.relocateStep_moved (hT.mono rfl) h3)

theorem execBlockErase_moved {T : Nat} {b : State} (hT : Within 272894 T) {die block pass s} (hs : Moved T b s) :
    MovedA T b (execBlockErase die block pass s) := by
  unfold execBlockErase
  split
  · extract_lets v0 v1
    exact State.done_moved (hT.mono rfl) (State.engineErase_moved (hT.mono rfl) hs)
  · exact MovedA.next hs

theorem execPageRelocation_moved {T : Nat} {b : State} (hT : Within 272894 T) {die block page outs prog s} (hs : Moved
    T b s) :
    MovedA T b (execPageRelocation die block page outs prog s) := by
  unfold execPageRelocation
  split
  · extract_lets v0
    exact State.done_moved (hT.mono rfl) (State.engineMove_moved (hT.mono rfl) hs)
  · exact MovedA.next hs

theorem execRefreshRelocation_moved {T : Nat} {b : State} (hT : Within 272894 T) {die block page outs prog s} (hs :
    Moved T b s) :
    MovedA T b (execRefreshRelocation die block page outs prog s) := by
  unfold execRefreshRelocation
  split
  · extract_lets v0
    exact State.done_moved (hT.mono rfl) (State.engineMove_moved (hT.mono rfl) hs)
  · exact MovedA.next hs

theorem State.readPage_moved {T : Nat} {b : State} (hT : Within 264702 T) {s d bx p outs} (hs : Moved T b s) :
    Moved T b (State.readPage s d bx p outs).1 := by
  unfold State.readPage
  extract_lets v0 v1
  have hv1 : Moved T b v1.1 := by
    unfold v1
    refine foldl_fst_moved (Moved.fst hs) ?_
    intro u2 x3 h4
    extract_lets v5
    have hv5 : Moved T b v5.1 := State.stepSlot_moved (hT.mono rfl) h4
    exact Moved.fst hv5
  exact Moved.fst hv1

theorem State.verifyStep_moved {T : Nat} {b : State} (hT : Within 264702 T) {s i k d bx p outs} (hs : Moved T b s) :
    Moved T b (State.verifyStep s i k d bx p outs) := by
  unfold State.verifyStep
  extract_lets v0 v1 v2
  have hv0 : Moved T b v0 := State.setSb_moved (hT.mono rfl) hs
  have hv1 : Moved T b v1.1 := Moved.itep (State.readPage_moved (hT.mono rfl) hv0) (Moved.fst hv0)
  have hv2 : Moved T b v2 := Moved.ite hv1 (State.verifyFails_moved (hT.mono rfl) hv1)
  exact State.flashSettle_moved (hT.mono rfl) (State.tryRelease_moved (hT.mono rfl) (State.tally_moved (hT.mono rfl)
      hv2))

theorem State.patrolStep_moved {T : Nat} {b : State} (hT : Within 264702 T) {s d bx p outs} (hs : Moved T b s) :
    Moved T b (State.patrolStep s d bx p outs) := by
  unfold State.patrolStep
  extract_lets v0 v1
  have hv0 : Moved T b v0 := State.readPage_moved (hT.mono rfl) hs
  have hv1 : Moved T b v1 := State.onFlash_moved (hT.mono rfl) hv0
  exact State.flashSettle_moved (hT.mono rfl) (State.tally_moved (hT.mono rfl) hv1)

theorem execVerificationRead_moved {T : Nat} {b : State} (hT : Within 272894 T) {die block page outs s} (hs : Moved T
    b s) :
    MovedA T b (execVerificationRead die block page outs s) := by
  unfold execVerificationRead
  split
  · extract_lets v0
    split
    · split
      · split
        · exact State.done_moved (hT.mono rfl) (State.stepEnded_moved (hT.mono rfl) (State.verifyStep_moved (hT.mono
              rfl) hs))
        · exact MovedA.next hs
      · exact State.done_moved (hT.mono rfl) (State.engineRead_moved (hT.mono rfl) hs (fun y1 h2 =>
            State.verifyStep_moved (hT.mono rfl) h2))
    · split
      · exact State.done_moved (hT.mono rfl) (State.engineRead_moved (hT.mono rfl) hs (fun y3 h4 =>
            State.patrolStep_moved (hT.mono rfl) h4))
      · exact MovedA.next hs
  · exact MovedA.next hs

theorem execPatrolStart_moved {T : Nat} {b : State} (hT : Within 272894 T) {s} (hs : Moved T b s) :
    MovedA T b (execPatrolStart s) := by
  unfold execPatrolStart
  split
  · exact State.done_moved (hT.mono rfl) (State.flashSettle_moved (hT.mono rfl) (State.startPatrol_moved (hT.mono rfl)
        hs))
  · exact MovedA.next hs

theorem State.programRecord_moved {T : Nat} {b : State} (hT : Within 49152 T) {s} (hs : Moved T b s) :
    Moved T b (State.programRecord s) := by
  unfold State.programRecord
  extract_lets v0
  split
  · exact Moved.upd (C := 49152) (hT.mono rfl) hs rfl ⟨rfl, id, id, id, id, .refl _⟩
  · exact Moved.upd (C := 49152) (hT.mono rfl) hs rfl ⟨rfl, id, id, id, id, .refl _⟩

theorem State.crustForSleep_moved {T : Nat} {b : State} (hT : Within 8192 T) {s} (hs : Moved T b s) :
    Moved T b (State.crustForSleep s) := by
  unfold State.crustForSleep
  extract_lets v0
  have hv0 : Moved T b v0 := State.raiseCell_moved (hT.mono rfl) (State.cellBit_moved (hT.mono rfl) hs)
  exact State.setCell_moved (hT.mono rfl) hv0

theorem execSleepEntry_moved {T : Nat} {b : State} (hT : Within 325826 T) {s} (hs : Moved T b s) :
    MovedA T b (execSleepEntry s) := by
  unfold execSleepEntry
  split
  · extract_lets v0 v1 v2
    have hv0 : Moved T b v0 := State.crustForSleep_moved (hT.mono rfl) (State.programRecord_moved (hT.mono rfl)
        (State.checkpointBatch_moved (hT.mono rfl) (State.writeBackAll_moved (hT.mono rfl) hs)))
    have hv1 : Moved T b v1 := State.writeAlert_moved (hT.mono rfl) hv0
    exact MovedA.next (Moved.set_power (hT.mono rfl) hv1)
  · exact MovedA.next hs

theorem execWakePattern_moved {T : Nat} {b : State} (hT : Within 8339446 T) {s} (hs : Moved T b s) :
    MovedA T b (execWakePattern s) := by
  unfold execWakePattern
  split
  · extract_lets v0
    have hv0 : Moved T b v0 := State.raiseCell_moved (hT.mono rfl) (State.writeAlert_moved (hT.mono rfl)
        (State.latchWake_moved (hT.mono rfl) hs))
    exact MovedA.next (State.powerOnStart_moved (hT.mono rfl) (State.cellBit_moved (hT.mono rfl) hv0))
  · exact MovedA.next hs

theorem execTempConversion_moved {T : Nat} {b : State} (hT : Within 797182 T) {value s} (hs : Moved T b s) :
    MovedA T b (execTempConversion value s) := by
  unfold execTempConversion
  split
  · split
    · exact State.done_moved (hT.mono rfl) (State.flashSettle_moved (hT.mono rfl) (State.takeTemp_moved (hT.mono rfl)
          hs))
    · exact State.done_moved (hT.mono rfl) (State.report_moved (hT.mono rfl) hs)
  · exact MovedA.next hs

theorem execTempRangeClr_moved {T : Nat} {b : State} (hT : Within 795134 T) {s} (hs : Moved T b s) :
    MovedA T b (execTempRangeClr s) := by
  unfold execTempRangeClr
  split
  · exact State.done_moved (hT.mono rfl) (Moved.set_temp (hT.mono rfl) hs)
  · exact MovedA.next hs

theorem exec_moved {T : Nat} {b : State} (hT : Within 16777214 T) {i s} (hs : Moved T b s) :
    MovedA T b (exec i s) := by
  unfold exec
  split
  · exact execNop_moved (hT.mono rfl) hs
  · exact execIdentify_moved (hT.mono rfl) hs
  · exact execAssignAddress_moved (hT.mono rfl) hs
  · exact execSwitch_moved (hT.mono rfl) hs
  · exact execDeclareClock_moved (hT.mono rfl) hs
  · exact execDeclareClockCountsLoad_moved (hT.mono rfl) hs
  · exact execHello_moved (hT.mono rfl) hs
  · exact execHelloEpochRecord_moved (hT.mono rfl) hs
  · exact execSleepPropose_moved (hT.mono rfl) hs
  · exact execSleepVeto_moved (hT.mono rfl) hs
  · exact execVetoWindowEnd_moved (hT.mono rfl) hs
  · exact execSleepCommit_moved (hT.mono rfl) hs
  · exact execSleepCommitComplete_moved (hT.mono rfl) hs
  · exact execReset_moved (hT.mono rfl) hs
  · exact execAbort_moved (hT.mono rfl) hs
  · exact execAbortTakesEffect_moved (hT.mono rfl) hs
  · exact execRead_moved (hT.mono rfl) hs
  · exact execWrite_moved (hT.mono rfl) hs
  · exact execTrim_moved (hT.mono rfl) hs
  · exact execBarrier_moved (hT.mono rfl) hs
  · exact execBarrierRelease_moved (hT.mono rfl) hs
  · exact execVerify_moved (hT.mono rfl) hs
  · exact execRest_moved (hT.mono rfl) hs
  · exact execRestComplete_moved (hT.mono rfl) hs
  · exact execRegread_moved (hT.mono rfl) hs
  · exact execRegwrite_moved (hT.mono rfl) hs
  · exact execSliceCreate_moved (hT.mono rfl) hs
  · exact execSliceBindChallenge_moved (hT.mono rfl) hs
  · exact execSliceBindAnswer_moved (hT.mono rfl) hs
  · exact execSliceUnbind_moved (hT.mono rfl) hs
  · exact execSliceUnbindComplete_moved (hT.mono rfl) hs
  · exact execSliceLock_moved (hT.mono rfl) hs
  · exact execSliceUnlock_moved (hT.mono rfl) hs
  · exact execSliceReset_moved (hT.mono rfl) hs
  · exact execSliceResetEnd_moved (hT.mono rfl) hs
  · exact execSliceSoftReset_moved (hT.mono rfl) hs
  · exact execSliceDestroy_moved (hT.mono rfl) hs
  · exact execSliceDestroyComplete_moved (hT.mono rfl) hs
  · exact execFwStage_moved (hT.mono rfl) hs
  · exact execFwActivate_moved (hT.mono rfl) hs
  · exact execFwConfirm_moved (hT.mono rfl) hs
  · exact execAttnFetch_moved (hT.mono rfl) hs
  · exact execSelftest_moved (hT.mono rfl) hs
  · exact execCmdFrame_moved (hT.mono rfl) hs
  · exact execCommandDecode_moved (hT.mono rfl) hs
  · exact execStagingReserved_moved (hT.mono rfl) hs
  · exact execDataDn_moved (hT.mono rfl) hs
  · exact execLinkctl_moved (hT.mono rfl) hs
  · exact execFrameDiscard_moved (hT.mono rfl) hs
  · exact execNakReplay_moved (hT.mono rfl) hs
  · exact execReplayTimeout_moved (hT.mono rfl) hs
  · exact execLinkctlIdleAck_moved (hT.mono rfl) hs
  · exact execTsd_moved (hT.mono rfl) hs
  · exact execTse_moved (hT.mono rfl) hs
  · exact execReturnToIdRequest_moved (hT.mono rfl) hs
  · exact execReturnToIdComplete_moved (hT.mono rfl) hs
  · exact execIdCommandFrame_moved (hT.mono rfl) hs
  · exact execIdReceiverResync_moved (hT.mono rfl) hs
  · exact execSwitchRegulated_moved (hT.mono rfl) hs
  · exact execSwitchConfirm_moved (hT.mono rfl) hs
  · exact execSwitchCancel_moved (hT.mono rfl) hs
  · exact execSwitchTimeout_moved (hT.mono rfl) hs
  · exact execProgressInterval_moved (hT.mono rfl) hs
  · exact execArbiterGrant_moved (hT.mono rfl) hs
  · exact execDieReady_moved (hT.mono rfl) hs
  · exact execGrantWatchdogBite_moved (hT.mono rfl) hs
  · exact execHardDecodeDone_moved (hT.mono rfl) hs
  · exact execSoftDecodeDone_moved (hT.mono rfl) hs
  · exact execMapPageResident_moved (hT.mono rfl) hs
  · exact execBlockErase_moved (hT.mono rfl) hs
  · exact execPageRelocation_moved (hT.mono rfl) hs
  · exact execRefreshRelocation_moved (hT.mono rfl) hs
  · exact execVerificationRead_moved (hT.mono rfl) hs
  · exact execPatrolStart_moved (hT.mono rfl) hs
  · exact execReconfiguration_moved (hT.mono rfl) hs
  · exact execPowerOn_moved (hT.mono rfl) hs
  · exact execResetRelease_moved (hT.mono rfl) hs
  · exact execPowerUpRecovery_moved (hT.mono rfl) hs
  · exact execDetNArm_moved (hT.mono rfl) hs
  · exact execRstN_moved (hT.mono rfl) hs
  · exact execLinkSystemReset_moved (hT.mono rfl) hs
  · exact execCoreResetHalt_moved (hT.mono rfl) hs
  · exact execCoreResetRestart_moved (hT.mono rfl) hs
  · exact execBlockSoftReset_moved (hT.mono rfl) hs
  · exact execBlockSoftResetEnd_moved (hT.mono rfl) hs
  · exact execBlockIsolate_moved (hT.mono rfl) hs
  · exact execBlockEnable_moved (hT.mono rfl) hs
  · exact execRemovalTrigger_moved (hT.mono rfl) hs
  · exact execRemovalRbWaitEnd_moved (hT.mono rfl) hs
  · exact execRemovalRestart_moved (hT.mono rfl) hs
  · exact execHoldDroop_moved (hT.mono rfl) hs
  · exact execCrustPowerOn_moved (hT.mono rfl) hs
  · exact execSleepEntry_moved (hT.mono rfl) hs
  · exact execWakePattern_moved (hT.mono rfl) hs
  · exact execWakeForce_moved (hT.mono rfl) hs
  · exact execWakeCauseClear_moved (hT.mono rfl) hs
  · exact execLeaseExpired_moved (hT.mono rfl) hs
  · exact execTempConversion_moved (hT.mono rfl) hs
  · exact execFaultSourceError_moved (hT.mono rfl) hs
  · exact execGraceExpiry_moved (hT.mono rfl) hs
  · exact execHdrParity_moved (hT.mono rfl) hs
  · exact execStageEcc_moved (hT.mono rfl) hs
  · exact execAlertReadback_moved (hT.mono rfl) hs
  · exact execFaultGraceWrite_moved (hT.mono rfl) hs
  · exact execInject_moved (hT.mono rfl) hs
  · exact execCapacityWrite_moved (hT.mono rfl) hs
  · exact execCapacityLowerLand_moved (hT.mono rfl) hs
  · exact execMapPin_moved (hT.mono rfl) hs
  · exact execAuthClear_moved (hT.mono rfl) hs
  · exact execBindKeyWrite_moved (hT.mono rfl) hs
  · exact execQosWrite_moved (hT.mono rfl) hs
  · exact execHwmClr_moved (hT.mono rfl) hs
  · exact execWmCrossClear_moved (hT.mono rfl) hs
  · exact execOptionStageLoad_moved (hT.mono rfl) hs
  · exact execOptionCommit_moved (hT.mono rfl) hs
  · exact execOptionCommitDone_moved (hT.mono rfl) hs
  · exact execTempRangeClr_moved (hT.mono rfl) hs
  · exact execCrustLostClear_moved (hT.mono rfl) hs
  · exact execFuseProgram_moved (hT.mono rfl) hs
  · exact execTestSeal_moved (hT.mono rfl) hs
  · exact execKeyProgram_moved (hT.mono rfl) hs
  · exact execKeyRevoke_moved (hT.mono rfl) hs
  · exact execFuseProgramDone_moved (hT.mono rfl) hs
  · exact execWdStop_moved (hT.mono rfl) hs
  · exact execExtest_moved (hT.mono rfl) hs
  · exact execSamplePreload_moved (hT.mono rfl) hs
  · exact execIdcode_moved (hT.mono rfl) hs
  · exact execHighz_moved (hT.mono rfl) hs
  · exact execClamp_moved (hT.mono rfl) hs
  · exact execBypass_moved (hT.mono rfl) hs
  · exact execTrstN_moved (hT.mono rfl) hs
  · exact execVccLoss_moved (hT.mono rfl) hs
  · exact execVbakLoss_moved (hT.mono rfl) hs
  · exact execVholdOk_moved (hT.mono rfl) hs
  · exact execEnableWrite_moved (hT.mono rfl) hs
  · exact execFaultHandling_moved (hT.mono rfl) hs
  · exact execAlertControlWrite_moved (hT.mono rfl) hs

theorem State.countHc_moved {T : Nat} {b : State} (hT : Within 2 T) {s} (hs : Moved T b s) :
    Moved T b (State.countHc s) := by
  unfold State.countHc
  extract_lets v0
  exact State.wr_moved (hT.mono rfl) (State.wr_moved (hT.mono rfl) hs)

theorem State.countProgress_moved {T : Nat} {b : State} (hT : Within 20 T) {s} (hs : Moved T b s) :
    Moved T b (State.countProgress s) := by
  unfold State.countProgress
  exact foldl_moved hs (fun u0 x1 h2 => State.progressEdge_moved (hT.mono rfl) h2)

theorem State.countWindow_moved {T : Nat} {b : State} (hT : Within 1534 T) {s} (hs : Moved T b s) :
    Moved T b (State.countWindow s) := by
  unfold State.countWindow
  split
  · exact hs
  · split
    · exact State.windowEnds_moved (hT.mono rfl) hs
    · extract_lets v0 v1
      have hv0 : Moved T b v0 := State.vetoEdge_moved (hT.mono rfl) hs
      exact Moved.ite hv0 (Moved.set_shelf (hT.mono rfl) hv0)

theorem State.countLease_moved {T : Nat} {b : State} (hT : Within 706 T) {s i} (hs : Moved T b s) :
    Moved T b (State.countLease s i) := by
  unfold State.countLease
  split
  · split
    · split
      · exact State.expireLease_moved (hT.mono rfl) hs
      · exact State.setSlice_moved (hT.mono rfl) hs
    · exact hs
  · exact hs

theorem State.countLink_moved {T : Nat} {b : State} (hT : Within 265726 T) {s} (hs : Moved T b s) :
    Moved T b (State.countLink s) := by
  unfold State.countLink
  extract_lets v0
  have hv0 : Moved T b v0 := by
    unfold v0
    split
    · split
      · exact State.replay_moved (hT.mono rfl) hs
      · exact State.onLink_moved (hT.mono rfl) hs
    · exact hs
  split
  · split
    · exact State.timeoutSwitch_moved (hT.mono rfl) hv0
    · exact State.onLink_moved (hT.mono rfl) hv0
  · exact hv0

theorem State.countDies_moved {T : Nat} {b : State} (hT : Within 264702 T) {s} (hs : Moved T b s) :
    Moved T b (State.countDies s) := by
  unfold State.countDies
  extract_lets v0 v1 v2
  have hv2 : Moved T b v2 := State.onFlash_moved (hT.mono rfl) hs
  exact foldl_moved hv2 (fun u3 x4 h5 => State.bite_moved (hT.mono rfl) h5)

theorem State.inputEnds_moved {T : Nat} {b : State} (hT : Within 2048 T) {s d r h} (hs : Moved T b s) :
    Moved T b (State.inputEnds s d r h) := by
  unfold State.inputEnds
  extract_lets v0
  have hv0 : Moved T b v0 := State.leaveBus_moved (hT.mono rfl) (State.setDie_moved (hT.mono rfl) hs)
  exact Moved.ite (State.confirmPages_moved (hT.mono rfl) hv0) hv0

theorem State.wordComes_moved {T : Nat} {b : State} (hT : Within 2048 T) {s d n r} (hs : Moved T b s) :
    Moved T b (State.wordComes s d n r) := by
  unfold State.wordComes
  split
  · exact hs
  · extract_lets v0
    exact State.onFlash_moved (hT.mono rfl) hs

theorem State.softComes_moved {T : Nat} {b : State} (hT : Within 2242 T) {s d n r} (hs : Moved T b s) :
    Moved T b (State.softComes s d n r) := by
  unfold State.softComes
  split
  · exact hs
  · extract_lets v0 v1
    have hv1 : Moved T b v1 := State.onFlash_moved (hT.mono rfl) hs
    split
    · exact State.softRead_moved (hT.mono rfl) hv1
    · exact State.softAssign_moved (hT.mono rfl) hv1

theorem State.outputEnds_moved {T : Nat} {b : State} (hT : Within 264702 T) {s d r} (hs : Moved T b s) :
    Moved T b (State.outputEnds s d r) := by
  unfold State.outputEnds
  split
  · exact State.wordComes_moved (hT.mono rfl) (State.release__moved (hT.mono rfl) hs)
  · exact State.softComes_moved (hT.mono rfl) (State.release__moved (hT.mono rfl) hs)
  · exact State.setFetch_moved (hT.mono rfl) (State.release__moved (hT.mono rfl) hs)
  · exact State.goOn_moved (hT.mono rfl) (State.forcedBody_moved (hT.mono rfl) (State.release__moved (hT.mono rfl) hs))
  · exact State.leaveBus_moved (hT.mono rfl) (State.setDie_moved (hT.mono rfl) hs)
  · exact State.release__moved (hT.mono rfl) hs
  · exact State.release__moved (hT.mono rfl) hs

theorem State.slotMoved_moved {T : Nat} {b : State} (hT : Within 264702 T) {s d} (hs : Moved T b s) :
    Moved T b (State.slotMoved s d) := by
  unfold State.slotMoved
  extract_lets v0 v1 v2
  have hv0 : Moved T b v0 := State.setDie_moved (hT.mono rfl) hs
  split
  · exact hv0
  · split
    · extract_lets v3 v4
      have hv4 : Moved T b v4 := State.setDie_moved (hT.mono rfl) hv0
      split
      · exact hv4
      · split
        · exact State.inputEnds_moved (hT.mono rfl) hv4
        · exact State.outputEnds_moved (hT.mono rfl) hv4
    · extract_lets v5 v6
      have hv6 : Moved T b v6 := State.setDie_moved (hT.mono rfl) hv0
      split
      · exact hv6
      · split
        · exact State.inputEnds_moved (hT.mono rfl) hv6
        · exact State.release__moved (hT.mono rfl) hv6
    · exact hv0
    · exact hv0
    · exact hv0

theorem State.burstEnds_moved {T : Nat} {b : State} (hT : Within 264702 T) {s d} (hs : Moved T b s) :
    Moved T b (State.burstEnds s d) := by
  unfold State.burstEnds
  split
  · split
    · exact State.setDie_moved (hT.mono rfl) hs
    · exact State.slotMoved_moved (hT.mono rfl) hs
  · exact hs

theorem State.yieldBus_moved {T : Nat} {b : State} (hT : Within 2048 T) {s n} (hs : Moved T b s) :
    Moved T b (State.yieldBus s n) := by
  unfold State.yieldBus
  split
  · split
    · exact Moved.ite hs (State.setChan_moved (hT.mono rfl) hs)
    · exact hs
    · exact hs
  · exact hs

theorem State.busEdge_moved {T : Nat} {b : State} (hT : Within 264702 T) {s n} (hs : Moved T b s) :
    Moved T b (State.busEdge s n) := by
  unfold State.busEdge
  split
  · exact hs
  · split
    · exact State.grantBus_moved (hT.mono rfl) hs
    · split
      · exact State.setChan_moved (hT.mono rfl) hs
      · exact State.yieldBus_moved (hT.mono rfl) (State.burstEnds_moved (hT.mono rfl) (State.setChan_moved (hT.mono
            rfl) hs))

theorem State.busEdges_moved {T : Nat} {b : State} (hT : Within 264702 T) {s} (hs : Moved T b s) :
    Moved T b (State.busEdges s) := by
  unfold State.busEdges
  exact foldl_moved hs (fun u0 x1 h2 => State.busEdge_moved (hT.mono rfl) h2)

theorem State.flashEdge_moved {T : Nat} {b : State} (hT : Within 264702 T) {s} (hs : Moved T b s) :
    Moved T b (State.flashEdge s) := by
  unfold State.flashEdge
  exact State.restsEnd_moved (hT.mono rfl) (State.flashSettle_moved (hT.mono rfl) (State.mapWork_moved (hT.mono rfl)
      (State.goOn_moved (hT.mono rfl) (State.arbSettle_moved (hT.mono rfl) (State.softAssign_moved (hT.mono rfl)
      (State.busEdges_moved (hT.mono rfl) hs))))))

theorem State.countStageWaits_moved {T : Nat} {b : State} (hT : Within 34 T) {s} (hs : Moved T b s) :
    Moved T b (State.countStageWaits s) := by
  unfold State.countStageWaits
  extract_lets v0 v1
  have hv1 : Moved T b v1 := Moved.set_descs (hT.mono rfl) hs
  exact Moved.ite hv1 (State.bump_moved (hT.mono rfl) hv1)

theorem State.countResets_moved {T : Nat} {b : State} (hT : Within 1052672 T) {s} (hs : Moved T b s) :
    Moved T b (State.countResets s) := by
  unfold State.countResets
  extract_lets v0 v1 v2
  exact Moved.upd (C := 1052672) (hT.mono rfl) hs rfl ⟨rfl, id, id, id, id, ⟨rfl, rfl, rfl, id⟩⟩

theorem State.countReadback_moved {T : Nat} {b : State} (hT : Within 262654 T) {s} (hs : Moved T b s) :
    Moved T b (State.countReadback s) := by
  unfold State.countReadback
  split
  · exact Moved.set_esc (hT.mono rfl) hs
  · split
    · exact State.report_moved (hT.mono rfl) (Moved.set_esc (hT.mono rfl) hs)
    · exact Moved.set_esc (hT.mono rfl) hs

theorem tick_moved {T : Nat} {b : State} (hT : Within 1327102 T) {s} (hs : Moved T b s) :
    Moved T b (tick s) := by
  unfold tick
  split
  · extract_lets v0 v1
    have hv0 : Moved T b v0 := State.countWindow_moved (hT.mono rfl) (State.countProgress_moved (hT.mono rfl)
        (State.countHc_moved (hT.mono rfl) (State.sampleAll_moved (hT.mono rfl) hs)))
    have hv1 : Moved T b v1 := foldl_moved hv0 (fun u2 x3 h4 => State.countLease_moved (hT.mono rfl) h4)
    exact State.settle_moved (hT.mono rfl) (State.escTick_moved (hT.mono rfl) (State.countReadback_moved (hT.mono rfl)
        (State.countResets_moved (hT.mono rfl) (State.countStageWaits_moved (hT.mono rfl) (State.freeDescs_moved
        (hT.mono rfl) (State.flashEdge_moved (hT.mono rfl) (State.countDies_moved (hT.mono rfl) (State.admitHeld_moved
        (hT.mono rfl) (State.countLink_moved (hT.mono rfl) hv1)))))))))
  · exact hs

end Sys2Proof.Machine
end

