-- ==== Sys2Proof/WellFormed.lean ====
section
/-!
DEFINITION. Which commands are well formed: the operands that have a width in the spec lie within it. A command that is
not well formed stands for no event of the card.
-/
namespace Sys2Proof

/-- Bytes, at most so many: what stands in a frame is bytes, and UNITS (Table 5-1) or LEN (Table 4-2) bounds how many. -/
def bytesWellFormed (most : Nat) (b : List Nat) : Bool := decide (b.length ≤ most) && b.all (fun x => decide (x < 256))

/-- A write's value and what the sources met on its edge, both of so many bits. -/
def bitsWellFormed (width value : Nat) : Bool := decide (value < 2 ^ width)

/-- A register page (R42) with its bank. -/
def pageWellFormed (page bank : Nat) : Bool := decide (page ≤ 0x28) && decide (bank < 64)

/-- A die: 16 × channel + target (R328). -/
def dieWellFormed (die : Nat) : Bool := decide (die < 256)

/-- Is a command well formed? -/
def Instr.wellFormed : Instr → Bool
  | .cmdFrame _ b => bytesWellFormed (16 + 64 * 255 + 4) b
  | .dataDn _ b => bytesWellFormed (16 + 64 * 255 + 4) b
  | .linkctl _ b => bytesWellFormed (16 + 64 * 255 + 4) b
  | .frameDiscard _ b => bytesWellFormed (16 + 64 * 255 + 4) b
  | .idCommandFrame b => bytesWellFormed (8 + 255 + 2) b
  | .nakReplay a => decide (a < 256)
  | .tsd lane b _ => decide (lane < 4) && bytesWellFormed 16 b
  | .tse blocks _ => decide (blocks.length ≤ 4) && blocks.all (bytesWellFormed 16)
  | .arbiterGrant die => dieWellFormed die
  | .dieReady die _ => dieWellFormed die
  | .grantWatchdogBite die => dieWellFormed die
  | .hardDecodeDone die _ _ slot _ => dieWellFormed die && decide (slot < 4)
  | .softDecodeDone die _ _ slot _ => dieWellFormed die && decide (slot < 4)
  | .blockErase die _ _ => dieWellFormed die
  | .pageRelocation die _ _ _ _ => dieWellFormed die
  | .refreshRelocation die _ _ _ _ => dieWellFormed die
  | .verificationRead die _ _ _ => dieWellFormed die
  | .reconfiguration ch _ => decide (ch < 16)
  | .blockSoftReset page => pageWellFormed page 0
  | .blockSoftResetEnd page => pageWellFormed page 0
  | .blockIsolate page _ => pageWellFormed page 0
  | .blockEnable page _ => pageWellFormed page 0
  | .wakeCauseClear mask met => bitsWellFormed 5 mask && bitsWellFormed 5 met
  | .leaseExpired slice => decide (slice < 64)
  | .faultSourceError page bank bit place =>
    pageWellFormed page bank && decide (bit < 16) && (page != 0x0C || place.all (fun p => decide (p.1 < 64)))
  | .hdrParity page bank index =>
    pageWellFormed page bank && (index == 1 || index == 4 || index == 5 || index == 7)
  | .faultGraceWrite v => decide (v < 2 ^ 32)
  | .inject page bank bit => decide (page < 256) && decide (bank < 64) && decide (bit < 32)
  | .sliceResetEnd slice => decide (slice < 64)
  | .sliceSoftReset slice => decide (slice < 64)
  | .capacityWrite _ slice cap => decide (slice < 64) && decide (cap < 2 ^ 40)
  | .capacityLowerLand slice => decide (slice < 64)
  | .mapPin slice _ => decide (slice < 64)
  | .mapPageResident slice _ _ _ => decide (slice < 64)
  | .authClear slice => decide (slice < 64)
  | .bindKeyWrite slice key => decide (slice < 64) && decide (key < 2 ^ 256)
  | .qosWrite slice cls weight dieCap =>
    decide (slice < 64) && decide (cls < 3) && decide (weight < 256) && decide (dieCap ≤ 256)
  | .hwmClr slice => decide (slice < 64)
  | .wmCrossClear ring mask met => decide (ring ≤ 64) && bitsWellFormed 2 mask && bitsWellFormed 2 met
  | .fuseProgram entry code confirm => decide (entry ≤ 359) && decide (code < 8) && decide (confirm < 256)
  | .testSeal confirm => decide (confirm < 256)
  | .keyProgram slot confirm => decide (slot < 4) && decide (confirm < 256)
  | .keyRevoke slot confirm => decide (slot < 4) && decide (confirm < 256)
  | .samplePreload levels => decide (levels < 2 ^ 1080)
  | .enableWrite page bank index value =>
    pageWellFormed page bank && (index == 4 || index == 5 || index == 7) && decide (value < 2 ^ 32)
  | .faultHandling page bank index value met =>
    pageWellFormed page bank && (index == 3 || index == 4 || index == 5) && bitsWellFormed 32 value && bitsWellFormed 32 met
  | .alertControlWrite mask _ => decide (mask < 8)
  | .tempConversion (some v) => decide (v < 1024)
  | .tempConversion none => true
  | .selftest _ findings => decide (findings < 2 ^ 32)
  | .nop _ => true
  | .identify _ => true
  | .assignAddress _ => true
  | .switch _ => true
  | .declareClock _ => true
  | .declareClockCountsLoad _ => true
  | .hello _ => true
  | .helloEpochRecord _ => true
  | .sleepPropose _ => true
  | .sleepVeto => true
  | .vetoWindowEnd => true
  | .sleepCommit _ => true
  | .sleepCommitComplete _ => true
  | .reset _ => true
  | .abort _ => true
  | .abortTakesEffect _ => true
  | .read _ _ => true
  | .write _ _ => true
  | .trim _ => true
  | .barrier _ => true
  | .barrierRelease _ => true
  | .verify _ _ => true
  | .rest _ => true
  | .restComplete _ => true
  | .regread _ => true
  | .regwrite _ met => met.all (fun m => decide (m.1 < 32) && bitsWellFormed 32 m.2)
  | .sliceCreate _ => true
  | .sliceBindChallenge _ => true
  | .sliceBindAnswer _ => true
  | .sliceUnbind _ => true
  | .sliceUnbindComplete _ => true
  | .sliceLock _ => true
  | .sliceUnlock _ => true
  | .sliceReset _ => true
  | .sliceDestroy _ => true
  | .sliceDestroyComplete _ => true
  | .fwStage _ => true
  | .fwActivate _ _ => true
  | .fwConfirm _ => true
  | .attnFetch _ => true
  | .commandDecode => true
  | .stagingReserved => true
  | .replayTimeout => true
  | .linkctlIdleAck => true
  | .returnToIdRequest => true
  | .returnToIdComplete => true
  | .idReceiverResync => true
  | .switchRegulated => true
  | .switchConfirm => true
  | .switchCancel _ => true
  | .switchTimeout => true
  | .progressInterval _ => true
  | .patrolStart => true
  | .powerOn => true
  | .resetRelease _ => true
  | .powerUpRecovery _ => true
  | .detNArm => true
  | .rstN => true
  | .linkSystemReset => true
  | .coreResetHalt => true
  | .coreResetRestart _ => true
  | .removalTrigger _ _ => true
  | .removalRbWaitEnd _ => true
  | .removalRestart => true
  | .holdDroop => true
  | .crustPowerOn => true
  | .sleepEntry => true
  | .wakePattern => true
  | .wakeForce => true
  | .graceExpiry => true
  | .stageEcc _ => true
  | .alertReadback _ _ => true
  | .optionStageLoad => true
  | .optionCommit => true
  | .optionCommitDone _ => true
  | .tempRangeClr => true
  | .crustLostClear => true
  | .fuseProgramDone _ => true
  | .wdStop _ => true
  | .extest => true
  | .idcode => true
  | .highz => true
  | .clamp => true
  | .bypass => true
  | .trstN => true
  | .vccLoss => true
  | .vbakLoss => true
  | .vholdOk => true

end Sys2Proof
end

