-- ==== Sys2Proof/Tests/Slice0.lean ====
section
/-!
SUPPORT. Small tests: ill-formed commands refused, worked values of the spec and of the standards that it names, and for each statement
of Certificates/Slice0/Obligations.lean a state and operands that meet its hypotheses, clause by clause.
-/
namespace Sys2Proof.Tests
open Sys2Proof.Machine Sys2Proof.Safety
set_option Elab.async false

/-! Small states. -/

/-- A card after start-up, in ID mode, nothing In flight. -/
def card : State :=
  { State.reset with
    power := { Power.reset with startup := .ready, armed := true, recovered := true }
    link := { Link.reset with phase := .idReady } }

/-- The card in fast mode, the link UP. -/
def fastCard : State := { card with link := { Link.reset with phase := .up, fast := true } }

/-- A command of Originator 1 with ORDER_SEQ 1. -/
def cmd (op : Nat) (ph : CmdPhase) (fields : Nat := 0) (ring : Option Nat := none) : Cmd :=
  { q := 1, orig := 1, tag := 7, opcode := op, fields := fields, bcast := false, idMode := false, ring := ring, phase := ph,
    wanted := 0, payload := [], progress := 0, done := 0, steps := 0, abortedBy := [], status := 0, result := 0,
    resultUnits := 0, upSent := false, slice := none, seqNo := 0, popped := false, snap := [], rings := [], erases := 0, moves := 0, awaits := [] }

/-- A state with one command In flight. -/
def State.holding (s : State) (c : Cmd) : State := { s with cmds := [c] }

/-- A state with an earlier command, a NOP of Originator 2 that waits for its decode, and the given one. -/
def State.behind (s : State) (c : Cmd) (ring : Option Nat := none) : State :=
  { s with cmds := [{ cmd opNop .queued 0 ring with q := 0, orig := 2 }, c] }

/-- A descriptor of the command with ORDER_SEQ 1. -/
def desc (st : DescState) (offset next : Nat) : Desc :=
  { index := 0, q := 1, st := st, offset := offset, next := next, parkedOn := none, before := .active, reserved := 0, waited := false,
    found := [], fetched := false }

/-- An active Slice of capacity 100. -/
def slice (owner : Option Nat := none) (lock : Option Lock := none) : Slice :=
  { Slice.free with st := .active, cfg := { Slice.free.cfg with exist := true, cap := 100 }, owner := owner, lock := lock }

/-- A request for a step. -/
def req (op : OpKind) (work : Work) (who : Nat) : Req :=
  { who := who, q := 1, cls := .urgent, weight := 0, op := op, block := 2, page := 4, work := work, waited := 0, progress := 0,
    held := 0, inArray := false }

/-- The card with one die. -/
def withDie (x : Die) : State := { fastCard with flash := { Flash.reset with dies := [x] } }

/-- A state in which Slice `i` stands as given. -/
def State.withSlice (s : State) (i : Nat) (x : Slice) : State := { s with slices := s.slices.set i x }

/-- A state with a register field set. -/
def State.with (s : State) (f : Field) (v : Nat) : State := s.wr f v

/-- A card that a reset of this level has been asked of. -/
def asked (system : Bool) : State :=
  { card with power := { card.power with resetReq := some { system := system, source := 4, sender := some 1 } } }

/-- A command that is alone In flight on a clocked card is at work. -/
theorem at_work (s : State) (op : Nat) (ph : CmdPhase) (fields : Nat) (ring : Option Nat) (h : s.clocked = true) :
    AtWork (State.holding s (cmd op ph fields ring)) 1 (cmd op ph fields ring) op ph :=
  ⟨rfl, h, rfl, rfl⟩

/-! Ill-formed commands are refused: one for each check of WellFormed. -/

theorem illFormed_frames_refused :
    [Instr.cmdFrame true [256], .dataDn true [256], .linkctl true [256], .frameDiscard true [256], .idCommandFrame [256],
     .cmdFrame true (List.replicate 16341 0), .dataDn true (List.replicate 16341 0), .linkctl true (List.replicate 16341 0),
     .frameDiscard true (List.replicate 16341 0), .idCommandFrame (List.replicate 266 0), .nakReplay 256, .tsd 4 [] true, .tsd 0 [256] true,
     .tsd 0 (List.replicate 17 0) true, .tse [[], [], [], [], []] true, .tse [[256]] true].all (fun i => !i.wellFormed) = true := by
  decide +kernel

theorem illFormed_flash_refused :
    [Instr.arbiterGrant 256, .dieReady 256 true, .grantWatchdogBite 256, .hardDecodeDone 256 0 0 0 .soft, .hardDecodeDone 0 0 0 4 .soft,
     .softDecodeDone 256 0 0 0 .soft, .softDecodeDone 0 0 0 4 .soft, .blockErase 256 0 true, .pageRelocation 256 0 0 [] ⟨0, true, true⟩,
     .refreshRelocation 256 0 0 [] ⟨0, true, true⟩, .verificationRead 256 0 0 [], .reconfiguration 16 [],
     .mapPageResident 64 0 true true].all (fun i => !i.wellFormed) = true := by decide +kernel

theorem illFormed_blocks_refused :
    [Instr.blockSoftReset 0x29, .blockSoftResetEnd 0x29, .blockIsolate 0x29 true, .blockEnable 0x29 true, .faultSourceError 0x29 0 0 none,
     .faultSourceError 0 64 0 none, .faultSourceError 0 0 16 none, .faultSourceError 0x0C 0 0 (some (64, 0)), .hdrParity 0x29 0 1, .hdrParity 0 64 1, .hdrParity 0 0 2,
     .inject 256 0 0, .inject 0 64 0, .inject 0 0 32, .enableWrite 0x29 0 4 0, .enableWrite 0 64 4 0, .enableWrite 0 0 6 0,
     .enableWrite 0 0 4 (2 ^ 32), .faultHandling 0x29 0 3 0 0, .faultHandling 0 64 3 0 0, .faultHandling 0 0 7 0 0,
     .faultHandling 0 0 3 (2 ^ 32) 0, .faultHandling 0 0 3 0 (2 ^ 32)].all (fun i => !i.wellFormed) = true := by decide +kernel

theorem illFormed_slices_refused :
    [Instr.leaseExpired 64, .sliceResetEnd 64, .sliceSoftReset 64, .capacityWrite 0 64 0, .capacityWrite 0 0 (2 ^ 40), .capacityLowerLand 64,
     .mapPin 64 true, .authClear 64, .bindKeyWrite 64 0, .bindKeyWrite 0 (2 ^ 256), .qosWrite 64 0 0 0, .qosWrite 0 3 0 0,
     .qosWrite 0 0 256 0, .qosWrite 0 0 0 257, .hwmClr 64, .wmCrossClear 65 0 0, .wmCrossClear 0 4 0, .wmCrossClear 0 0 4].all (fun i => !i.wellFormed) = true := by
  decide +kernel

theorem illFormed_others_refused :
    [Instr.wakeCauseClear 32 0, .wakeCauseClear 0 32, .regwrite 1 [(32, 0)], .regwrite 1 [(3, 2 ^ 32)], .faultGraceWrite (2 ^ 32), .alertControlWrite 8 true, .tempConversion (some 1024), .selftest 0 (2 ^ 32),
     .fuseProgram 360 0 0, .fuseProgram 0 8 0, .fuseProgram 0 0 256, .testSeal 256, .keyProgram 4 0, .keyProgram 0 256, .keyRevoke 4 0,
     .keyRevoke 0 256, .samplePreload (2 ^ 1080)].all (fun i => !i.wellFormed) = true := by decide +kernel

theorem wellFormed_accepted :
    [Instr.cmdFrame true (List.replicate 84 255), .idCommandFrame (List.replicate 265 255), .dieReady 255 true, .hardDecodeDone 255 0 0 3 .soft, .blockEnable 0x28 true,
     .qosWrite 63 2 255 256, .wmCrossClear 64 3 3, .inject 255 63 31, .fuseProgram 359 7 255, .tempConversion none, .nop 0].all
      (fun i => i.wellFormed) = true := by decide +kernel

/-! The table gives no row any bits. -/

theorem test_no_word_spells_a_command : [0, 8, 16, 512].all (fun n => (decodeTableWord n 0).isNone) = true := by decide

/-! Worked values. -/

/-- The check value of CRC-32C over "123456789" (the polynomial's own catalogue entry; R104). -/
theorem test_crc32c : crc32c [0x31, 0x32, 0x33, 0x34, 0x35, 0x36, 0x37, 0x38, 0x39] = 0xE3069283 := by decide +kernel

/-- The check value of CRC-16 with initial value 0xFFFF over "123456789". -/
theorem test_crc16 : crc16 [0x31, 0x32, 0x33, 0x34, 0x35, 0x36, 0x37, 0x38, 0x39] = 0x29B1 := by decide +kernel

/-- SHA-256 of "abc" (FIPS 180-4). -/
theorem test_sha256 : ofBytesBE (sha256 [0x61, 0x62, 0x63]) =
    0xba7816bf8f01cfea414140de5dae2223b00361a396177a9cb410ff61f20015ad := by decide +kernel

/-- HMAC-SHA-256, test case 2 of RFC 4231. -/
theorem test_hmac : ofBytesBE (hmacSha256 [0x4a, 0x65, 0x66, 0x65]
    [0x77, 0x68, 0x61, 0x74, 0x20, 0x64, 0x6f, 0x20, 0x79, 0x61, 0x20, 0x77, 0x61, 0x6e, 0x74, 0x20, 0x66, 0x6f, 0x72, 0x20, 0x6e, 0x6f,
     0x74, 0x68, 0x69, 0x6e, 0x67, 0x3f]) = 0x5bdcc146bf60754e6a042426089575c75a003f089d2739839dec58b964ec3843 := by decide +kernel

/-- LIFE of the tram depot card before and after CH9 loses three blocks (Table 11-2). -/
theorem test_life : lifeOf (13903620, 32334000) = 43 ∧ lifeOf (97, 225) = 44 ∧ lifeOf (94, 225) = 42 := by decide

/-- The divisor of Table 13-5: a profile with MAX_RATE 24 under three declarations. -/
theorem test_rateK :
    let p := { copyProfile [] 0 with maxRate := 24 }
    rateK 3200000 p = 2 ∧ rateK 2400000 p = 1 ∧ rateK 1333000 p = 1 := by decide +kernel

/-- The broken increment of chapter 12: CP and LOW written, MID not yet. -/
theorem test_carry :
    let s := { card with crust := [(removalCells.mid, 2), (removalCells.cp, 0x8001)] }
    (s.completeCarry removalCells).count48 removalCells = 0x30000 ∧ (s.completeCarry removalCells).cell removalCells.cp = 0 := by
  decide +kernel

/-- `CH5.PAGE_ID` on an SQ-9130 and on an SQ-9104 (chapter 3). -/
theorem test_pageId :
    card.regWord 0x15 0 0 = 0x15010011 ∧
    ({ card with fuses := { Fuses.reset with part := 0x9104 } } : State).regWord 0x15 0 0 = 0x15010000 := by decide +kernel

/-- IDCODE on stepping 1 (R450). -/
theorem test_idCode : card.idCode = 0x19130DCB ∧ ({ card with fuses := { Fuses.reset with part := 0x9118 } } : State).idCode = 0x19118DCB ∧
    ({ card with fuses := { Fuses.reset with part := 0x9104 } } : State).idCode = 0x19104DCB := by decide +kernel

/-! Hypotheses that can be met: the queue and the step, shared operations. -/

theorem witness_emptyQueue : State.reset.pending = [] ∧ State.reset.clocked = false ∧ card.pending = [] ∧ card.clocked = true := by
  decide +kernel

theorem witness_everyStep : wf card ∧ goesOn (step { card with pending := [.rstN] }) = true := by unfold wf; decide +kernel

theorem witness_wf : wf card ∧ wf State.reset := by unfold wf; decide +kernel

theorem witness_factoryFuses :
    let s := { card with pending := [.patrolStart], fuses := { Fuses.reset with sealBlown := true } }
    wf s ∧ s.fuses.sealBlown = true ∧ goesOn (step s) = true := by unfold wf; decide +kernel

theorem witness_touches : goesOn (exec .vccLoss State.reset) = true ∧ goesOn (exec .sleepEntry card) = true := by decide +kernel

theorem witness_statusFixed :
    card.cmd? 1 = none ∧ (State.holding card (cmd opNop .settled)).cmd? 1 = some (cmd opNop .settled) ∧
    (cmd opNop .settled).done? = true ∧ (cmd opNop .deferred).done? = true ∧
    (State.holding card (cmd opNop .decoded)).cmd? 1 = some (cmd opNop .decoded) ∧ (cmd opNop .decoded).done? = false := by
  decide +kernel

/-- An entry of the card ring. -/
def entry (k : AttnKind) : AttnEntry :=
  { ring := 64, kind := k, b1 := 0, b2 := 0, b3 := 0, tag := 0, seq := 0, order := 0, extra := 0, sending := false, fresh := false }

theorem witness_attention :
    card.aqLevel 64 < 64 ∧ ({ card with attn := List.replicate 63 (entry .event) } : State).aqLevel 64 < 64 ∧
    64 ≤ ({ card with attn := List.replicate 64 (entry .event) } : State).aqLevel 64 ∧ (entry .event).kind ≠ .completion ∧
    (entry .completion).kind = .completion ∧ (card.slice 63).st = .free ∧ 64 ≤ (entry .event).ring := by decide +kernel

theorem witness_crust : card.power.vbak = true ∧ ({ card with power := { card.power with vbak := false } } : State).power.vbak = false := by
  decide +kernel

theorem witness_counts : wf card ∧ card.power.vbak = true ∧ bitAt (card.cell resetCells.cp) 15 = false ∧
    bitAt (card.cell removalCells.cp) 15 = false := by unfold wf; decide +kernel

theorem witness_safe :
    (State.with card Reg.ESCALATE.STATE.SAFE 1).safe = true ∧ card.safe = false ∧ 7 < 8 ∧ 63 < 64 ∧ 31 < 32 := by decide +kernel

/-! Identity, address, the voltage switch, clock and HELLO. -/

theorem witness_simple : card.clocked = true ∧
    AtWork (State.holding card (cmd opNop .decoded)) 1 (cmd opNop .decoded) opNop .decoded ∧
    AtWork (State.holding card (cmd opIdentify .decoded)) 1 (cmd opIdentify .decoded) opIdentify .decoded ∧
    AtWork (State.holding card (cmd opAssign .decoded)) 1 (cmd opAssign .decoded) opAssign .decoded ∧
    AtWork (State.holding card (cmd opSwitch .decoded)) 1 (cmd opSwitch .decoded) opSwitch .decoded :=
  ⟨rfl, at_work _ _ _ _ _ rfl, at_work _ _ _ _ _ rfl, at_work _ _ _ _ _ rfl, at_work _ _ _ _ _ rfl⟩

/-- The voltage switch at a step of its handshake. -/
def switching (x : SwitchStep) : State := { card with link := { Link.reset with phase := .switching, switchStep := x } }

theorem witness_switch :
    (switching .regulate).clocked = true ∧ (switching .regulate).link.phase = .switching ∧
    (switching .regulate).link.switchStep = .regulate ∧ (switching .confirm).clocked = true ∧
    (switching .confirm).link.phase = .switching ∧ (switching .confirm).link.switchStep = .confirm := by decide +kernel

theorem witness_declareClock :
    let c := cmd opDeclare .waiting 3200000
    AtWork (State.holding card (cmd opDeclare .decoded)) 1 (cmd opDeclare .decoded) opDeclare .decoded ∧
    (AtWork (State.holding card c) 1 c opDeclare .waiting ∧ c.abortedBy = [] ∧ (State.holding card c).earlier 1 = [] ∧
      (State.holding card c).diesIdle = true ∧ c.field 0 32 < 2 ^ 22 ∧ (State.holding card c).link.fast = false) ∧
    (AtWork (State.holding fastCard c) 1 c opDeclare .waiting ∧ (State.holding fastCard c).earlier 1 = [] ∧
      (State.holding fastCard c).diesIdle = true ∧ fastCard.link.fast = true ∧
      fastCard.rd Reg.CLOCK.DECL_FAST.DECL_KHZ ≠ c.field 0 32) ∧
    (AtWork (State.behind card c) 1 c opDeclare .waiting ∧ (State.behind card c).earlier 1 ≠ []) := by
  unfold AtWork; decide +kernel

/-- The card with an Originator 1 that has sent a HELLO with an Epoch. -/
def greeted (e : Nat) : State := { card with origs := [{ id := 1, epoch := e, helloSeen := true, nonce := none }] }

theorem witness_hello :
    let c (e : Nat) := cmd opHello .decoded e
    let two := { card with cmds := [{ cmd opNop .queued with q := 0, tag := 3 }, cmd opHello .waiting 9] }
    (AtWork (State.holding (greeted 5) (c 4)) 1 (c 4) opHello .decoded ∧ ((greeted 5).orig 1).helloSeen = true ∧
      (c 4).field 0 32 < ((greeted 5).orig 1).epoch) ∧
    (AtWork (State.holding (greeted 5) (c 5)) 1 (c 5) opHello .decoded ∧ (c 5).field 0 32 = ((greeted 5).orig 1).epoch) ∧
    (AtWork (State.holding (greeted 5) (c 6)) 1 (c 6) opHello .decoded ∧ ((greeted 5).orig 1).epoch < (c 6).field 0 32) ∧
    (AtWork (State.holding card (c 0)) 1 (c 0) opHello .decoded ∧ (card.orig 1).helloSeen = false) ∧
    (AtWork (State.holding card (cmd opHello .waiting 9)) 1 (cmd opHello .waiting 9) opHello .waiting ∧
      (State.holding card (cmd opHello .waiting 9)).quietBefore 1 1 = true) ∧
    (AtWork two 1 (cmd opHello .waiting 9) opHello .waiting ∧ two.quietBefore 1 1 = false) := by
  unfold AtWork; decide +kernel

theorem witness_epochs :
    let s := State.holding (greeted (2 ^ 32 - 1)) (cmd opHello .decoded (2 ^ 32 - 1))
    (card.clocked = true ∧ goesOn (exec .rstN card) = true) ∧
    (({ card with power := { card.power with st := .off } } : State).power.st = .off) ∧
    ((asked true).clocked = true ∧ (asked true).power.resetReq = some { system := true, source := 4, sender := some 1 } ∧
      (asked true).cmd? 1 = none ∧ (∀ f ∈ (asked true).link.unacked, f.q ≠ 1) ∧ goesOn (exec .linkSystemReset (asked true)) = true) ∧
    goesOn (exec .coreResetHalt card) = true ∧
    AtWork s 1 (cmd opHello .decoded (2 ^ 32 - 1)) opHello .decoded ∧ (s.orig 1).helloSeen = true ∧ (s.orig 1).epoch = 2 ^ 32 - 1 := by
  unfold AtWork; decide +kernel

/-! Shelf sleep, SLEEP and wake. -/

/-- The card with MODE 7 in force: open mode, shelf sleep at start-up, every ALERT cause; shelf sleep enabled. -/
def open7 : State := State.with (State.with card Reg.OPTION.IN_FORCE.MODE 7) Reg.SHELF.SLEEP_CFG.SLEEP_EN 1

/-- The same card with an escalation pending. -/
def pending7 : State := State.with open7 Reg.ESCALATE.STATE.PENDING 1

/-- A card whose proposal's window is open. -/
def proposed (s : State) : State := { s with shelf := { s.shelf with proposal := some 1 } }

theorem witness_propose :
    let c := cmd opPropose .decoded
    let v := cmd opPropose .waiting
    let w := State.holding (proposed open7) v
    let alone (s : State) := ((State.holding s c).earlier 1).any (fun d => d.opcode == opPropose && !d.done?) = false
    let two := { open7 with cmds := [{ c with q := 0, tag := 3 }, c] }
    (AtWork (State.holding (proposed open7) c) 1 c opPropose .decoded ∧ (proposed open7).shelf.proposal ≠ none) ∧
    (AtWork two 1 c opPropose .decoded ∧ (two.earlier 1).any (fun d => d.opcode == opPropose && !d.done?) = true) ∧
    (AtWork (State.holding card c) 1 c opPropose .decoded ∧ card.shelf.proposal = none ∧ alone card ∧
      card.rd Reg.SHELF.SLEEP_CFG.SLEEP_EN = 0) ∧
    (AtWork (State.holding pending7 c) 1 c opPropose .decoded ∧ pending7.shelf.proposal = none ∧ alone pending7 ∧
      pending7.rd Reg.SHELF.SLEEP_CFG.SLEEP_EN ≠ 0 ∧ pending7.faultsOnly = false ∧ pending7.faultPending = true) ∧
    (AtWork (State.holding open7 c) 1 c opPropose .decoded ∧ alone open7 ∧ open7.rd Reg.SHELF.SLEEP_CFG.SLEEP_EN ≠ 0 ∧
      open7.faultsOnly = false ∧ open7.faultPending = false) ∧
    (w.clocked = true ∧ w.shelf.proposal = some 1 ∧ w.cmd? 1 = some v ∧ v.done? = false ∧ w.faultPending = false ∧ w.vetoCauses 1 = 0) ∧
    ((State.behind (proposed open7) v).cmd? 1 = some v ∧ (State.behind (proposed open7) v).vetoCauses 1 ≠ 0) ∧
    ((State.holding (proposed pending7) v).cmd? 1 = some v ∧ (proposed pending7).faultPending = true) := by
  unfold AtWork; decide +kernel

/-- A card that commits a round. -/
def committing (s : State) : State := { s with shelf := { s.shelf with committing := some 1 } }

theorem witness_commit :
    let c := cmd opCommit .decoded
    let w := cmd opCommit .waiting
    (AtWork (State.holding (committing open7) c) 1 c opCommit .decoded ∧ (committing open7).shelf.committing = some 1) ∧
    (AtWork (State.holding open7 c) 1 c opCommit .decoded ∧ open7.shelf.committing ≠ some 1) ∧
    (AtWork (State.holding (committing open7) w) 1 w opCommit .waiting ∧
      ((State.holding (committing open7) w).earlier 1).all (fun d => d.done?) = true ∧ (committing open7).faultPending = false) ∧
    (AtWork (State.holding (committing pending7) w) 1 w opCommit .waiting ∧ (committing pending7).faultPending = true) ∧
    (AtWork (State.behind (committing open7) w) 1 w opCommit .waiting ∧
      ((State.behind (committing open7) w).earlier 1).all (fun d => d.done?) = false) := by
  unfold AtWork; decide +kernel

theorem witness_sleepEntry :
    let s : State := { card with shelf := { card.shelf with committed := true }, power := { card.power with vholdOk := true } }
    s.clocked = true ∧ s.commitAcked = true ∧ s.diesIdle = true ∧ s.flash.jobs = [] ∧ s.power.vholdOk = true ∧ s.power.vbak = true := by
  decide +kernel

/-- A card in SLEEP. -/
def sleeping : State := { card with power := { card.power with st := .sleep } }

theorem witness_wake :
    let late := card.latchWake 1
    (wf card ∧ card.power.vbak = true ∧ 4 < 5 ∧ card.cell 24 % 32 = 0) ∧
    (late.cell 24 % 32 ≠ 0 ∧ bitAt (late.cell 24) 1 = true) ∧
    sleeping.power.st = .sleep ∧ sleeping.power.vbak = true ∧ card.power.st ≠ .sleep ∧ card.clocked = true := by
  unfold wf; decide +kernel

/-! Resets. -/

theorem witness_resets :
    let c := cmd opReset .decoded 1
    AtWork (State.holding card c) 1 c opReset .decoded ∧ card.openMode = false ∧ AtWork (State.holding open7 c) 1 c opReset .decoded ∧
    open7.openMode = true ∧ open7.power.resetReq = none ∧ (asked true).power.resetReq ≠ none ∧
    card.clocked = true ∧ card.carryPending = false ∧ (asked true).clocked = true ∧
    (asked true).power.resetReq = some { system := true, source := 4, sender := some 1 } ∧
    (asked true).cmd? 1 = none ∧ (∀ f ∈ (asked true).link.unacked, f.q ≠ 1) ∧ State.reset.clocked = false := by
  unfold AtWork; decide +kernel

theorem witness_coreReset :
    let halted : State := { card with power := { card.power with startup := .halted } }
    (asked false).clocked = true ∧ (asked false).power.resetReq = some { system := false, source := 4, sender := some 1 } ∧
    (asked false).drained = true ∧ (State.holding (asked false) (cmd opNop .queued)).drained = false ∧
    (halted.clocked = true ∧ halted.power.startup = .halted ∧ halted.power.resetReq = none ∧
      (halted.bootSelect false []).power.resetReq = none ∧ (halted.bootSelect false []).minimal = true ∧
      (halted.bootSelect false []).power.recovered = true) := by decide +kernel

/-- A main image of one payload byte, unit by unit, with its payload digest as given. -/
@[irreducible] def mainUnits (payload : Nat) : Store :=
  [(0, 1 + 0x4C + 2 ^ 8 * 0x4D + 2 ^ 16 * 0x44 + 2 ^ 24 * 0x31 + 2 ^ 40 * 1 + 2 ^ 48 * 1 + 2 ^ 64 * 448 + 2 ^ 96 * 1 + 2 ^ 160 * 1 +
      2 ^ 224 * 1 + 2 ^ 240 * 1 + 2 ^ 256 * 1 + 2 ^ 272 * 1 + 2 ^ 288 * 1 + 2 ^ 384 * (payload % 2 ^ 128)),
   (1, 1 + payload / 2 ^ 128), (2, 1), (3, 1), (4, 1 + 0x55), (5, 1), (6, 1)]

/-- A card with main image `i` of settings format 1, the digest of its public key in key slot 3, the settings copy and the boot record given. -/
def bootable (i : Nat) (settings : Option Settings) (boot : Option BootRecord) : State :=
  { card with
    power := { card.power with startup := .halted, recovered := false, vholdOk := false }
    crust := [(23, 9)]
    fw := { Firmware.reset with
      slots := Firmware.reset.slots.set i ⟨.staged, mainUnits (ofBytesLE (sha256 [0x55])), false⟩
      copyA := settings, boot := boot }
    fuses := { Fuses.reset with keysSensed := [⟨false, 0, false⟩, ⟨false, 0, false⟩, ⟨false, 0, false⟩,
                                               ⟨true, ofBytesLE (sha256 (List.replicate 97 0)), false⟩] } }

/-- An image whose other checks pass passes them all where its signature verifies, a verdict that the model takes from outside. -/
theorem checked (s : State) (i : Nat) (h : (s.fwSlot i).signed = true)
    (a : ((s.fwSlot i).complete i && (s.fwSlot i).headerGood i && !(s.keyFor (s.fwSlot i)).isNone &&
      (ofBytesLE (sha256 ((s.fwSlot i).bytes 256 (s.fwSlot i).payloadLen)) == (s.fwSlot i).payloadDigest) &&
      ((s.fwSlot i).bytes 20 8).any (fun b => b == s.fuses.step && b != 0)) = true) : s.checkSlot i true = 0 := by
  simp only [Bool.and_eq_true, Bool.not_eq_true', beq_iff_eq] at a
  obtain ⟨⟨⟨⟨a, b⟩, c⟩, d⟩, e⟩ := a
  unfold State.checkSlot
  simp [a, b, c, d, e, h]

/-- A candidate that is not rejected and passes its checks starts. -/
theorem candidate_starts (s : State) (n i : Nat) (p c : Bool) (l : List (Nat × Bool × Bool)) (f : s.flagged i = false)
    (k : s.checkSlot i true = 0) : State.tryCandidates [] n ((i, p, c) :: l) s =
      (if bit01 (bitAt (s.cell 23) 1) = i then s else s.setCell 23 0).startMain i p (decide (0 < n)) c [] := by
  simp [State.tryCandidates, f, k]

/-- A candidate that is not rejected and fails a check is rejected, and the next one is tried. -/
theorem candidate_fails (s : State) (n i r : Nat) (p c : Bool) (l : List (Nat × Bool × Bool)) (f : s.flagged i = false)
    (k : s.checkSlot i true = r) (z : r ≠ 0) : State.tryCandidates [] n ((i, p, c) :: l) s =
      State.tryCandidates [] (n + 1) l (s.rejectSlot i r) := by
  simp [State.tryCandidates, f, k, z]

/-- Settings of format 2, which an image of format 1 cannot use. -/
def newer : Settings := { fmt := 2, seq := 1, cfgs := [] }

/-- Does the image of `bootable`, in whatever state its slot is, have a signature that verifies? -/
def imageSigned : Bool := FwSlot.signed ⟨.staged, mainUnits (ofBytesLE (sha256 [0x55])), false⟩

theorem signed_units (a b : FwSlot) (h : a.units = b.units) : a.signed = b.signed := by
  unfold FwSlot.signed FwSlot.imageLen FwSlot.le FwSlot.bytes FwSlot.byte
  rw [h]

/-- A core restart of a card without stored settings, under an image whose signature verifies, waits for the hold-up charge. -/
theorem witness_imageStarts (h : imageSigned = true) :
    let s := bootable 0 none none
    let b := s.bootSelect false []
    s.clocked = true ∧ s.power.startup = .halted ∧ s.power.resetReq = none ∧
    b.power.resetReq = none ∧ b.power.recovered = false ∧ b.minimal = false ∧ b.power.vholdOk = false := by
  have k : (bootable 0 none none).checkSlot 0 true = 0 :=
    checked _ _ ((signed_units _ _ (by decide +kernel)).trans h) (by decide +kernel)
  have c : (bootable 0 none none).candidates false = [(0, true, true)] := by decide +kernel
  refine ⟨rfl, rfl, rfl, ?_⟩
  show (fun b : State => b.power.resetReq = none ∧ b.power.recovered = false ∧ b.minimal = false ∧ b.power.vholdOk = false)
    (State.tryCandidates [] 0 ((bootable 0 none none).candidates false) (bootable 0 none none))
  rw [c, candidate_starts _ _ _ _ _ _ (by decide +kernel) k]
  decide +kernel

/-- The same restart on a card with newer settings asks for a core reset. -/
theorem witness_imageRejectsItself (h : imageSigned = true) :
    ((bootable 0 (some newer) none).bootSelect false []).power.resetReq ≠ none := by
  have k : (bootable 0 (some newer) none).checkSlot 0 true = 0 :=
    checked _ _ ((signed_units _ _ (by decide +kernel)).trans h) (by decide +kernel)
  have c : (bootable 0 (some newer) none).candidates false = [(0, true, true)] := by decide +kernel
  show (State.tryCandidates [] 0 ((bootable 0 (some newer) none).candidates false) (bootable 0 (some newer) none)).power.resetReq ≠ none
  rw [c, candidate_starts _ _ _ _ _ _ (by decide +kernel) k]
  decide +kernel

/-- A start-up at which nothing of the flash fails. -/
def quiet : RecoveryIn :=
  { dies := [], badPages := [], noRecord := [], lostMaps := [], temp := 50, wearA := true, wearB := true, unreadable := [], noResetLun := [],
    factoryBad := [] }

/-- A card at start-up whose boot record names main slot `m`, and slot `p` before it. -/
def cold (settings : Option Settings) (m : Nat) (p : Option Nat) : State :=
  let s := bootable 0 settings (some { seq := 1, main := m, mc := 2, prev := p, copyB := false })
  { s with power := { s.power with startup := .loaded } }

/-- What such a card finds as it chooses what starts. -/
def coldFound (settings : Option Settings) (m : Nat) (p : Option Nat) : State :=
  ((({ (cold settings m p).identify quiet with fw := { (cold settings m p).fw with shadow := none } }.coldSlots).setCell 20 0).setCell 23 0)

/-- A recovery under a confirmed image with its settings waits for the hold-up charge; one that falls back to an image which cannot use
the settings asks for a core reset; without an image the card starts in minimal mode. -/
theorem witness_recovery (h : imageSigned = true) :
    let older : Settings := { newer with fmt := 1 }
    let b (t : Settings) (m : Nat) (p : Option Nat) := ((cold (some t) m p).identify quiet).bootSelect true []
    ((cold none 1 none).power.st = .active ∧ (cold none 1 none).power.startup = .loaded ∧ (cold none 1 none).power.resetReq = none ∧
      (((cold none 1 none).identify quiet).bootSelect true []).power.resetReq = none ∧
      (((cold none 1 none).identify quiet).bootSelect true []).minimal = true) ∧
    ((b older 0 none).power.resetReq = none ∧ (b older 0 none).minimal = false ∧ (b older 0 none).power.vholdOk = false) ∧
    (b newer 1 (some 0)).power.resetReq ≠ none := by
  refine ⟨by decide +kernel, ?_, ?_⟩
  · have k : (coldFound (some { newer with fmt := 1 }) 0 none).checkSlot 0 true = 0 :=
      checked _ _ ((signed_units _ _ (by decide +kernel)).trans h) (by decide +kernel)
    have c : (coldFound (some { newer with fmt := 1 }) 0 none).candidates true = [(0, false, false)] := by decide +kernel
    show (fun b : State => b.power.resetReq = none ∧ b.minimal = false ∧ b.power.vholdOk = false)
      (State.tryCandidates [] 0 ((coldFound (some { newer with fmt := 1 }) 0 none).candidates true) (coldFound (some { newer with fmt := 1 }) 0 none))
    rw [c, candidate_starts _ _ _ _ _ _ (by decide +kernel) k]
    decide +kernel
  · have k : ((coldFound (some newer) 1 (some 0)).rejectSlot 1 1).checkSlot 0 true = 0 :=
      checked _ _ ((signed_units _ _ (by decide +kernel)).trans h) (by decide +kernel)
    have c : (coldFound (some newer) 1 (some 0)).candidates true = [(1, false, false), (0, true, false)] := by decide +kernel
    show (State.tryCandidates [] 0 ((coldFound (some newer) 1 (some 0)).candidates true) (coldFound (some newer) 1 (some 0))).power.resetReq ≠ none
    rw [c, candidate_fails _ _ _ 1 _ _ _ (by decide +kernel) (by decide +kernel) (by decide),
      candidate_starts _ _ _ _ _ _ (by decide +kernel) k]
    decide +kernel

theorem witness_startUp :
    ({ card with power := { card.power with st := .off } } : State).power.st = .off ∧
    State.reset.power.st = .active ∧ State.reset.power.startup = .held ∧
    ({ card with power := { card.power with startup := .loaded } } : State).power.resetReq = none ∧
    card.clocked = true := by decide +kernel

theorem witness_blocks :
    let ch : State := { card with flash := { Flash.reset with dies := [newDie 0] } }
    let reset (s : State) := State.with s (resetActive 0x10 0) 1
    let works := reset { ch with flash := { ch.flash with dies := [{ newDie 0 with holder := some (.step (req .read .other 64)) }] } }
    card.clocked = true ∧ softResets 0x02 = true ∧ card.chanAbsent 0x02 = false ∧ card.rd (resetActive 0x02 0) = 0 ∧ softResets 0x20 = true ∧
    softResets 0x06 = false ∧ softResets 0x28 = false ∧
    ({ card with fuses := { Fuses.reset with part := 0x9104 } } : State).chanAbsent 0x15 = true ∧
    (State.with card (resetActive 0x08 0) 1).rd (resetActive 0x08 0) = 1 ∧ (State.with card (isolateBit 0x08 0) 1).rd (isolateBit 0x08 0) = 1 ∧
    ((reset ch).rd (resetActive 0x10 0) = 1 ∧ (reset ch).channelIdle 0 = true ∧ works.channelIdle 0 = false) ∧
    pageClass 0x08 = .engine ∧ card.chanAbsent 0x08 = false ∧ pageClass 0x20 = .engine ∧ pageClass 0x21 ≠ .engine ∧ pageClass 0 ≠ .engine := by
  decide +kernel

/-! Removal, supplies, temperature. -/

/-- A card being removed. -/
def removing : State :=
  { card with power := { card.power with st := .removing, removal := some { detN := true, brownOut := false, channels := 0, writes := false,
                                                                             programs := false } } }

theorem witness_removal :
    card.power.st = .active ∧ ((true && card.power.armed) || (false && card.power.brownArmed)) = true ∧ card.power.brownArmed = true ∧
    ((false && card.power.armed) || (false && card.power.brownArmed)) = false ∧ card.power.vbak = true ∧
    wf removing ∧ removing.power.st = .removing ∧ removing.power.removal ≠ none ∧ removing.power.vbak = true ∧ bitAt (removing.cell 14) 15 = false ∧
    ({ card with power := { card.power with st := .removed } } : State).power.st = .removed := by unfold wf; decide +kernel

theorem witness_supplies :
    card.power.vholdOk = false ∧ card.power.st = .active ∧ card.power.st ≠ .off ∧ sleeping.power.st ≠ .off ∧
    ({ sleeping with power := { sleeping.power with vbak := false } } : State).power.vbak = false ∧
    card.clocked = true ∧ card.power.vbak = true := by decide +kernel

theorem witness_temperature : card.clocked = true ∧ signed10 1023 = -1 ∧ signed10 512 = -512 ∧ signed10 511 = 511 := by decide +kernel


/-! Slices. -/

/-- The card with the last Slice ACTIVE, and 1,000 usable sectors. -/
def active63 : State := State.withSlice { card with flash := { Flash.reset with usable := 1000 } } 63 (slice)

/-- A card whose hold-up charge is good. -/
def charged (s : State) : State := { s with power := { s.power with vholdOk := true } }

/-- The card in probation. -/
def inProbation (s : State) : State :=
  { s with fw := { s.fw with
      run := some { main := 0, mc := none, probation := true, safeIf := false, fallback := false, key := 0 }
      shadow := some (0, { fmt := 1, seq := 1, cfgs := [] }) } }

theorem witness_create :
    let c (cap : Nat) := cmd opCreate .decoded (63 + 2 ^ 64 * cap)
    let f := { card with flash := { Flash.reset with usable := 1000 } }
    let g := charged f
    (AtWork (State.holding (inProbation card) (c 1)) 1 (c 1) opCreate .decoded ∧ wf (State.holding (inProbation card) (c 1)) ∧
      (c 1).field 0 8 = 63 ∧ (inProbation card).probation = true) ∧
    (wf (State.holding active63 (c 1)) ∧ (active63.slice 63).st ≠ .free) ∧
    (f.probation = false ∧ (f.slice 63).st = .free ∧ f.flash.usable - f.allocated < (c 1001).field 8 40) ∧
    (AtWork (State.holding f (c 1000)) 1 (c 1000) opCreate .decoded ∧ wf (State.holding f (c 1000)) ∧
      (c 1000).field 8 40 ≤ f.flash.usable - f.allocated ∧ f.power.vholdOk = false) ∧
    (AtWork (State.holding g (c 1000)) 1 (c 1000) opCreate .decoded ∧ g.probation = false ∧ (g.slice 63).st = .free ∧
      (c 1000).field 8 40 ≤ g.flash.usable - g.allocated ∧ g.power.vholdOk = true) := by
  unfold AtWork wf; decide +kernel

theorem witness_destroy :
    let c := cmd opDestroy .decoded 63
    let w := cmd opDestroy .waiting 63
    let locked := State.withSlice card 63 (slice none (some { orig := 2, epoch := 0, lease := none }))
    let going := State.withSlice card 63 { (slice) with st := .destroying }
    (AtWork (State.holding card c) 1 c opDestroy .decoded ∧ wf (State.holding card c) ∧ c.field 0 8 = 63 ∧
      (card.slice 63).st ≠ .active) ∧
    (wf locked ∧ (locked.slice 63).lockedAgainst 1 = true) ∧
    (AtWork (State.holding active63 c) 1 c opDestroy .decoded ∧ wf active63 ∧ active63.probation = false ∧
      (active63.slice 63).st = .active ∧ (active63.slice 63).lockedAgainst 1 = false) ∧
    (AtWork (State.holding going w) 1 w opDestroy .waiting ∧ w.idMode = false ∧ wf going ∧ w.field 0 8 = 63 ∧ going.power.vholdOk = false) ∧
    (AtWork (State.holding (charged going) w) 1 w opDestroy .waiting ∧ wf (charged going) ∧ (charged going).power.vholdOk = true ∧
      ((charged going).slice 63).st = .destroying ∧ (charged going).sliceBusy 63 = false) := by
  unfold AtWork wf; decide +kernel

/-- An Originator 1 with an outstanding nonce for Slice `j`. -/
def challenged (s : State) (j : Nat) : State := { s with origs := [{ id := 1, epoch := 0, helloSeen := true, nonce := some (j, 0) }] }

/-- A bind command of STEP 1 for Slice 63 with a MAC. -/
def answer (mac : Nat) : Cmd := cmd opBind .decoded (63 + 256 + 2 ^ 256 * mac)

/-- The last Slice ACTIVE under a binding key. -/
def keyed : State := State.withSlice card 63 { (slice) with cfg := { (slice).cfg with bindKey := 77 } }

theorem witness_bind :
    let c := cmd opBind .decoded 63
    let taken := State.withSlice card 63 (slice (some 2))
    (AtWork (State.holding taken c) 1 c opBind .decoded ∧ c.field 1 8 = 0 ∧ taken.bindConflict 1 63 = true) ∧
    (AtWork (State.holding active63 c) 1 c opBind .decoded ∧ active63.bindConflict 1 63 = false) ∧
    (AtWork (State.holding active63 (answer 0)) 1 (answer 0) opBind .decoded ∧ (answer 0).field 1 8 = 1 ∧ (answer 0).field 0 8 = 63 ∧
      wf active63 ∧ (active63.orig 1).nonce = none) ∧
    ((challenged active63 62).orig 1).nonce = some (62, 0) ∧
    (((challenged taken 63).orig 1).nonce = some (63, 0) ∧ (challenged taken 63).bindConflict 1 63 = true) ∧
    (((challenged active63 63).orig 1).nonce = some (63, 0) ∧ (challenged active63 63).bindConflict 1 63 = false ∧
      ((challenged active63 63).slice 63).cfg.bindKey = 0) ∧
    ((challenged keyed 63).bindConflict 1 63 = false ∧ ((challenged keyed 63).slice 63).cfg.bindKey ≠ 0) ∧
    (15 ≤ (State.with keyed (Reg.SLICE.AUTH.FAILS.inBank 63) 15).rd (Reg.SLICE.AUTH.FAILS.inBank 63) ∧
      (State.with keyed (Reg.SLICE.AUTH.FAILS.inBank 63) 15).rd (Reg.SLICE.AUTH.BLOCKED.inBank 63) = 0) := by
  unfold AtWork wf; decide +kernel

/-- Of two MACs at most one answers a nonce, whatever the nonce. -/
theorem witness_badMac :
    ∃ m, (challenged keyed 63).macGood (answer m) 0 63 = false ∧
      AtWork (State.holding (challenged keyed 63) (answer m)) 1 (answer m) opBind .decoded := by
  by_cases h : (challenged keyed 63).macGood (answer 0) 0 63 = false
  · exact ⟨0, h, at_work _ _ _ _ _ rfl⟩
  · refine ⟨1, ?_, at_work _ _ _ _ _ rfl⟩
    have k : (((challenged keyed 63).slice 63).cfg.bindKey == 0) = false := by decide +kernel
    have a : bytesLE 32 ((answer 0).field 32 256) ≠ bytesLE 32 ((answer 1).field 32 256) := by decide +kernel
    have e : (answer 1).orig = (answer 0).orig := rfl
    unfold State.macGood at h ⊢
    simp only [k, Bool.false_or, Bool.not_eq_false, beq_iff_eq, e] at h ⊢
    rw [h]
    simpa using a

theorem witness_unbind :
    let c := cmd opUnbind .decoded 63
    let w := cmd opUnbind .waiting 63
    let bound := State.withSlice card 63 (slice (some 2))
    (AtWork (State.holding active63 c) 1 c opUnbind .decoded ∧ (active63.slice 63).owner = none) ∧
    ((State.withSlice card 63 (slice (some 2) (some { orig := 2, epoch := 0, lease := none }))).slice 63).lockedAgainst 1 = true ∧
    (AtWork (State.holding bound c) 1 c opUnbind .decoded ∧ (bound.slice 63).owner ≠ none ∧ (bound.slice 63).lockedAgainst 1 = false) ∧
    (AtWork (State.holding bound w) 1 w opUnbind .waiting ∧ wf bound ∧ w.field 0 8 = 63 ∧
      ((State.holding bound w).earlier 1).all (fun d => d.ring != some 63 || d.done?) = true) ∧
    (AtWork (State.behind bound w (some 63)) 1 w opUnbind .waiting ∧
      ((State.behind bound w (some 63)).earlier 1).all (fun d => d.ring != some 63 || d.done?) = false) := by
  unfold AtWork wf; decide +kernel

/-- The last Slice locked by an Originator. -/
def lockedBy (o : Nat) : State := State.withSlice card 63 (slice none (some { orig := o, epoch := 3, lease := some 1 }))

theorem witness_locks :
    let l := cmd opLock .decoded 63
    let u := cmd opUnlock .decoded 63
    let admin := State.with (lockedBy 2) Reg.OPTION.IN_FORCE.ADMIN_ORIG 1
    (AtWork (State.holding (lockedBy 2) l) 1 l opLock .decoded ∧ wf (lockedBy 2) ∧ l.field 0 8 = 63 ∧
      ((lockedBy 2).slice 63).lock = some { orig := 2, epoch := 3, lease := some 1 }) ∧
    ((lockedBy 1).slice 63).lock = some { orig := 1, epoch := 3, lease := some 1 } ∧ (active63.slice 63).lock = none ∧
    (AtWork (State.holding (lockedBy 1) u) 1 u opUnlock .decoded ∧ wf (lockedBy 1)) ∧
    (admin.isAdmin 1 = true ∧ (admin.slice 63).lock = some { orig := 2, epoch := 3, lease := some 1 }) ∧
    (lockedBy 2).isAdmin 1 = false ∧ (lockedBy 2).clocked = true := by
  unfold AtWork wf; decide +kernel

theorem witness_sliceResets :
    let c := cmd opSliceReset .decoded 63
    let going := State.withSlice card 63 { (slice) with st := .resetting, mover := some 1 }
    let busy := { going with flash := { Flash.reset with dies := [{ newDie 0 with orphans :=
      [{ who := 63, q := 0, cls := .urgent, weight := 0, op := .read, block := 0, page := 0, work := .other, waited := 0, progress := 0, held := 0,
         inArray := true }] }] } }
    (AtWork (State.holding card c) 1 c opSliceReset .decoded ∧ wf card ∧ c.field 0 8 = 63 ∧ (card.slice 63).st ≠ .active) ∧
    (AtWork (State.holding active63 c) 1 c opSliceReset .decoded ∧ wf active63 ∧ (active63.slice 63).st = .active) ∧
    (going.clocked = true ∧ wf going ∧ (going.slice 63).st = .resetting ∧ going.sliceBusy 63 = false ∧
      (going.slice 63).mover = some 1 ∧ (State.holding going (cmd opSliceReset .waiting 63)).cmd? 1 ≠ none) ∧
    busy.sliceBusy 63 = true := by
  unfold AtWork wf; decide +kernel

theorem witness_configuration :
    let s := charged active63
    (s.clocked = true ∧ wf s ∧ (s.slice 63).st ≠ .free ∧ s.power.vholdOk = true) ∧ (card.slice 63).st = .free ∧
    (s.capacityBad 63 1 (((s.cmd? 1).map Cmd.orig).getD s.admin) = false ∧ 1 < (s.slice 63).cfg.cap) ∧
    (s.capacityBad 63 1000 (((s.cmd? 1).map Cmd.orig).getD s.admin) = false ∧ (s.slice 63).cfg.cap ≤ 1000) ∧
    s.pinBad 63 = false ∧ (2 < 3 ∧ 255 < 256) := by unfold wf; decide +kernel

/-! The queue and the link. -/

theorem witness_decoder :
    let c := cmd opNop .queued 0 (some 64)
    let s := State.holding card c
    let d (c : Cmd) : Cmd := { c with phase := .decoded, popped := true }
    let bad := cmd opReset .queued 0 (some 64)
    let b := State.holding card bad
    (s.up = true ∧ s.popped = some c ∧ s.cmd? c.q = some c ∧ (s.setCmd 1 (fun _ => d c)).decodeChecks (d c) = stOk) ∧
    (b.up = true ∧ b.popped = some bad ∧ b.cmd? bad.q = some bad ∧ (b.setCmd 1 (fun _ => d bad)).decodeChecks (d bad) ≠ stOk) ∧
    (State.reset.up = false ∧ card.popped = none) ∧
    (gateD opRead = true ∧ card.declared = false) ∧
    (isRegOp opHello = false ∧ gateD opAbort = false ∧ idServed opAbort = false ∧ isRegOp opRead = false ∧
      (State.with card Reg.CLOCK.DECL_FAST.DECL_KHZ 1).declared = true) := by decide +kernel

theorem witness_staging :
    let c := cmd opWrite .decoded (2 ^ 64) (some 0)
    let s := { State.holding fastCard c with descs := [desc .waitStage 0 0] }
    let full := { s with descs := [desc .waitStage 0 0, { desc .data 0 0 with q := 0, reserved := 1024 }] }
    let a : Cmd := { c with abortedBy := [2] }
    let ending := { s with cmds := [a] }
    (s.clocked = true ∧ s.nextStage = some c ∧ s.staged + c.stageNeed ≤ 1024 ∧ c.abortedBy = []) ∧
    (full.nextStage = some c ∧ 1024 < full.staged + c.stageNeed) ∧
    (ending.nextStage = some a ∧ ending.staged + a.stageNeed ≤ 1024 ∧ a.abortedBy ≠ [] ∧ ending.cmd? a.q = some a) := by decide +kernel

theorem witness_services :
    let f := { cmd opFetch .decoded 1 with rings := [0] }
    let t (scope : Nat) := cmd opSelftest .decoded scope
    let owner := { State.withSlice fastCard 0 (slice (some 1)) with attn := [{ entry .event with ring := 0 }] }
    let two := { fastCard with cmds := [{ t 2 with q := 0 }, t 2] }
    let sampled (s : State) (c : Cmd) := (if bitAt (scopeBits (c.field 0 8)) 3 then s.sampleDies else s).cmd? 1 = some c
    (AtWork (State.holding fastCard f) 1 f opFetch .decoded ∧ fastCard.oldest f.rings (f.field 0 8) = []) ∧
    (AtWork (State.holding owner f) 1 f opFetch .decoded ∧ owner.oldest f.rings (f.field 0 8) ≠ []) ∧
    (AtWork two 1 (t 2) opSelftest .decoded ∧ two.cmds.any (fun d => d.opcode == opSelftest && d.working && d.q != 1) = true) ∧
    (AtWork (State.holding fastCard (t 5)) 1 (t 5) opSelftest .decoded ∧ (t 5).field 0 8 = 5 ∧ fastCard.ftm = false ∧
      (State.holding fastCard (t 5)).cmds.any (fun d => d.opcode == opSelftest && d.working && d.q != 1) = false) ∧
    (AtWork (State.holding fastCard (t 2)) 1 (t 2) opSelftest .decoded ∧ (t 2).field 0 8 ≠ 1 ∧ (t 2).field 0 8 ≠ 5 ∧
      sampled (State.holding fastCard (t 2)) (t 2) ∧ sampled (State.holding fastCard (t 4)) (t 4)) := by
  unfold AtWork; decide +kernel

theorem witness_abort :
    let c (target : Nat) := cmd opAbort .decoded (7 + 2 ^ 16 * target)
    let mine := { cmd opRest .waiting with q := 0 }
    let young := { cmd opRead .queued 0 (some 0) with q := 0 }
    let s (a : Nat) (d : Cmd) := ({ fastCard with cmds := [d, c a] } : State)
    let going (c : Cmd) : Cmd := { c with abortedBy := [2] }
    let alone (c : Cmd) := fastCard.clocked = true ∧ (State.holding fastCard c).cmd? 1 = some c ∧ c.abortedBy ≠ [] ∧
      (State.holding fastCard c).abortable c = true
    (AtWork (State.holding fastCard (c 1)) 1 (c 1) opAbort .decoded ∧ (State.holding fastCard (c 1)).abortTarget (c 1) = none) ∧
    (AtWork (s 2 { mine with orig := 2 }) 1 (c 2) opAbort .decoded ∧
      (s 2 { mine with orig := 2 }).abortTarget (c 2) = some { mine with orig := 2 } ∧ fastCard.isAdmin 1 = false) ∧
    (AtWork (s 1 mine) 1 (c 1) opAbort .decoded ∧ (s 1 mine).abortTarget (c 1) = some mine ∧ mine.orig = (c 1).orig ∧ mine.phase ≠ .queued) ∧
    (AtWork (s 1 young) 1 (c 1) opAbort .decoded ∧ (s 1 young).abortTarget (c 1) = some young ∧ young.phase = .queued ∧
      (s 1 young).cmd? young.q = some young ∧ young.q ≠ 1) ∧
    alone (going (cmd opRest .waiting)) ∧ alone (going (cmd opDeclare .waiting)) ∧
    (alone { going (cmd opTrim .decoded (2 ^ 64 * 5000) (some 0)) with done := 4096 } ∧ (cmd opTrim .decoded).phase ≠ .recording) ∧
    fastCard.abortable (cmd opNop .settled) = false := by
  unfold AtWork; decide +kernel

/-- A frame header without an acknowledgement. -/
def hdr (lseq : Nat) : LinkHdr := { lseq := lseq, ackSeq := 0, ackv := false, retx := false, nak := false }

/-- A frame from the host, unit by unit: type, Originator, LSEQ and UNITS. -/
def down (t : FrameType) (orig lseq units : Nat) : List Nat :=
  FrameHdr.frame { ftype := t, bcast := false, retx := false, ackv := false, nak := false, addr := 0, orig := orig, lseq := lseq, ackSeq := 0,
                   units := units, tag := 7, opcode := opNop, status := 0, arg := 0 } 0

theorem goodCmd : goodFrame (down .cmd 1 0 1) = some .cmd := by decide +kernel
theorem goodData : goodFrame (down .dataDn 1 0 1) = some .dataDn := by decide +kernel
theorem goodLinkctl : goodFrame (down .linkctl 0xFF 0 0) = some .linkctl := by decide +kernel

/-- What a card that owes a COMPLETION looks like. -/
def owing : State := { fastCard with link := { fastCard.link with owed := [1] } }

theorem witness_frames :
    let back : State := { fastCard with link := { fastCard.link with phase := .returning } }
    let late := goodFrame (down .dataDn 1 1 1)
    fastCard.hears true = true ∧ (fastCard.inStep.receive (linkHdr (down .cmd 1 0 1))).2 = true ∧
    (fastCard.inStep.receive (linkHdr (down .cmd 1 1 1))).2 = false ∧ (fastCard.inStep.receive (linkHdr (down .dataDn 1 0 1))).2 = true ∧
    goodFrame (down .dataReq 1 0 0) = none ∧ goodFrame [] = none ∧
    (late = some .dataDn ∧ FrameType.dataDn ≠ .linkctl ∧ (linkHdr (down .dataDn 1 1 1)).lseq ≠ fastCard.link.rxExpected ∧
      fastCard.link.rxExpected < 256 ∧ (linkHdr (down .dataDn 1 1 1)).lseq < 256) ∧
    (fastCard.link.phase = .up ∧ fastCard.link.owed = [] ∧ fastCard.link.held = []) ∧ (owing.link.phase = .up ∧ owing.link.owed ≠ []) ∧
    (back.clocked = true ∧ back.link.phase = .returning) ∧
    (card.hears true = false ∧ card.link.phase ≠ .returning) := by decide +kernel

theorem witness_receiver :
    (hdr 0).ackv = false ∧ fastCard.link.rxExpected < 256 ∧ (hdr 0).lseq = fastCard.link.rxExpected ∧
    (fastCard.link.rxExpected + 256 - (hdr 224).lseq) % 256 = 32 ∧ (fastCard.link.rxExpected + 256 - (hdr 223).lseq) % 256 = 33 ∧
    (hdr 255).lseq < 256 := by decide +kernel

/-- An ID-mode command frame of a NOP without a body. -/
def idDown (orig tag : Nat) : List Nat := sealed16 [opNop, 0, 0, 0, orig, tag, 0, 0]

theorem witness_reserved :
    let b := down .cmd 0xFF 0 1
    let r := (fastCard.inStep.receive (linkHdr b)).1
    (fastCard.hears true = true ∧ goodFrame b = some .cmd ∧ (cmdOf b).orig = 0xFF ∧ (fastCard.inStep.receive (linkHdr b)).2 = true ∧
      r.ready = true ∧ r.link.owed = [] ∧ r.link.held = []) ∧
    (card.clocked = true ∧ card.link.fast = false ∧ idCrcGood (idDown 0xFF 7) = true ∧ (idCmdOf (idDown 0xFF 7)).orig = 0xFF ∧
      card.cmds = [] ∧ card.ready = true) := by decide +kernel

theorem witness_stamped :
    let s := State.with { fastCard with link := { fastCard.link with cmdLimit := 1024 } } Reg.SHELF.ADDR.ASSIGNED 1
    let f : CmdIn := { bcast := false, addr := 0, orig := 254, tag := 65535, opcode := opNop, fields := 0 }
    f.bcast = false ∧ s.mine f = true ∧ f.orig ≠ 0xFF ∧ s.ready = true ∧ s.sleepBound = false ∧ s.known f.orig f.tag = false ∧
    (s.link.cmdLimit + 65536 - s.link.cmdCount) % 65536 = 1024 ∧ s.cmd? ((s.rd Reg.LINK.ORDER_SEQ.LAST + 1) % 2 ^ 32) = none := by
  decide +kernel

theorem witness_linkUpkeep :
    let f := upFrame fastCard (cmd opNop .settled) .completion 0 0 0
    let replayed (n : Nat) : State := { fastCard with link := { fastCard.link with unacked := [{ f with retries := n }] } }
    let training : State := { fastCard with link := { fastCard.link with phase := .training, aligned := true, trainedFrom := .lost } }
    (fastCard.hears true = true ∧ goodFrame (down .linkctl 0xFF 0 0) = some .linkctl) ∧
    (fastCard.clocked = true ∧ fastCard.link.phase = .up ∧ (replayed 0).link.unacked ≠ [] ∧
      (∀ f ∈ (replayed 0).link.unacked, f.retries + 1 ≤ (replayed 0).retryMax) ∧
      ∃ f ∈ (replayed 15).link.unacked, (replayed 15).retryMax < f.retries + 1) ∧
    ({ fastCard with link := { fastCard.link with ackDue := true } } : State).link.ackDue = true ∧
    (fastCard.link.fast = true ∧ fastCard.link.phase ≠ .returning ∧ 0 < fastCard.downLanes ∧ 0 < fastCard.link.lockRun.length) ∧
    (training.clocked = true ∧ training.link.phase = .training ∧ training.link.aligned = true ∧ training.link.trainedFrom ≠ .up) ∧
    fastCard.link.phase ≠ .training ∧ [tseBlock 1] ≠ (rangeFrom 0 fastCard.downLanes).map tseBlock := by decide +kernel

theorem witness_idMode :
    let back : State := { fastCard with link := { fastCard.link with phase := .returning } }
    let lost : State := { fastCard with link := { fastCard.link with phase := .lost } }
    let r : IdResponse := { opcode := opNop, status := stOk, unassigned := true, addr := 0, orig := 1, tag := 7, len := 0, body := 0 }
    let asked := { State.with card Reg.SHELF.ADDR.ASSIGNED 1 with link := { card.link with idResponse := some r } }
    let b := idDown 1 7
    (fastCard.clocked = true ∧ fastCard.link.fast = true ∧ fastCard.link.phase = .up) ∧ (lost.clocked = true ∧ lost.link.phase = .lost) ∧
    (back.clocked = true ∧ back.link.phase = .returning ∧ back.cmds = []) ∧
    (State.holding back (cmd opNop .queued)).cmds ≠ [] ∧
    (card.clocked = true ∧ card.link.fast = false ∧ idCrcGood [] = false ∧ (idCmdOf b).bcast = false ∧
      ({ asked with regs := (State.with asked Reg.SHELF.ADDR.CARD_ADDR 5).regs } : State).mine (idCmdOf b) = false ∧
      (State.holding card (cmd opNop .queued)).cmds ≠ [] ∧ asked.link.repeats (idCmdOf b).orig (idCmdOf b).tag (idCmdOf b).opcode = true) ∧
    (asked.link.idResponse = some r ∧ idCrcGood b = true ∧ asked.mine (idCmdOf b) = true ∧ asked.cmds = [] ∧ asked.ready = true ∧
      asked.sleepBound = false ∧ (idCmdOf b).orig ≠ 0xFF ∧ idLen b ≤ 192 ∧ r.orig = (idCmdOf b).orig ∧ r.tag = (idCmdOf b).tag ∧
      r.opcode = (idCmdOf b).opcode) ∧
    ((State.holding fastCard (cmd opRest .waiting)).cmd? 1 = some (cmd opRest .waiting) ∧ (cmd opRest .waiting).done? = false ∧
      fastCard.link.txQueue = []) := by decide +kernel

/-! Data commands and the dies. -/

/-- The option store content of a card whose channel 0 holds three dies of one small profile. -/
def optionStore : Store :=
  [(0, 83), (1, 81), (2, 79), (3, 49), (4, 1), (8, 1), (10, 9), (11, 7), (16, 49), (48, 7), (50, 1), (51, 15), (58, 1), (59, 3),
   (60, 6), (62, 80), (64, 2), (65, 8), (66, 50), (68, 30), (70, 132), (71, 3), (72, 44), (73, 1), (74, 160), (75, 15), (76, 20),
   (78, 100), (80, 4), (81, 162)] ++
  [(88, 160), (89, 134), (90, 1), (91, 40), (92, 184), (93, 11), (94, 48), (95, 117), (96, 1), (98, 100), (100, 100), (102, 100),
   (104, 10), (105, 10), (106, 10), (108, 166), (109, 232), (110, 20), (111, 112), (509, 119), (510, 234), (511, 216)]

/-- The card with those options in force and one die identified. -/
def oneDie (x : Die) : State :=
  { withDie x with
    opt := { State.reset.opt with inForce := optionStore }
    flash := { (withDie x).flash with
      chans := [{ id := 0, reconf := false, k := 1, sdr := false, khz := 0, countKhz := 0, fast := true, zqDone := true, configured := true,
                  bus := none, busWait := [], beat := 0 }] } }

/-- That card, its hold-up charge good, with the map and the commands of another. -/
def onOneDie (s : State) : State :=
  let o := oneDie { newDie 0 with nMap := 4, nData := 80 }
  { s with opt := o.opt, power := { s.power with vholdOk := true }
           flash := { s.flash with dies := o.flash.dies, chans := o.flash.chans } }

/-- The card with some map entries of Slice 0. -/
def mapped (l : List MapEntry) : State :=
  { fastCard with flash := { Flash.reset with map := { MapState.reset with
      entries := l, cache := [{ slice := 0, idx := 0, dirty := false, dirtyAt := 0 }] } } }

theorem witness_content :
    let s := mapped [{ slice := 0, lba := 5, seq := 1, loc := .torn }]
    let f := { s with flash := { s.flash with map := { s.flash.map with failed := [(0, 0)] } } }
    let old := { s with flash := { s.flash with map := { s.flash.map with snaps := [⟨1, 0, 5, none, 2⟩] } } }
    (s.pendingOver 1 0 5 = none ∧ s.snapOf 1 0 5 = none ∧ s.pageFailed 0 5 = false ∧
      s.entry 0 5 = some { slice := 0, lba := 5, seq := 1, loc := .torn }) ∧
    (s.pageFailed 0 1023 = false ∧ s.entry 0 1023 = none) ∧ (f.pageFailed 0 1023 = true ∧ f.pageFailed 0 1024 = false) ∧
    (old.pendingOver 1 0 5 = none ∧ old.snapOf 1 0 5 = some ⟨1, 0, 5, none, 2⟩ ∧ old.snapOf 1 63 5 = none) := by decide +kernel

/-- Page 4 of block 2 of die 0, passed under its parity, with LBA 5 of Slice 0 in its first slot. -/
def page4 : Page :=
  { die := 0, block := 2, page := 4, slots := [some { slice := 0, lba := 5, seq := 3, data := 9, key := 0 }, none], running := false,
    confirmed := true, passed := true, covered := true, stamp := 1 }

/-- The same card with that page. -/
def State.paged (s : State) : State := { s with flash := { s.flash with pages := [page4] } }

theorem witness_reads :
    let c (n : Nat) := cmd opRead .decoded (5 + 2 ^ 64 * n) (some 0)
    let s := mapped [{ slice := 0, lba := 5, seq := 1, loc := .torn }]
    let w (d : Desc) (n : Nat) := { State.holding s (c n) with descs := [d] }
    let ended : Desc := { desc .active 3 4 with found := [(4, .data 0), (3, .ends stUncorrectable)] }
    let blank := { State.holding (mapped []) (c 1) with descs := [desc .active 0 0] }
    let x : Sector := 9
    (AtWork (w (desc .active 0 0) 0) 1 (c 0) opRead .decoded ∧ (c 0).count = 0) ∧
    (AtWork (w (desc .active 256 256) 256) 1 (c 256) opRead .decoded ∧ (c 256).count ≠ 0 ∧ (c 256).ring = some 0 ∧
      (w (desc .active 256 256) 256).desc? 1 = some (desc .active 256 256) ∧ s.flash.jobs = [] ∧
      (w (desc .active 256 256) 256).descHeld 1 = false ∧ (c 256).count ≤ 256) ∧
    ((w ended 256).desc? 1 = some ended ∧ ended.offset < (c 256).count ∧
      ended.found.find? (fun y => y.1 == ended.offset) = some (ended.offset, .ends stUncorrectable)) ∧
    ((c 1).abortedBy = [] ∧ (w (desc .active 0 0) 1).stopped 1 = false ∧ (w (desc .active 0 0) 1).resident 0 ((c 1).lba / 1024) = true ∧
      (w (desc .active 0 0) 1).content 1 0 (c 1).lba = .ends stTorn) ∧
    (AtWork blank 1 (c 1) opRead .decoded ∧ blank.content 1 0 (c 1).lba = .known 0 ∧ (c 1).count = 1) ∧
    ((State.paged blank).desc? 1 = some (desc .active 0 0) ∧ (State.paged blank).slotData 0 2 4 0 = some x) ∧
    (∃ d, (State.holding s (cmd opVerify .decoded 0 (some 0))).cmd? 1 = some d ∧ d.opcode = opVerify ∧ d.opcode ≠ opRead) := by
  unfold AtWork
  refine ⟨by decide +kernel, by decide +kernel, by decide +kernel, by decide +kernel, by decide +kernel, by decide +kernel,
    ⟨_, rfl, rfl, by decide⟩⟩

theorem witness_writes :
    let z := cmd opWrite .decoded 0 (some 0)
    let c := { cmd opWrite .ready (5 + 2 ^ 64) (some 0) with seqNo := 3, wanted := 1, payload := [9] }
    let s := State.paged { State.holding (mapped []) c with
      descs := [desc .commit 1 1], power := { fastCard.power with recovered := false } }
    (AtWork (State.holding fastCard z) 1 z opWrite .decoded ∧ z.count = 0) ∧
    (AtWork s 1 c opWrite .ready ∧ c.ring = some 0 ∧ s.desc? 1 = some (desc .commit 1 1) ∧ c.count ≠ 0 ∧ c.done < c.count ∧ c.count ≤ 1 ∧
      s.stopped 1 = false ∧ (s.awaiting 0).contains 1 = false ∧ s.missing 0 c.lba c.count = [] ∧
      s.flash.map.cache.Pairwise (fun p r => (p.slice, p.idx) ≠ (r.slice, r.idx)) ∧ s.dirtyExcess (mapPagesOf 0 c.lba c.count) = 0 ∧
      s.flash.jobs = [] ∧ s.checkpointDue = false ∧
      s.cmds.filter (fun e => e.opcode == opWrite && e.ring == some 0 && e.phase == .ready) = [c] ∧
      c.erases = 0 ∧ c.moves = 0 ∧ s.forcedRuns 1 = false ∧ s.wearCauses.readOnly = false) ∧
    (c.lba = 5 ∧ c.count = 1 ∧ s.placed 0 5 c.seqNo = some (.at 0 2 4 0) ∧ s.superseded 1 0 5 c.seqNo = false) := by
  unfold AtWork; decide +kernel

theorem witness_trims :
    let z := cmd opTrim .decoded 0 (some 0)
    let c := { cmd opTrim .decoded (5 + 2 ^ 64 * 4096) (some 0) with seqNo := 3 }
    let s := onOneDie (State.holding (mapped [{ slice := 0, lba := 4100, seq := 1, loc := .lost }]) c)
    let away := { s with flash := { s.flash with map := { s.flash.map with onFlash := [⟨0, 4, [(0, 9)]⟩] } } }
    let aborted : Cmd := { c with abortedBy := [2] }
    (AtWork (State.holding fastCard z) 1 z opTrim .decoded ∧ z.count = 0) ∧
    (AtWork (State.holding s aborted) 1 aborted opTrim .decoded ∧ aborted.ring = some 0 ∧ aborted.count ≠ 0 ∧ aborted.abortedBy ≠ []) ∧
    (AtWork away 1 c opTrim .decoded ∧ c.abortedBy = [] ∧ away.missing 0 (c.lba + c.done) (min 4096 (c.count - c.done)) ≠ []) ∧
    (AtWork s 1 c opTrim .decoded ∧ c.ring = some 0 ∧ c.count ≠ 0 ∧ c.done < c.count ∧ c.count ≤ c.done + 4096 ∧
      s.missing 0 (c.lba + c.done) (min 4096 (c.count - c.done)) = [] ∧
      s.flash.map.cache.Pairwise (fun p r => (p.slice, p.idx) ≠ (r.slice, r.idx)) ∧
      s.dirtyExcess (mapPagesOf 0 (c.lba + c.done) (min 4096 (c.count - c.done))) = 0 ∧ s.flash.jobs = [] ∧ s.checkpointDue = false ∧
      s.mapDies = [0] ∧ s.dieFree 0 66 0 .program false = true ∧ (s.die? 0).map (fun y => y.hasJob s.flash.nextJob) = some false) ∧
    (c.lba + c.done ≤ 4100 ∧ 4100 < c.lba + c.done + min 4096 (c.count - c.done) ∧ s.superseded 1 0 4100 c.seqNo = false) := by
  unfold AtWork; decide +kernel

theorem witness_barriers :
    let b := cmd opBarrier .decoded 0 (some 0)
    let w := cmd opBarrier .waiting 0 (some 0)
    let r (n : Nat) := cmd opRest .decoded n (some 64)
    let v (budget passed : Nat) : Cmd := { cmd opRest .waiting budget (some 64) with progress := passed }
    let owes := State.with fastCard Reg.UPKEEP.FREE_TARGET.BLOCKS 1000
    let busy := withDie { newDie 0 with holder := some (.step (req .read .other 64)) }
    let ends (s : State) (c : Cmd) := c.awaits = [] ∧ (c.budget ≤ c.progress ∨ (s.rd (enableBit 0x0D 0) = 1 ∧ s.debt = 0))
    AtWork (State.holding fastCard b) 1 b opBarrier .decoded ∧
    (AtWork (State.holding fastCard w) 1 w w.opcode .waiting ∧ w.isBarrier = true ∧ w.ring = some 0 ∧
      ((State.holding fastCard w).earlier 1).all (fun d => d.ring != some 0 || d.done?) = true) ∧
    (AtWork (State.behind fastCard w (some 0)) 1 w w.opcode .waiting ∧
      ((State.behind fastCard w (some 0)).earlier 1).all (fun d => d.ring != some 0 || d.done?) = false) ∧
    (AtWork (State.holding fastCard (r 0)) 1 (r 0) opRest .decoded ∧ (r 0).budget = 0) ∧
    (AtWork (State.holding fastCard (r 1)) 1 (r 1) opRest .decoded ∧ (r 1).budget ≠ 0) ∧
    (AtWork (State.holding owes (v 5 5)) 1 (v 5 5) opRest .waiting ∧ (State.holding owes (v 5 5)).safe = false ∧
      ends (State.holding owes (v 5 5)) (v 5 5) ∧ ends (State.holding fastCard (v 5 0)) (v 5 0)) ∧
    (AtWork (State.holding owes (v 5 4)) 1 (v 5 4) opRest .waiting ∧ ¬ ends (State.holding owes (v 5 4)) (v 5 4)) ∧
    ((State.with fastCard Reg.ESCALATE.STATE.SAFE 1).safe = true ∧ (State.holding fastCard (v 1 0)).engineRuns = false ∧
      (State.holding busy (v 1 0)).engineRuns = true) := by
  unfold AtWork; decide +kernel

theorem witness_grants :
    let asked : Die := { newDie 0 with u := 1, fifo := [req .read (.sector 0) 0] }
    let asks := withDie asked
    let ch (b : Bool) : Chan := { id := 0, reconf := b, k := 1, sdr := false, khz := 0, countKhz := 0, fast := true, zqDone := true,
                                  configured := true, bus := none, busWait := [], beat := 0 }
    let due := { withDie (newDie 0) with flash := { (withDie (newDie 0)).flash with chans := [ch true] } }
    let held (op : OpKind) (a : Activity) (p : Bool) : Die :=
      { newDie 0 with holder := some (.step (req op (.sector 0) 0)), activity := a, preempting := p }
    let urgent := { withDie { held .read .reading false with holder := some (.step { req .read (.sector 0) 0 with cls := .steady }) } with
      flash := { Flash.reset with chans := [{ ch false with bus := some 0, busWait := [1] }],
                                  dies := [held .read .reading false, { newDie 1 with holder := some (.step { req .read (.sector 0) 0 with cls := .steady }) }] } }
    let waits (l : List Nat) := { urgent with flash := { urgent.flash with chans := [{ ch false with busWait := l }] } }
    (asks.clocked = true ∧ asks.die? 0 = some asked ∧ asked.holder = none ∧ asks.arbSettle.die? 0 = some asked ∧ asked.failed = false ∧
      asked.fifo = [req .read (.sector 0) 0] ∧
      asks.arbSettle.chanGate 0 = true ∧ asks.arbSettle.chanOpen 0 = true ∧ (req .read (.sector 0) 0).op = .read ∧
      asks.arbSettle.opMay 0 2 .read = true) ∧
    (due.clocked = true ∧ due.die? 0 = some (newDie 0) ∧ due.arbSettle.chanOf? 0 = some (ch true) ∧
      due.arbSettle.rd (resetActive 0x10 0) = 0 ∧ due.arbSettle.channelIdle 0 = true) ∧
    ((withDie (held .read .reading false)).die? 0 = some (held .read .reading false) ∧ (held .read .reading false).holder ≠ none ∧
      asks.die? 255 = none) ∧
    ((withDie (held .read .reading true)).clocked = true ∧ (withDie (held .read .reading true)).die? 0 = some (held .read .reading true)) ∧
    ((withDie (newDie 0)).die? 0 = some (newDie 0) ∧ (newDie 0).resetLun = true) ∧
    (withDie (held .program .programming false)).die? 0 = some (held .program .programming false) ∧
    urgent.chanOf? 0 = some { ch false with bus := some 0, busWait := [1] } ∧
    ((waits [1, 0]).chanOf? 0 = some { ch false with busWait := [1, 0] } ∧ (waits [1, 0]).urgentHolds 0 = true ∧
      ∀ e ∈ [1, 0].takeWhile (fun e => e != 0), (waits [1, 0]).urgentHolds e = false) ∧
    ((∀ e ∈ [1], (waits [1]).urgentHolds e = false) ∧ [1].head? = some 1) := by decide +kernel

theorem witness_watchdog :
    let x (b : Bool) : Die := { newDie 0 with holder := some (.step (req .read .other 0)), bitten := b }
    ((withDie (x false)).clocked = true ∧ (withDie (x false)).wdRuns = true ∧ (withDie (x false)).die? 0 = some (x false)) ∧
    ((withDie (x true)).wdRuns = true ∧ (withDie (x true)).die? 0 = some (x true) ∧ (x true).holder ≠ none) ∧
    ((withDie (newDie 0)).die? 0 = some (newDie 0) ∧ (newDie 0).holder = none) ∧
    (State.with { card with power := { card.power with testMode := true } } Reg.TEST.WD_CTRL.STOP 1).wdRuns = false := by decide +kernel

theorem witness_decodes :
    let w (soft : Bool) : Codeword := { die := 0, block := 2, page := 4, slot := 1, q := 1, sector := 0, urgent := false, soft := soft,
                                        reads := if soft then 3 else 0, decoder := if soft then some 0 else none }
    let s (soft : Bool) := { fastCard with flash := { Flash.reset with words := [w soft] } }
    let f (arrived : Bool) : Fetch := { slice := 63, idx := 9, q := none, tried := 0, arrived := arrived }
    let m (arrived : Bool) (l : List MapCopy) := onOneDie { fastCard with
      flash := { Flash.reset with map := { MapState.reset with fetching := [f arrived], onFlash := l } } }
    ((s false).clocked = true ∧ (s false).word? 0 2 4 1 = some (w false) ∧ (s false).eccOpen = true ∧ (s false).descHeld 1 = false) ∧
    ((s true).word? 0 2 4 1 = some (w true) ∧ (s true).eccOpen = true ∧ (s true).descHeld 1 = false ∧ (w true).reads = 3 ∧
      (w true).decoder ≠ none) ∧
    (State.with (s true) (isolateBit 0x20 0) 1).eccOpen = false ∧
    (SlotOut.soft.needsSoft = true ∧ (SlotOut.hard 0).needsSoft = false) ∧
    ((m true [⟨63, 9, [(0, 3)]⟩]).clocked = true ∧ (m true [⟨63, 9, [(0, 3)]⟩]).fetch? 63 9 = some (f true) ∧
      (m true [⟨63, 9, [(0, 3)]⟩]).fetchMay (f true) = true ∧ (m true [⟨63, 9, [(0, 3)]⟩]).fetchCopy (f true) = some (0, 3) ∧
      (f true).arrived = true ∧ (f true).tried = 0) ∧
    ((m false []).fetch? 63 9 = some (f false) ∧ (m false []).fetchCopy (f false) = none) ∧ fastCard.fetch? 63 9 = none := by
  decide +kernel

theorem witness_reconfiguration :
    let s := oneDie (newDie 0)
    let d := { s with flash := { s.flash with chans := s.flash.chans.map (fun (c : Chan) => { c with reconf := true }) } }
    d.clocked = true ∧ (∃ c, d.chanOf? 0 = some c ∧ c.reconf = true) ∧ (d.chanProfile 0).isSome = true ∧ d.channelIdle 0 = true := by
  refine ⟨by decide +kernel, ⟨_, rfl, rfl⟩, by decide +kernel, by decide +kernel⟩

/-- A closed data block 2 of die 0 of which page 4 is programmed; a REST runs. -/
def resting (flagged : Bool) (l : List MapEntry) (sb : Option Nat := none) : State :=
  let s := oneDie { newDie 0 with nData := 80 }
  { s with
    cmds := [cmd opRest .waiting 1000 (some 64)]
    power := { s.power with vholdOk := true }
    flash := { s.flash with
      map := { MapState.reset with entries := l }
      pages := [page4]
      blocks := [{ die := 0, num := 2, st := .closed, erases := 1, reads := 0, ckpt := 0, due := none, flagged := flagged, wlFlag := false,
                   sb := sb, used := 6 }] } }

/-- Every die of a card held by a step. -/
def heldBy (s : State) (r : Req) : State :=
  { s with flash := { s.flash with dies := s.flash.dies.map (fun (x : Die) => { x with holder := some (.step r) }) } }

/-- Engine steps may start. -/
abbrev stepMay (s : State) : Prop := s.clocked = true ∧ s.stepsMay = true ∧ s.relocates = true ∧ s.eccOpen = true

/-- Nothing stands in the way of a reading step of an engine on block 2 of die 0. -/
abbrev dieOpen (s : State) (who page : Nat) : Prop :=
  s.engineHolds who 0 2 page = false ∧ s.engineAsked 0 2 .read = false ∧ s.engineFree 0 2 .read = true

/-- LBA 5 of Slice 0 on that page. -/
def five : MapEntry := { slice := 0, lba := 5, seq := 3, loc := .at 0 2 4 0 }

/-- A block to be garbage-collected, one to be refreshed, one to be sampled. -/
def victim : State := State.with (resting false [five]) Reg.UPKEEP.FREE_TARGET.BLOCKS 1000
def flagged : State := resting true [five]
def sampled : State :=
  let n := resting false [five]
  { n with flash := { n.flash with upkeep := { n.flash.upkeep with patrol := [(0, 2)], patrolActive := true } } }

theorem witness_upkeep :
    let e := resting false []
    (stepMay e ∧ e.erasable 0 2 = true ∧ e.rankFree (if e.shortfall = 0 then 6 else e.gcRank) = true ∧ e.engineAsked 0 2 .erase = false ∧
      e.engineFree 0 2 .erase = true) ∧
    (stepMay victim ∧ victim.pageValid 0 2 4 = true ∧ victim.shortfall ≠ 0 ∧ victim.isVictim 0 2 = true ∧
      victim.rankFree victim.gcRank = true ∧ victim.sourceMissing 0 2 4 = [] ∧ dieOpen victim 64 4) ∧
    (stepMay flagged ∧ flagged.pageValid 0 2 4 = true ∧ flagged.refreshDue (flagged.block 0 2) = true ∧ flagged.rankFree 3 = true ∧
      flagged.sourceMissing 0 2 4 = [] ∧ dieOpen flagged 67 4) ∧
    (stepMay sampled ∧ sampled.pageOpen 0x0E = true ∧ sampled.dieGood 0 = true ∧ sampled.awaitsVerify 0 2 1 = none ∧
      sampled.patrolOwed 0 2 1 = true ∧ sampled.rankFree 7 = true ∧ dieOpen sampled 65 1) := by decide +kernel

theorem witness_verification :
    let x := resting false [] (some 7)
    let v := { x with flash := { x.flash with superblocks := [{ id := 7, host := true, profile := 0, members := [(0, 2)], nextPage := [6], st := .closed,
                                                                awaiting := [(0, 4)], unread := [], versionSeq := 0, lastProgram := 0 }] } }
    stepMay v ∧ v.pageOpen 0x0E = true ∧ v.dieGood 0 = true ∧ v.awaitsVerify 0 2 4 = some (7, 0) ∧ v.rankFree 4 = true ∧ dieOpen v 65 4 := by
  decide +kernel

theorem witness_engineWaits :
    let taken (s : State) := heldBy s { req .read (.sector 0) 0 with block := 3 }
    let arrived (s : State) (who : Nat) := heldBy s { req .read .other who with q := 0, progress := 99 }
    let e := taken (resting false [])
    let r := taken flagged
    (stepMay e ∧ e.erasable 0 2 = true ∧ e.rankFree (if e.shortfall = 0 then 6 else e.gcRank) = true ∧ e.engineAsked 0 2 .erase = false ∧
      e.engineFree 0 2 .erase = false) ∧
    (stepMay r ∧ r.refreshDue (r.block 0 2) = true ∧ r.rankFree 3 = true ∧ r.engineHolds 67 0 2 4 = false ∧
      r.engineAsked 0 2 .read = false ∧ r.engineFree 0 2 .read = false) ∧
    ((arrived victim 64).clocked = true ∧ (arrived victim 64).relocates = true ∧ (arrived victim 64).sourceMissing 0 2 4 = [] ∧
      (arrived victim 64).engineHolds 64 0 2 4 = true ∧ (arrived flagged 67).engineHolds 67 0 2 4 = true) := by decide +kernel

/-! Firmware and registers. -/

/-- An image of one payload byte for a microcode slot, unit by unit, with its digests as given. -/
def imageUnits (payload : Nat) : Store :=
  [(0, 1 + 0x4C + 2 ^ 8 * 0x4D + 2 ^ 16 * 0x44 + 2 ^ 24 * 0x31 + 2 ^ 40 * 1 + 2 ^ 48 * 2 + 2 ^ 64 * 448 + 2 ^ 96 * 1 + 2 ^ 160 * 1 +
      2 ^ 224 * 1 + 2 ^ 272 * 1 + 2 ^ 288 * 1 + 2 ^ 384 * (payload % 2 ^ 128)),
   (1, 1 + payload / 2 ^ 128), (2, 1), (3, 1), (4, 1 + 0x55), (5, 1), (6, 1)]

/-- The card with that image staged in microcode slot A and the digest of its public key in key slot 3. -/
def staged : State :=
  let units := imageUnits (ofBytesLE (sha256 [0x55]))
  { card with
    fw := { Firmware.reset with slots := [⟨.empty, [], false⟩, ⟨.empty, [], false⟩, ⟨.staged, units, false⟩, ⟨.confirmed, [], false⟩] }
    fuses := { Fuses.reset with keysSensed := [⟨false, 0, false⟩, ⟨false, 0, false⟩, ⟨false, 0, false⟩,
                                               ⟨true, ofBytesLE (sha256 (List.replicate 97 0)), false⟩] } }

theorem witness_stage :
    let c := { cmd opStage .ready (2 ^ 64 * 64) (some 64) with slice := some 3, payload := [1] }
    let s := State.holding fastCard c
    AtWork s 1 c opStage .ready ∧ c.slice = some 3 ∧ 3 < fastCard.fw.slots.length ∧ s.power.vholdOk = false ∧
    (AtWork (charged s) 1 c opStage .ready ∧ (charged s).power.vholdOk = true ∧ (charged s).descHeld 1 = false) := by
  unfold AtWork; decide +kernel

theorem witness_activateConflict :
    let c := cmd opActivate .decoded 1
    let two := { fastCard with cmds := [{ cmd opStage .data 1 with q := 0 }, c] }
    (AtWork two 1 c opActivate .decoded ∧ two.cmds.any (fun d => d.opcode == opStage && d.working && d.field 0 8 == c.field 0 8) = true) ∧
    (AtWork (State.holding (asked false) c) 1 c opActivate .decoded ∧ (asked false).power.resetReq ≠ none) ∧
    ({ card with fw := { Firmware.reset with slots := List.replicate 4 ⟨.probation, [], false⟩ } } : State).targetProbation 1 = true ∧
    ({ card with fw := { Firmware.reset with slots := List.replicate 4 ⟨.confirmed, [], false⟩ } } : State).stagingSlot 1 = none := by
  unfold AtWork; decide +kernel

theorem witness_activate :
    let c := cmd opActivate .decoded 1
    AtWork (State.holding staged c) 1 c opActivate .decoded ∧
    (State.holding staged c).cmds.any (fun d => d.opcode == opStage && d.working && d.field 0 8 == c.field 0 8) = false ∧
    staged.targetProbation 1 = false ∧ staged.power.resetReq = none ∧ staged.stagingSlot (c.field 0 8) = some 2 ∧
    2 < staged.fw.slots.length ∧ staged.checkSlot 2 false ≠ 0 ∧ staged.power.vbak = true := by
  unfold AtWork; decide +kernel

/-- The image of `staged` passes every check wherever its signature verifies, a verdict that the model takes from outside. -/
theorem witness_accepted (h : (staged.fwSlot 2).signed = true) : staged.checkSlot 2 true = 0 := checked _ _ h (by decide +kernel)

theorem witness_confirm :
    let c := cmd opConfirm .decoded
    let s := State.holding (inProbation card) c
    let two := { inProbation card with cmds := [{ c with q := 0 }, c] }
    (AtWork (State.holding card c) 1 c opConfirm .decoded ∧ card.fw.run = none) ∧
    (AtWork s 1 c opConfirm .decoded ∧ s.fw.run = some { main := 0, mc := none, probation := true, safeIf := false, fallback := false, key := 0 } ∧
      s.fw.shadow = some (0, { fmt := 1, seq := 1, cfgs := [] }) ∧
      s.cmds.any (fun d => d.opcode == opConfirm && d.working && d.q != 1) = false ∧ s.power.vholdOk = false) ∧
    (AtWork (charged s) 1 c opConfirm .decoded ∧ (charged s).power.vholdOk = true ∧ (charged s).power.vbak = true) ∧
    two.cmds.any (fun d => d.opcode == opConfirm && d.working && d.q != 1) = true := by
  unfold AtWork; decide +kernel

/-- A register command on a range of a page. -/
def reg (op : Nat) (ph : CmdPhase) (page index count bank data : Nat) : Cmd :=
  { cmd op ph (page * 32 + index + 2 ^ 16 * count + 2 ^ 24 * bank) (some 64) with payload := [data] }

theorem witness_regreads :
    let r := reg opRegread .decoded 1 0 32 0 0
    let last := { reg opRegread .sampling 1 0 32 0 0 with done := 31 }
    let two := { fastCard with cmds := [{ reg opRegwrite .ready 1 0 1 0 0 with q := 0 }, r] }
    (AtWork (State.holding fastCard r) 1 r opRegread .decoded ∧ (State.holding fastCard r).regHeld r 0 = false ∧ r.done + 1 < r.regCount) ∧
    (AtWork two 1 r opRegread .decoded ∧ two.regHeld r 0 = true) ∧
    (AtWork (State.holding fastCard last) 1 last opRegread .sampling ∧ last.regCount ≤ last.done + 1) ∧
    ([(3, 7)].any (fun e => e.1 == 3) = true ∧ [(3, 7)].any (fun e => e.1 == 4) = false) := by
  unfold AtWork; decide +kernel

/-- The Administrator's card with a REGWRITE of the last Slice's capacity. -/
def admin63 : State := State.with (State.withSlice fastCard 63 (slice)) Reg.OPTION.IN_FORCE.ADMIN_ORIG 1
def capacityOf (v : Nat) : Cmd := reg opRegwrite .ready 6 9 2 63 v

theorem witness_regwrites :
    let p := reg opRegwrite .ready 3 13 1 0 5
    let behind := { fastCard with cmds := [{ reg opRegwrite .ready 1 0 1 0 0 with q := 0 }, p] }
    let s (v : Nat) := State.holding admin63 (capacityOf v)
    let plain := State.holding admin63 p
    (AtWork behind 1 p opRegwrite .ready ∧ behind.regHeld p 0 = true) ∧
    (AtWork (s 0) 1 (capacityOf 0) opRegwrite .ready ∧ ((s 0).regBank (capacityOf 0)).getD 0 = 63 ∧ (s 0).regHeld (capacityOf 0) 63 = false ∧
      (s 0).valuesBad (capacityOf 0) 63 = true) ∧
    ((s 1).regHeld (capacityOf 1) 63 = false ∧ (s 1).valuesBad (capacityOf 1) 63 = false ∧ (s 1).storeHeld (capacityOf 1) = true) ∧
    (AtWork plain 1 p opRegwrite .ready ∧ (plain.regBank p).getD 0 = 0 ∧ plain.regHeld p 0 = false ∧ plain.valuesBad p 0 = false ∧
      plain.storeHeld p = false ∧ p.regPage ≠ 6 ∧ ∀ e ∈ plain.cmds, (e.q = 1 → e = p) ∧ 1 ∉ e.abortedBy) := by
  unfold AtWork; decide +kernel

theorem witness_lowers :
    let c := capacityOf 1
    let s := charged (State.holding admin63 c)
    AtWork s 1 c opRegwrite .ready ∧ s.regHeld c 63 = false ∧ s.valuesBad c 63 = false ∧ s.storeHeld c = false ∧
    c.regPage = 6 ∧ c.covers 9 ∧ s.newCapacity c 63 < (s.slice 63).cfg.cap := by
  unfold AtWork; decide +kernel

theorem witness_capacityLowers :
    let w := { reg opRegwrite .waiting 6 9 2 63 1 with orig := 1 }
    let x := State.withSlice fastCard 63 { (slice) with lowering := some (1, 1) }
    let may (s : State) := (s.earlier 1).all (fun d => d.ring != some 63 || d.done?) = true ∧ s.pageResetting 6 63 = false ∧
      s.power.vholdOk = true
    let s := charged (State.holding x w)
    (s.clocked = true ∧ (x.slice 63).lowering = some (1, 1) ∧ s.cmd? 1 = some w ∧ w.opcode = opRegwrite ∧ w.phase = .waiting ∧ may s) ∧
    ((charged x).cmd? 1 = none ∧ may (charged x)) ∧
    ¬ may (charged (State.behind x w (some 63))) ∧ ¬ may x := by decide +kernel

theorem witness_writes_of_registers :
    (Reg.ESCALATE.ALERT_MASK.MASK.acc = .rw ∧ Reg.ESCALATE.ALERT_MASK.MASK.page = 0x24 ∧ Reg.ESCALATE.ALERT_MASK.MASK.index = 14 ∧
      Reg.ESCALATE.ALERT_MASK.MASK.live = false ∧ card.faultsOnly = true ∧ open7.faultsOnly = false) ∧
    (Reg.ESCALATE.FAULT_GRACE.CCLK.acc = .rw ∧ Reg.ESCALATE.FAULT_GRACE.CCLK.live = false ∧ Reg.ESCALATE.FAULT_GRACE.CCLK.index ≠ 14) ∧
    ((Reg.blockFields 0x07).any (fun f => f.acc == .w1c && !f.live) = true ∨ (headerFields 7 0).any (fun f => f.acc == .w1c && !f.live) = true) ∧
    (Reg.LINK.ORDER_SEQ.LAST.acc = .ro ∧ Reg.LINK.ORDER_SEQ.LAST.live = false) ∧
    (card.reaches 0x28 63 = true ∧ active63.reaches 0x06 63 = true ∧ card.reaches 0x06 63 = false ∧ card.reaches 0x29 0 = false ∧
      ({ card with fuses := { Fuses.reset with part := 0x9104 } } : State).reaches 0x15 0 = false) ∧ 63 < 64 ∧ 64 ≤ 64 := by decide +kernel

/-! Faults and escalation. -/

/-- Factory test mode, in ID mode. -/
def testCard : State := { card with power := { card.power with testMode := true } }

theorem witness_faults :
    (card.clocked = true ∧ bitAt (Reg.faultMask 0x0C) 0 = true ∧ bitAt (Reg.faultMask 0x08) 0 = true ∧ card.reaches 0x0C 0 = true) ∧
    (bitAt (Reg.faultMask 0x15) 0 = true ∧ ({ card with fuses := { Fuses.reset with part := 0x9104 } } : State).reaches 0x15 0 = false) ∧
    (forcedSource 0x08 0 = true ∧ ∃ i, i < 16 ∧ bitAt (Reg.faultMask 0x0C) i = true ∧ forcedSource 0x0C i = false) ∧
    (bitAt (card.rd (faultEnable 0x0C 0)) 0 = true ∧ bitAt (card.rd (faultSticky 0x0C 0)) 0 = false) ∧
    (bitsOf ((State.with card (faultAction 0x0C 0) 0).rd (faultAction 0x0C 0)) 0 2 ≠ 1) ∧
    bitAt ((State.with card (faultEnable 0x0C 0) 0).rd (faultEnable 0x0C 0)) 0 = false ∧
    (testCard.clocked = true ∧ testCard.ftm = true ∧ card.ftm = false ∧ injectable 0x0C 0 = true ∧ injectable 0x27 31 = true ∧
      injectable 0 31 = false) ∧
    (card.esc.hdrBad.contains (0x27, 0, 1) = false ∧ (card.inject 0x27 0 31).esc.hdrBad.contains (0x27, 0, 1) = true ∧
      card.chanAbsent 0x27 = false ∧ ({ card with fuses := { Fuses.reset with part := 0x9104 } } : State).chanAbsent 0x15 = true) := by
  decide +kernel

/-- Map page 1 of Slice 2 in the cache, with a dirty mark; stripe 5 of superblock 3 in a parity buffer. -/
def spoilable (dirty : Bool) : State :=
  { card with flash := { card.flash with
      map := { card.flash.map with cache := [⟨2, 1, dirty, 0⟩] }
      versions := [⟨3, 5, 1, [0], 0, 9, false, true⟩] } }

theorem witness_fault_places :
    let place := some (2, 1)
    ((spoilable true).mapDirty 2 1 = true ∧ (spoilable false).mapDirty 2 1 = false ∧ 1535 / 1024 = 1 ∧
      (spoilable true).pageFailed 2 1535 = false ∧ ((spoilable true).errorAt 0x0C 0 place).pageFailed 2 1535 = true ∧
      (spoilable false).resident 2 1 = true) ∧
    (((spoilable false).errorAt 0x0E 0 (some (3, 5))).flash.versions.any (fun v => v.sb == 3 && v.stripe == 5 && !v.cached) = true) ∧
    ((State.with card (Reg.DEBUG.SCRATCH.DATA.plus 7) 9).rd (Reg.DEBUG.SCRATCH.DATA.plus 7) = 9 ∧
      ((State.with card (Reg.DEBUG.SCRATCH.DATA.plus 7) 9).errorAt 0x27 0 (some (7, 0))).rd (Reg.DEBUG.SCRATCH.DATA.plus 7) = 0 ∧
      storeWf (State.with card (Reg.DEBUG.SCRATCH.DATA.plus 7) 9).regs = true) := by
  unfold storeWf; decide +kernel

/-- A sticky bit of an enabled source with a given action. -/
def erring (action : Nat) : State :=
  State.with (State.with (State.with card (faultEnable 0x0C 0) 1) (faultAction 0x0C 0) action) (faultSticky 0x0C 0) 1

theorem witness_escalation :
    let p := State.with (erring 2) Reg.ESCALATE.STATE.PENDING 1
    let r := cmd opRead .decoded 0 (some 0)
    let d := { State.holding fastCard r with descs := [desc .active 0 1] }
    let k := cmd opWrite .data (2 ^ 64) (some 0)
    let w := { State.holding fastCard k with descs := [desc .data 0 0] }
    ((erring 3).safe = false ∧ firstSource ((erring 3).sources 3) = some (0x0C, 0, 0)) ∧
    (p.safe = false ∧ p.sources 3 = [] ∧ firstSource (p.sources 2) = some (0x0C, 0, 0) ∧ p.escPending = true ∧
      p.esc.count < p.rd Reg.ESCALATE.FAULT_GRACE.CCLK) ∧
    (({ p with esc := { p.esc with count := p.rd Reg.ESCALATE.FAULT_GRACE.CCLK } } : State).esc.count = p.rd Reg.ESCALATE.FAULT_GRACE.CCLK) ∧
    (pending7.safe = false ∧ pending7.sources 3 = [] ∧ pending7.sources 2 = [] ∧ pending7.escPending = true ∧ pending7.clocked = true) ∧
    (State.with card Reg.ESCALATE.STATE.SAFE 1).safe = true ∧
    (card.faultsOnly = true ∧ open7.faultsOnly = false ∧ (true, false) = card.alertPads ∧ (false, false) ≠ card.alertPads) ∧
    (d.clocked = true ∧ d.cmd? 1 = some r ∧ d.desc? 1 = some (desc .active 0 1) ∧ r.done? = false ∧ r.idMode = false ∧
      ∀ e ∈ d.cmds, e.q = 1 → e = r) ∧
    (w.cmd? 1 = some k ∧ w.desc? 1 = some (desc .data 0 0) ∧ k.done? = false ∧ k.idMode = false ∧ k.opcode = opWrite ∧
      ∀ e ∈ w.cmds, e.q = 1 → e = k) := by decide +kernel

/-! The option store, the fuses, the test port. -/

/-- One byte of a CRC-32C. -/
def crcByte (c b : Nat) : Nat := crcBits 0x82F63B78 8 (c ^^^ (b % 256))

theorem crc_bytes (l : List Nat) : crc32c l = l.foldl crcByte 0xFFFFFFFF ^^^ 0xFFFFFFFF := rfl

/-- A quarter of the option store's checked bytes. -/
def quarter (n : Nat) : List Nat := storeBytes optionStore (127 * n) 127

theorem optionStore_quarters : storeBytes optionStore 0 508 = quarter 0 ++ quarter 1 ++ quarter 2 ++ quarter 3 := by decide +kernel
theorem quarter0 : (quarter 0).foldl crcByte 0xFFFFFFFF = 1186592229 := by decide +kernel
theorem quarter1 : (quarter 1).foldl crcByte 1186592229 = 1790437420 := by decide +kernel
theorem quarter2 : (quarter 2).foldl crcByte 1790437420 = 1910160194 := by decide +kernel
theorem quarter3 : (quarter 3).foldl crcByte 1910160194 = 655722751 := by decide +kernel

theorem optionStore_crc : crc32c (storeBytes optionStore 0 508) = 3639244544 := by
  rw [crc_bytes, optionStore_quarters, List.foldl_append, List.foldl_append, List.foldl_append, quarter0, quarter1, quarter2, quarter3]
  decide +kernel

theorem optionStore_valid : copyValid optionStore = true := by
  unfold copyValid
  rw [optionStore_crc]
  decide +kernel

theorem witness_options :
    let s := { card with opt := { State.reset.opt with staging := optionStore } }
    let w := { card with opt := { State.reset.opt with commit := some (true, optionStore) } }
    (card.clocked = true ∧ card.opt.commit = none ∧ card.commitAccepted = false) ∧ (s.opt.commit = none ∧ s.commitAccepted = true) ∧
    w.opt.commit = some (true, optionStore) := by
  have r : reservedClear optionStore = true := by decide +kernel
  refine ⟨by decide +kernel, ⟨rfl, ?_⟩, rfl⟩
  show (copyValid optionStore && reservedClear optionStore && (copySeq optionStore ==
    card.rd Reg.OPTION.SEQ_IN_FORCE.SEQ + 1)) = true
  rw [optionStore_valid, r]
  decide +kernel

theorem witness_fuses :
    let k := { testCard with fuses := { Fuses.reset with keys := List.replicate 4 ⟨true, 5, false⟩ } }
    (testCard.clocked = true ∧ testCard.ftm = true ∧ testCard.fuses.busy = none ∧ testCard.link.fast = false ∧
      testCard.fuseReady (.entry 359 7) = true ∧ testCard.fuseReady .seal = true ∧ testCard.fuseReady (.key 3 testCard.keyDigest) = true ∧
      k.fuseReady (.revoke 3) = true) ∧
    (testCard.fuseReady (.entry 359 0) = false ∧ testCard.fuseReady (.revoke 0) = false ∧ k.fuseReady (.key 3 5) = false ∧
      ({ testCard with link := fastCard.link } : State).link.fast = true) ∧
    card.ftm = false ∧ ({ testCard with fuses := { Fuses.reset with busy := some .seal } } : State).fuses.busy = some .seal := by
  decide +kernel

theorem witness_testPort :
    card.tapPowered = true ∧ removing.tapPowered = true ∧ sleeping.tapPowered = false ∧ card.ftm = false ∧ testCard.ftm = true ∧
    card.fuses.part = 0x9130 ∧ card.fuses.step = 1 ∧ card.fuses.part < 65536 := by decide +kernel

/-! Single steps. -/

/-- The state after a command (the state itself where it does not go on). -/
def after (i : Instr) (s : State) : State :=
  match exec i s with
  | .next t => t
  | .fault _ => s
  | .refused _ => s

/-- NOP ends OK with one COMPLETION frame (Table 5-5). -/
theorem test_nop : (after (.nop 1) (State.holding fastCard (cmd opNop .decoded))).link.unacked.map (fun f => (f.ftype, f.q, f.status)) =
    [(.completion, 1, stOk)] := by decide +kernel

/-- The address of the reservoir shelf's card 0x02A is assigned (R138). -/
theorem test_assign : (after (.assignAddress 1) (State.holding fastCard (cmd opAssign .decoded (0x02A * 2 ^ 96)))).rd
    Reg.SHELF.ADDR.CARD_ADDR = 0x02A := by decide +kernel

/-- A system reset by RST_N reads level 2, source 2 (Table 14-2). -/
theorem test_rstN : (after .rstN card).rd Reg.RESET.CAUSE.LEVEL = 2 ∧ (after .rstN card).rd Reg.RESET.CAUSE.SOURCE = 2 := by decide +kernel

/-- WAKE in SLEEP latches HOST_WAKE first (R418). -/
theorem test_wake : (after .wakePattern sleeping).cell 24 = 1 := by decide +kernel

/-- The alarm at the reset values of TEMP_CFG: above 110.0 °C it rises, at 105.5 °C it stands, at 105.0 °C it falls (R424). -/
theorem witness_temperature_alarm :
    let hot := after (.tempConversion (some 221)) card
    card.temp.alarm = false ∧ hot.temp.alarm = true ∧ bitAt (hot.rd (attnSticky 0x26 0)) 0 = true ∧
    (after (.tempConversion (some 220)) card).temp.alarm = false ∧ hot.clocked = true ∧
    (after (.tempConversion (some 211)) hot).temp.alarm = true ∧ (after (.tempConversion (some 210)) hot).temp.alarm = false := by
  decide +kernel

/-- A temperature of −60.5 °C reads as −60.0 °C (R423). -/
theorem test_temperature : (after (.tempConversion (some (1024 - 121))) card).temp.value = 1024 - 120 := by decide +kernel

/-- SLICE_CREATE of Slice 3 with capacity 5 makes it ACTIVE (R170). -/
theorem test_create :
    let t := after (.sliceCreate 1) (State.holding (charged active63) (cmd opCreate .decoded (3 + 2 ^ 64 * 5)))
    (t.slice 3).st = .active ∧ (t.slice 3).cfg.cap = 5 ∧ (t.slice 63).st = .active := by decide +kernel

/-- A disabled source changes nothing, an enabled one sets its sticky bit (R370). -/
theorem test_fault :
    (after (.faultSourceError 0x10 0 0 none) (State.with card (faultEnable 0x10 0) 0)).rd (faultSticky 0x10 0) = 0 ∧
    bitAt ((after (.faultSourceError 0x10 0 0 none) card).rd (faultSticky 0x10 0)) 0 = true := by decide +kernel

/-- Removal takes the armed card to the sequence and marks it in cell 16 (R304). -/
theorem test_removal : (after (.removalTrigger true false) card).power.st = .removing ∧
    bitAt ((after (.removalTrigger true false) card).cell 16) 8 = true := by decide +kernel

/-- The step takes the command at the front and leaves the rest waiting. -/
theorem test_queue : (match step { card with pending := [.vbakLoss, .vholdOk] } with
    | .next t => decide (t.pending = [.vholdOk]) && !t.power.vbak
    | .fault _ => false
    | .refused _ => false) = true := by decide +kernel

end Sys2Proof.Tests
end

section
/-!
Epochs over resets (R145, R147): what clears the Originators' entries, what leaves their Epochs, and how a HELLO that does not
exceed the Epoch held is answered.
-/
namespace Sys2Proof.Machine
open Sys2Proof.Safety

/-! The entries of the Originators under the operations of a reset. -/

theorem Moved.origs_eq {T : Nat} {b t : State} (h : Moved T b t) (hT : T.testBit 8 = false) : t.origs = b.origs :=
  (h.agree .origs).elim (fun x => absurd (hT.symm.trans x) Bool.false_ne_true) id

@[simp] theorem State.setCause_origs (s : State) (level source : Nat) : (s.setCause level source).origs = s.origs := rfl

@[simp] theorem State.markReconf_origs (s : State) : s.markReconf.origs = s.origs := rfl

@[simp] theorem State.countReset_origs (s : State) (source : Nat) : (s.countReset source).origs = s.origs :=
  (State.countReset_moved (Within.refl 8192) (Moved.refl _ s)).origs_eq (by decide)

/-- The last act of a reset, the event of a completed carry and the end of the edge, leaves the Originators alone. -/
theorem State.carryEvent_origs (s : State) (carry : Bool) :
    ((if carry then s.raise Evt.RESET.CARRY_COMPLETED else s).endEdge).origs = s.origs := by
  cases carry with
  | false => rfl
  | true => exact State.raise_origs s _ _

theorem State.powerOnStart_origs (s : State) (source : Option Nat) (wake crustRestart : Bool) :
    (s.powerOnStart source wake crustRestart).origs = [] := by
  unfold State.powerOnStart
  refine (State.carryEvent_origs _ _).trans ?_
  cases source <;> rfl

theorem State.systemReset_origs (s : State) (source : Nat) : (s.systemReset source).origs = [] := by
  unfold State.systemReset
  exact State.carryEvent_origs _ _

/-- A core reset drops the nonces and nothing else of the Originators' entries (R354). -/
theorem State.coreHalt_origs (s : State) (source : Nat) :
    (s.coreHalt source).origs = s.origs.map (fun o => { o with nonce := none }) := by
  simp [State.coreHalt]

theorem execCoreResetHalt_origs {s t : State} (h : execCoreResetHalt s = .next t) :
    t.origs = s.origs ∨ t.origs = s.origs.map (fun o => { o with nonce := none }) := by
  unfold execCoreResetHalt at h
  split at h
  · split at h
    · cases h
      exact .inr ((State.settle_origs _).trans (State.coreHalt_origs _ _))
    · cases h
      exact .inl rfl
  · cases h
    exact .inl rfl

theorem State.orig_of_origs_eq {s t : State} (h : t.origs = s.origs) (o : Nat) : t.orig o = s.orig o := by
  unfold State.orig
  rw [h]

/-- Where only nonces have been dropped, an entry is found at its place without its nonce. -/
theorem State.orig_of_nonces_dropped {s t : State} (h : t.origs = s.origs.map (fun o => { o with nonce := none })) (o : Nat) :
    t.orig o = { s.orig o with nonce := none } := by
  unfold State.orig
  rw [h, List.find?_map]
  change (Option.map _ (s.origs.find? fun x => x.id == o)).getD _ = _
  cases s.origs.find? (fun x => x.id == o) <;> rfl

/-! HELLO of an Originator whose Epoch is held (R145). -/

theorem Cmd.field_lt (c : Cmd) (byte w : Nat) : c.field byte w < 2 ^ w :=
  Nat.mod_lt _ (Nat.two_pow_pos w)

/-- A completion of any command but SLICE_BIND leaves the Originators as the row left them. -/
theorem origs_of_finishes {i : Instr} {s x t : State} {c : Cmd} {st r : Nat} (h : Finishes i s x c st r t)
    (hx : x.cmd? c.q = some c) (hb : c.opcode ≠ opBind) : t.origs = x.origs := by
  obtain ⟨-, rfl, -, -⟩ := h
  rw [State.settle_origs, State.complete_origs]
  rintro d hd
  cases hx.symm.trans hd
  exact hb

/-- A HELLO with a lower Epoch than the one held is stale. -/
theorem hello_lower_finishes {q : Nat} {s : State} {c : Cmd} (hw : AtWork s q c opHello .decoded)
    (hseen : (s.orig c.orig).helloSeen = true) (hlt : c.field 0 32 < (s.orig c.orig).epoch) :
    ∃ t, Finishes (.hello q) s (s.raise Evt.SHELF.STALE_EPOCH) c stStaleEpoch (s.helloResult c.orig) t :=
  ⟨_, finishes_of hw (by decide) rfl (by simp [hseen, hlt]) ((State.raise_cmd? _ _ _ _).trans hw.1)⟩

/-- A HELLO with the Epoch held completes OK at once. -/
theorem hello_equal_finishes {q : Nat} {s : State} {c : Cmd} (hw : AtWork s q c opHello .decoded)
    (hseen : (s.orig c.orig).helloSeen = true) (heq : c.field 0 32 = (s.orig c.orig).epoch) :
    ∃ t, Finishes (.hello q) s s c stOk (s.helloResult c.orig) t :=
  ⟨_, finishes_of hw (by decide) rfl (by simp [hseen, heq]) hw.1⟩

/-- A HELLO that does not exceed the Epoch held is answered at once and changes no Originator's entry. -/
theorem hello_notHigher_answers {q : Nat} {s : State} {c : Cmd} (hw : AtWork s q c opHello .decoded)
    (hseen : (s.orig c.orig).helloSeen = true) (hle : c.field 0 32 ≤ (s.orig c.orig).epoch) :
    ∃ t st r, exec (.hello q) s = .next t ∧ t.origs = s.origs ∧ Fixed t c st r := by
  have ⟨hc, _, hop, _⟩ := hw
  have hb : c.opcode ≠ opBind := by rw [hop]; decide
  have hcq : s.cmd? c.q = some c := by rw [State.cmd?_q hc, hc]
  rcases Nat.lt_or_eq_of_le hle with hlt | heq
  · obtain ⟨t, ht⟩ := hello_lower_finishes hw hseen hlt
    have ho := origs_of_finishes ht ((State.raise_cmd? _ _ _ _).trans hcq) hb
    obtain ⟨hexec, -, -, hfixed⟩ := ht
    exact ⟨t, _, _, hexec, ho.trans (State.raise_origs _ _ _), hfixed⟩
  · obtain ⟨t, ht⟩ := hello_equal_finishes hw hseen heq
    have ho := origs_of_finishes ht hcq hb
    obtain ⟨hexec, -, -, hfixed⟩ := ht
    exact ⟨t, _, _, hexec, ho, hfixed⟩

/-! Epochs over resets. -/

theorem rstN_origs {s t : State} (hk : s.clocked = true) (h : exec .rstN s = .next t) : t.origs = [] := by
  change execRstN s = _ at h
  rw [execRstN, if_pos hk] at h
  cases h
  exact State.systemReset_origs _ _

/-- The reset that RESET requested asserts once nothing of its sender waits or is unacknowledged (R351). -/
theorem linkSystemReset_origs {s t : State} {r : ResetReq} (hk : s.clocked = true) (hr : s.power.resetReq = some r)
    (hsys : r.system = true) (hsent : ∀ q, r.sender = some q → s.cmd? q = none ∧ ∀ f ∈ s.link.unacked, f.q ≠ q)
    (h : exec .linkSystemReset s = .next t) : t.origs = [] := by
  have hreset : execLinkSystemReset s = .next (s.systemReset r.source) := by
    unfold execLinkSystemReset
    rw [hr]
    cases hq : r.sender with
    | none => simp [hk, hsys, hq]
    | some q =>
      obtain ⟨hnone, hack⟩ := hsent q hq
      have hall : s.link.unacked.all (fun f => f.q != q) = true := by simpa using hack
      simp [hk, hsys, hq, hnone, hall]
  cases hreset.symm.trans h
  exact State.systemReset_origs _ _

theorem powerOn_origs {s t : State} (hoff : s.power.st = .off) (h : exec .powerOn s = .next t) : t.origs = [] := by
  change execPowerOn s = _ at h
  rw [execPowerOn, hoff] at h
  cases h
  exact State.powerOnStart_origs _ _ _ _

theorem coreResetHalt_keeps_epoch {s t : State} (h : exec .coreResetHalt s = .next t) (o : Nat) :
    (t.orig o).epoch = (s.orig o).epoch ∧ (t.orig o).helloSeen = (s.orig o).helloSeen := by
  rcases execCoreResetHalt_origs h with hsame | hdropped
  · rw [State.orig_of_origs_eq hsame]
    exact ⟨rfl, rfl⟩
  · rw [State.orig_of_nonces_dropped hdropped]
    exact ⟨rfl, rfl⟩

/-- Settles O18: a system reset and a power-on empty the Originators' entries, a core reset drops nonces alone, and the 32 bits
of a HELLO's Epoch cannot exceed 0xFFFFFFFF, so it is stale or equal and answered at once. -/
theorem epochsOverResets : Obligations.EpochsOverResets := by
  refine ⟨fun s t => rstN_origs, fun s t r => linkSystemReset_origs, fun s t => powerOn_origs,
    fun s t => coreResetHalt_keeps_epoch, fun q s c hw hseen hmax => hello_notHigher_answers hw hseen ?_⟩
  rw [hmax]
  exact Nat.le_pred_of_lt (c.field_lt 0 32)

end Sys2Proof.Machine
end

section
/-!
SUPPORT. Which registers stand, operation by operation: posting an attention entry writes fields of QUEUE and DMA alone, and
what follows a change of the flash side, with the end of a step, writes nothing of the POWER page but its fault bits.
-/
namespace Sys2Proof.Machine

/-! Keys of fields. -/

theorem Field.key_ne_of_index {f : Field} {k : Nat} (h : f.index % 32 ≠ keyIndex k) : f.key ≠ k := fun e =>
  h (by rw [← e, f.keyIndex_key])

theorem Field.key_ne_of_page {f : Field} {k : Nat} (h : f.page % 64 ≠ keyPage k) : f.key ≠ k := fun e =>
  h (by rw [← e, f.keyPage_key])

/-- The keys outside the pages QUEUE and DMA, and those of fault bits on any page. -/
def OffRings (k : Nat) : Prop := (keyPage k ≠ 7 ∧ keyPage k ≠ 8) ∨ keyIndex k = 3

theorem OffRings.ne_key {k : Nat} (hk : OffRings k) {f : Field} (hp : f.page = 7 ∨ f.page = 8)
    (hi : (f.index % 32 == 3) = false) : f.key ≠ k := by
  rcases hk with ⟨h7, h8⟩ | h3
  · refine Field.key_ne_of_page ?_
    rcases hp with hp | hp
    · rw [hp]; exact h7.symm
    · rw [hp]; exact h8.symm
  · exact Field.key_ne_of_index (h3 ▸ ne_of_beq_false hi)

theorem attnSticky_ne_of_faultKey {k : Nat} (hk : keyIndex k = 3) (page bank : Nat) : (attnSticky page bank).key ≠ k :=
  Field.key_ne_of_index (hk ▸ (by decide : 6 ≠ 3))

/-- The keys of the POWER page apart from its fault bits. -/
def OnPower (k : Nat) : Prop := keyPage k = 0x26 ∧ keyIndex k ≠ 3

theorem OnPower.ne_key {k : Nat} (hk : OnPower k) {f : Field} (hp : f.page % 64 ≠ 0x26) : f.key ≠ k :=
  Field.key_ne_of_page (hk.1 ▸ hp)

theorem OnPower.offRings {k : Nat} (hk : OnPower k) : OffRings k := .inl (by rw [hk.1]; decide)

/-! The register of a key from one state to another. -/

/-- The register of key `k` reads in `t` as in `b`. -/
def Stands (k : Nat) (b t : State) : Prop := storeRead t.regs k = storeRead b.regs k

theorem Stands.refl (k : Nat) (s : State) : Stands k s s := rfl

theorem Stands.rd {b t : State} {f : Field} (h : Stands f.key b t) : t.rd f = b.rd f :=
  congrArg (fun x => x ^^^ f.reset) h

theorem Moved.regs_eq {T : Nat} {b t : State} (h : Moved T b t) (hT : T.testBit 1 = false) : t.regs = b.regs :=
  (h.agree .regs).elim (fun x => absurd (hT.symm.trans x) Bool.false_ne_true) id

theorem Moved.temp_eq {T : Nat} {b t : State} (h : Moved T b t) (hT : T.testBit 19 = false) : t.temp = b.temp :=
  (h.agree .temp).elim (fun x => absurd (hT.symm.trans x) Bool.false_ne_true) id

theorem Moved.esc_eq {T : Nat} {b t : State} (h : Moved T b t) (hT : T.testBit 18 = false) : t.esc = b.esc :=
  (h.agree .esc).elim (fun x => absurd (hT.symm.trans x) Bool.false_ne_true) id

/-- An operation that moves no register leaves each as it stood. -/
theorem Stands.of_moved {k T : Nat} {b s t : State} (hs : Stands k b s) (h : Moved T s t) (hT : T.testBit 1 = false) :
    Stands k b t := by
  unfold Stands
  rw [h.regs_eq hT]
  exact hs

theorem foldl_stands {k : Nat} {b : State} {α : Type} {f : State → α → State} {s : State} {l : List α} (h : Stands k b s)
    (hf : ∀ s x, Stands k b s → Stands k b (f s x)) : Stands k b (l.foldl f s) := by
  induction l generalizing s with
  | nil => exact h
  | cons a l ih => exact ih (hf _ _ h)

theorem Stands.ite {k : Nat} {b s t : State} {p : Prop} [Decidable p] (h : Stands k b s) (h' : Stands k b t) :
    Stands k b (if p then s else t) := by
  split
  · exact h
  · exact h'

theorem State.wr_stands {k : Nat} {b s : State} {f : Field} {v : Nat} (hf : f.key ≠ k) (hs : Stands k b s) :
    Stands k b (s.wr f v) :=
  (storeRead_regWrite_ne _ _ _ _ hf.symm).trans hs

theorem State.bump_stands {k : Nat} {b s : State} {f : Field} {n : Nat} (hf : f.key ≠ k) (hs : Stands k b s) :
    Stands k b (s.bump f n) := State.wr_stands hf hs

/-! Posting an attention entry. -/

theorem lostBit_ne_key {k : Nat} (hk : OffRings k) (ring : Nat) : (lostBit ring).key ≠ k := by
  unfold lostBit
  split
  · exact hk.ne_key (.inl rfl) rfl
  · exact hk.ne_key (.inr rfl) rfl

theorem lostCount_ne_key {k : Nat} (hk : OffRings k) (ring : Nat) : (lostCount ring).key ≠ k := by
  unfold lostCount
  split
  · exact hk.ne_key (.inl rfl) rfl
  · exact hk.ne_key (.inr rfl) rfl

theorem aqMark_ne_key {k : Nat} (hk : OffRings k) (ring : Nat) :
    (aqMark ring).crossings.key ≠ k ∧ (aqMark ring).sticky.key ≠ k := by
  unfold aqMark
  split
  · exact ⟨hk.ne_key (.inl rfl) rfl, hk.ne_key (.inl rfl) rfl⟩
  · exact ⟨hk.ne_key (.inr rfl) rfl, hk.ne_key (.inr rfl) rfl⟩

theorem State.loseEntry_stands {k : Nat} {b s : State} {ring : Nat} (hk : OffRings k) (hs : Stands k b s) :
    Stands k b (s.loseEntry ring) :=
  State.bump_stands (lostCount_ne_key hk ring) (State.wr_stands (lostBit_ne_key hk ring) hs)

theorem State.placeEntry_stands {k : Nat} {b s : State} {e : AttnEntry} (hk : OffRings k) (hs : Stands k b s) :
    Stands k b (s.placeEntry e) := by
  unfold State.placeEntry
  split
  · exact hs
  · extract_lets v0 v1 v2 v3
    have hv1 : Stands k b v1 := hs
    have hv3 : Stands k b v3 := hs
    split
    · exact Stands.ite (State.wr_stands (hk.ne_key (.inl rfl) rfl) hv3) hv3
    · exact Stands.ite (State.loseEntry_stands hk hv1) (State.loseEntry_stands hk hv1)

theorem State.cross_stands {k : Nat} {b s : State} {w : Watermark} {before after ring : Nat}
    (hw : w.crossings.key ≠ k ∧ w.sticky.key ≠ k) (hs : Stands k b s) : Stands k b (s.cross w before after ring).1 := by
  unfold State.cross
  extract_lets v0 v1 v2 v3 v4
  have hv1 : Stands k b v1 := State.bump_stands hw.1 hs
  split
  · split
    · exact hv1
    · exact State.wr_stands hw.2 hv1
  · exact hs

theorem State.attnRose_stands {k : Nat} {b s : State} {ring before : Nat} (hk : OffRings k) (hs : Stands k b s) :
    Stands k b (s.attnRose ring before) := by
  unfold State.attnRose
  extract_lets r
  have hr : Stands k b r.1 := State.cross_stands (aqMark_ne_key hk ring) hs
  split
  · exact State.placeEntry_stands hk hr
  · exact hr

theorem State.post_stands {k : Nat} {b s : State} {e : AttnEntry} (hk : OffRings k) (hs : Stands k b s) :
    Stands k b (s.post e) :=
  State.attnRose_stands hk (State.placeEntry_stands hk hs)

theorem State.raise_stands {k : Nat} {b s : State} {ev : Nat × Nat} {bank : Nat} (hk : OffRings k)
    (hev : (attnSticky ev.1 bank).key ≠ k) (hs : Stands k b s) : Stands k b (s.raise ev bank) := by
  unfold State.raise
  extract_lets v0 v1 v2
  have hv2 : Stands k b v2 := State.wr_stands hev hs
  exact Stands.ite hs (Stands.ite (State.post_stands hk hv2) hv2)

/-- An event moves no fault bit. -/
theorem State.raise_faultSticky (s : State) (ev : Nat × Nat) (bank page b : Nat) :
    (s.raise ev bank).rd (faultSticky page b) = s.rd (faultSticky page b) := by
  have hk : keyIndex (faultSticky page b).key = 3 := Field.keyIndex_key _
  exact (State.raise_stands (.inr hk) (attnSticky_ne_of_faultKey hk _ _) (Stands.refl _ s)).rd

theorem bitAt_eq_testBit (x i : Nat) : bitAt x i = x.testBit i := by
  unfold bitAt
  rw [Nat.testBit_eq_decide_div_mod_eq, Nat.shiftRight_eq_div_pow]
  rfl

/-- After an event that its page assigns, its sticky bit reads 1, whether it rose or stood (R46). -/
theorem State.raise_sets_sticky (s : State) (ev : Nat × Nat) (bank : Nat) (hk : OffRings (attnSticky ev.1 bank).key)
    (hm : bitAt (Reg.attnMask ev.1) ev.2 = true) :
    bitAt ((s.raise ev bank).rd (attnSticky ev.1 bank)) ev.2 = true := by
  unfold State.raise
  extract_lets f v s'
  split
  · assumption
  · rename_i hlow
    have hs' : bitAt (s'.rd f) ev.2 = true := by
      have hrd : s'.rd f = (v + 2 ^ ev.2) &&& f.mask := regRead_write_self _ _ _
      rw [bitAt_eq_testBit, Bool.not_eq_true] at hlow
      rw [bitAt_eq_testBit] at hm
      rw [hrd, bitAt_eq_testBit, Nat.testBit_and, Nat.add_comm, Nat.testBit_two_pow_add_eq, hlow]
      exact hm
    split
    · rw [(State.post_stands hk (Stands.refl _ s')).rd]
      exact hs'
    · exact hs'

/-! The POWER page at the end of a step: completions, the link, the escalation. -/

section
variable {k : Nat} (hk : OnPower k) {b s : State}
include hk

theorem OnPower.raise {ev : Nat × Nat} {bank : Nat} (hev : ev.1 % 64 ≠ 0x26) (hs : Stands k b s) :
    Stands k b (s.raise ev bank) :=
  State.raise_stands hk.offRings (hk.ne_key hev) hs

theorem OnPower.tally {f : Field} {n : Nat} (hf : f.page % 64 ≠ 0x26) (hs : Stands k b s) : Stands k b (s.tally f n) := by
  unfold State.tally
  extract_lets v0
  have hv0 : Stands k b v0 := State.bump_stands (hk.ne_key hf) hs
  exact Stands.ite (hk.raise hf hv0) hv0

theorem OnPower.leave {q : Nat} (hs : Stands k b s) : Stands k b (s.leave q) := by
  unfold State.leave
  split
  · exact hs
  · extract_lets v0 v1 v2
    have hv1 : Stands k b v1 := hs
    have hv2 : Stands k b v2 := Stands.ite (State.bump_stands (hk.ne_key (by decide)) hv1) hv1
    exact hv2.of_moved (State.answerAborts_moved (Within.refl 20) (Moved.refl _ _)) rfl

theorem OnPower.complete {q status result data dataLen : Nat} (hs : Stands k b s) :
    Stands k b (s.complete q status result data dataLen) := by
  unfold State.complete
  split
  · exact hs
  · split
    · exact hs
    · extract_lets v0 v1 v2 v3 v4 v5 v6 v7 v8
      have hv0 : Stands k b v0 := hs.of_moved (State.spendNonce_moved (Within.refl 256) (Moved.refl _ _)) rfl
      have hv8 : Stands k b v8 := hv0
      split
      · exact hk.leave hv0
      · exact hv8.of_moved (State.owe_moved (Within.refl 4) (Moved.refl _ _)) rfl

theorem OnPower.sendHead (hs : Stands k b s) : Stands k b s.sendHead := by
  unfold State.sendHead
  split
  · exact hs
  · extract_lets v0 v1 v2 v3
    have hv3 : Stands k b v3 := hs
    exact Stands.ite (hk.leave hv3) (Stands.ite hv3 hv3)

theorem OnPower.postCompletion {c : Cmd} (hs : Stands k b s) : Stands k b (s.postCompletion c) := by
  unfold State.postCompletion State.placeCompletion
  extract_lets ring e
  exact State.attnRose_stands hk.offRings
    (Stands.ite hs (hk.leave (hk.tally (by decide) (State.placeEntry_stands hk.offRings hs))))

theorem OnPower.flush {n : Nat} (hs : Stands k b s) : Stands k b (State.flush n s) := by
  induction n generalizing s with
  | zero => exact hs
  | succ n ih =>
    unfold State.flush
    split
    · exact Stands.ite (ih (hk.sendHead hs)) hs
    · split
      · split
        · exact ih (hk.postCompletion hs)
        · exact hs
      · exact hs

theorem OnPower.pump (hs : Stands k b s) : Stands k b s.pump := by
  unfold State.pump
  extract_lets v0
  have hv0 : Stands k b v0 := hk.flush hs
  exact Stands.ite hv0 hv0

theorem OnPower.endDataPhases (hs : Stands k b s) : Stands k b s.endDataPhases := by
  unfold State.endDataPhases
  refine foldl_stands hs fun s c hs => ?_
  unfold State.endDataPhase
  split
  · exact Stands.ite hs (hk.complete hs)
  · exact hs

theorem OnPower.enterSafe {kind : Nat} {x : Source} (hs : Stands k b s) : Stands k b (s.enterSafe kind x) := by
  unfold State.enterSafe
  split
  · exact hs
  · extract_lets v0 v1 v2 v3 v4 v5 v6 v7
    have hv1 : Stands k b v1 :=
      State.wr_stands (hk.ne_key (by decide)) (State.wr_stands (hk.ne_key (by decide)) hs)
    have hv3 : Stands k b v3 := hv1
    have hv5 : Stands k b v5 :=
      State.wr_stands (hk.ne_key (by decide)) (State.wr_stands (hk.ne_key (by decide)) hv3)
    have hv7 : Stands k b v7 :=
      State.wr_stands (hk.ne_key (by decide)) (State.wr_stands (hk.ne_key (by decide)) hv5)
    exact hk.endDataPhases (State.bump_stands (hk.ne_key (by decide)) hv7)

theorem OnPower.headerCheck (hs : Stands k b s) : Stands k b s.headerCheck := by
  unfold State.headerCheck
  refine foldl_stands hs fun s e hs => hk.enterSafe (State.wr_stands (Field.key_ne_of_index ?_) hs)
  exact hk.2.symm

theorem OnPower.escEval (hs : Stands k b s) : Stands k b s.escEval := by
  unfold State.escEval
  split
  · exact hs
  · split
    · exact hk.enterSafe hs
    · split
      · extract_lets v0 v1 v2
        have hv0 : Stands k b v0 := State.wr_stands (hk.ne_key (by decide)) hs
        have hv2 : Stands k b v2 := Stands.ite hs (hk.raise (by decide) hv0)
        exact Stands.ite (hk.enterSafe hv2) hv2
      · have hclosed : Stands k b (s.wr Reg.ESCALATE.STATE.PENDING 0) := State.wr_stands (hk.ne_key (by decide)) hs
        exact Stands.ite (State.bump_stands (hk.ne_key (by decide)) (hk.raise (by decide) hclosed)) hs

theorem OnPower.settle (hs : Stands k b s) : Stands k b s.settle := by
  unfold State.settle
  split
  · have hlatched := (hk.headerCheck hs).of_moved (State.relatchAlarm_moved (Within.refl 8192) (Moved.refl _ _)) rfl
    have hsent : Stands k b s.headerCheck.relatchAlarm.escEval.endEdge.pump.endEdge := hk.pump (hk.escEval hlatched)
    exact hsent.of_moved (State.alertUpdate_moved (Within.refl 270336) (Moved.refl _ _)) rfl
  · exact hs

/-! The POWER page over what a change of the flash side brings about. -/

theorem OnPower.endCmd {q status result : Nat} (hs : Stands k b s) : Stands k b (s.endCmd q status result) := by
  unfold State.endCmd
  have hc : Stands k b ((s.withdraw q).complete q status result) := hk.complete hs
  have hswept := hc.of_moved (State.sweepEngines_moved (Within.refl 2048) (Moved.refl _ _)) rfl
  exact hswept.of_moved (State.snapSweep_moved (Within.refl 2048) (Moved.refl _ _)) rfl

theorem OnPower.endTrim {q status : Nat} (hs : Stands k b s) : Stands k b (s.endTrim q status) := by
  unfold State.endTrim
  split
  · refine Stands.ite (Stands.ite hs (Stands.of_moved ?_ (State.addJob_moved (Within.refl 2048) (Moved.refl _ _)) rfl))
      (hk.endCmd hs)
    exact hs
  · exact hs

theorem OnPower.lifeSettle (hs : Stands k b s) : Stands k b s.lifeSettle := by
  unfold State.lifeSettle
  extract_lets v0 v1 v2
  have hv2 : Stands k b v2 := hs
  exact Stands.ite hs (Stands.ite (hk.raise (by decide) hv2) hv2)

theorem OnPower.readOnlySettle (hs : Stands k b s) : Stands k b s.readOnlySettle := by
  unfold State.readOnlySettle
  extract_lets v0 v1 v2 v3
  have hv2 : Stands k b v2 := hs
  exact Stands.ite (foldl_stands (hk.raise (by decide) hv2) fun _ _ h => hk.endTrim h) hv2

theorem OnPower.starveSettle (hs : Stands k b s) : Stands k b s.starveSettle := by
  unfold State.starveSettle
  extract_lets v0 v1
  refine Stands.ite (Stands.ite hs hs) (Stands.ite ?_ hs)
  exact State.bump_stands (hk.ne_key (by decide)) (hk.raise (by decide) hs)

theorem OnPower.patrolSettle (hs : Stands k b s) : Stands k b s.patrolSettle := by
  unfold State.patrolSettle
  exact Stands.ite (hk.raise (by decide) hs) hs

theorem OnPower.debtSettle (hs : Stands k b s) : Stands k b s.debtSettle := by
  unfold State.debtSettle
  extract_lets v0 v1 v2 v3
  have hv2 : Stands k b v2 := hs
  have hv3 : Stands k b v3 := Stands.ite (hk.raise (by decide) hv2) hv2
  exact Stands.ite (hk.raise (by decide) hv3) hv3

theorem OnPower.flashSettle (hs : Stands k b s) : Stands k b s.flashSettle :=
  hk.debtSettle (hk.patrolSettle (hk.starveSettle (hk.readOnlySettle (hk.lifeSettle hs))))

end

end Sys2Proof.Machine
end

section
/-!
The temperature alarm (R423, R424): what a conversion makes of the sensor's state, the event of a rise, and what a conversion
leaves alone of the faults and of the escalation.
-/
namespace Sys2Proof.Machine
open Sys2Proof.Safety

/-- Every value of ten bits in two's complement stands for itself. -/
theorem signed10_encode10 {v : Int} (hlo : -512 ≤ v) (hhi : v < 512) : signed10 (encode10 v) = v := by
  unfold signed10 encode10
  split <;> omega

/-- A conversion reads within the sensor's range, which ten bits hold. -/
theorem signed10_encode10_clampTemp (v : Int) : signed10 (encode10 (clampTemp v)) = clampTemp v := by
  have hrange : -120 ≤ clampTemp v ∧ clampTemp v ≤ 270 := by
    unfold clampTemp
    omega
  exact signed10_encode10 (by omega) (by omega)

/-- The alarm after a conversion that reads `now`, from the alarm before it (R424). -/
def alarmNext (hi hyst now : Int) (alarm : Bool) : Bool :=
  if alarm then !decide (now ≤ hi - hyst) else decide (hi < now)

section
variable {hi hyst now : Int} {alarm : Bool}

theorem alarmNext_of_above (hyst_nonneg : 0 ≤ hyst) (h : hi < now) : alarmNext hi hyst now alarm = true := by
  cases alarm with
  | false => exact decide_eq_true h
  | true => simp only [alarmNext, if_true, Bool.not_eq_true', decide_eq_false_iff_not]; omega

theorem alarmNext_of_below (hyst_nonneg : 0 ≤ hyst) (h : now ≤ hi - hyst) : alarmNext hi hyst now alarm = false := by
  cases alarm with
  | false => exact decide_eq_false (by omega)
  | true => simp only [alarmNext, if_true, h, decide_true, Bool.not_true]

theorem alarmNext_of_between (hlo : hi - hyst < now) (hhi : now ≤ hi) : alarmNext hi hyst now alarm = alarm := by
  cases alarm with
  | false => exact decide_eq_false (by omega)
  | true => simp only [alarmNext, if_true, Bool.not_eq_true', decide_eq_false_iff_not]; omega

end

/-- The sensor's state after a conversion. -/
def State.tempNext (s : State) (v : Nat) : Temperature :=
  { value := encode10 (clampTemp (signed10 v)), valid := true, fresh := false,
    alarm := alarmNext (signed10 (s.rd Reg.POWER.TEMP_CFG.ALARM_HI)) (s.rd Reg.POWER.TEMP_CFG.HYST)
      (clampTemp (signed10 v)) s.temp.alarm }

/-- A conversion in three steps: the sensor's state with MIN and MAX, the event of a rise, and what the alarm and the halvings
bring about in the Crust and on the flash side. -/
theorem State.takeTemp_eq (s : State) (v : Nat) : ∃ lo top : Nat,
    let x := (({ s with temp := s.tempNext v } : State).wr Reg.POWER.TEMP_RANGE.MIN lo).wr Reg.POWER.TEMP_RANGE.MAX top
    let y := if (s.tempNext v).alarm && !s.temp.alarm then x.raise Evt.POWER.TEMP_ALARM else x
    s.takeTemp v = (if (s.tempNext v).alarm then y.relatchAlarm else y).tempFlags :=
  ⟨_, _, rfl⟩

/-- The last step of a conversion moves the Crust and the flash side alone. -/
theorem State.tempFlags_relatchAlarm_moved (y : State) (alarm : Bool) :
    Moved 10240 y (if alarm then y.relatchAlarm else y).tempFlags := by
  have hlatched : Moved 10240 y (if alarm then y.relatchAlarm else y) :=
    Moved.ite (State.relatchAlarm_moved (T := 10240) (by unfold Within; decide) (Moved.refl _ y)) (Moved.refl _ y)
  exact State.tempFlags_moved (by unfold Within; decide) hlatched

theorem State.takeTemp_temp (s : State) (v : Nat) : (s.takeTemp v).temp = s.tempNext v := by
  obtain ⟨lo, top, h⟩ := s.takeTemp_eq v
  rw [h, (State.tempFlags_relatchAlarm_moved _ _).temp_eq rfl]
  split
  · exact (State.raise_moved (Within.refl 194) (Moved.refl _ _)).temp_eq rfl
  · rfl

theorem State.takeTemp_esc (s : State) (v : Nat) : (s.takeTemp v).esc = s.esc :=
  (State.takeTemp_moved (Within.refl 534722) (Moved.refl _ s)).esc_eq rfl

/-- A conversion sets no fault bit. -/
theorem State.takeTemp_faultSticky (s : State) (v page bank : Nat) :
    (s.takeTemp v).rd (faultSticky page bank) = s.rd (faultSticky page bank) := by
  have hk : keyIndex (faultSticky page bank).key = 3 := Field.keyIndex_key _
  obtain ⟨lo, top, h⟩ := s.takeTemp_eq v
  rw [h]
  refine Stands.rd (Stands.of_moved ?_ (State.tempFlags_relatchAlarm_moved _ _) rfl)
  have hx := State.wr_stands (f := Reg.POWER.TEMP_RANGE.MAX) (v := top) (Field.key_ne_of_index (hk ▸ by decide))
    (State.wr_stands (f := Reg.POWER.TEMP_RANGE.MIN) (v := lo) (Field.key_ne_of_index (hk ▸ by decide))
      (Stands.refl (faultSticky page bank).key { s with temp := s.tempNext v }))
  exact Stands.ite (State.raise_stands (.inr hk) (attnSticky_ne_of_faultKey hk _ _) hx) hx

theorem tempAlarm_onPower : OnPower (attnSticky 0x26 0).key := ⟨by decide, by decide⟩

/-- The conversion on which the alarm rises leaves the sticky bit TEMP_ALARM at 1. -/
theorem State.takeTemp_sets_tempAlarm {s : State} {v : Nat} (hbefore : s.temp.alarm = false)
    (hafter : (s.tempNext v).alarm = true) : bitAt ((s.takeTemp v).rd (attnSticky 0x26 0)) 0 = true := by
  obtain ⟨lo, top, h⟩ := s.takeTemp_eq v
  rw [h]
  unfold State.rd
  rw [(State.tempFlags_relatchAlarm_moved _ _).regs_eq rfl, hbefore, hafter]
  exact State.raise_sets_sticky _ Evt.POWER.TEMP_ALARM 0 tempAlarm_onPower.offRings (by decide)

/-- What a conversion brings about on the flash side and the end of the step leave the sensor's state as it stands. -/
theorem State.flashSettle_settle_temp (x : State) : x.flashSettle.settle.temp = x.temp :=
  ((State.settle_moved (Within.refl endParts) (Moved.refl _ _)).temp_eq (by decide)).trans
    ((State.flashSettle_moved (Within.refl 2558) (Moved.refl _ x)).temp_eq (by decide))

theorem tempConversion_moves {s : State} (hc : s.clocked = true) (v : Nat) :
    Moves (.tempConversion (some v)) s (s.takeTemp v).flashSettle (s.takeTemp v).flashSettle.settle :=
  moves_done (by
    change execTempConversion (some v) s = _
    rw [execTempConversion, if_pos hc])

/-- Settles O29: the alarm follows `alarmNext` with the hysteresis, the event of a rise stands on the POWER page, which nothing of
the rest of the step writes, and a conversion writes no fault bit and nothing of the escalation. -/
theorem temperatureAlarm : Obligations.TemperatureAlarm := by
  intro s v hc
  have hhyst : (0 : Int) ≤ (s.rd Reg.POWER.TEMP_CFG.HYST : Nat) := Int.natCast_nonneg _
  have htemp : (s.takeTemp v).flashSettle.settle.temp = s.tempNext v :=
    (State.flashSettle_settle_temp _).trans (s.takeTemp_temp v)
  have hvalue : signed10 (s.tempNext v).value = clampTemp (signed10 v) := signed10_encode10_clampTemp _
  refine ⟨_, tempConversion_moves hc v, ?_, ?_, ?_, ?_, s.takeTemp_faultSticky v, s.takeTemp_esc v⟩
  · rw [htemp, hvalue]
    exact alarmNext_of_above hhyst
  · rw [htemp, hvalue]
    exact alarmNext_of_below hhyst
  · rw [htemp, hvalue]
    exact alarmNext_of_between
  · rw [htemp]
    intro hbefore hafter
    have hstands := tempAlarm_onPower.settle (tempAlarm_onPower.flashSettle (Stands.refl _ (s.takeTemp v)))
    rw [hstands.rd]
    exact State.takeTemp_sets_tempAlarm hbefore hafter

end Sys2Proof.Machine
end

section
/-!
The IDCODE register (R450): the four fields of the word, laid side by side, and the capture of the word by a powered port.
-/
namespace Sys2Proof.Machine

/-- The fields of IDCODE do not overlap, so the word is their sum: STEP above PART_NO above the twelve fixed bits. -/
theorem State.idCode_eq {s : State} (hpart : s.fuses.part < 65536) :
    s.idCode = s.fuses.step % 16 * 2 ^ 28 + s.fuses.part * 2 ^ 12 + 0xDCB := by
  have hfixed : 0xDCB < 2 ^ 12 := by decide
  have hlow : s.fuses.part <<< 12 + 0xDCB < 2 ^ 28 := by
    rw [Nat.shiftLeft_eq]
    omega
  calc s.idCode
      = (s.fuses.step % 16) <<< 28 ||| (s.fuses.part <<< 12 ||| 0xDCB) := by
        simp only [State.idCode, Nat.or_assoc]
        rfl
    _ = (s.fuses.step % 16) <<< 28 + (s.fuses.part <<< 12 + 0xDCB) := by
        rw [← Nat.shiftLeft_add_eq_or_of_lt hfixed, ← Nat.shiftLeft_add_eq_or_of_lt hlow]
    _ = s.fuses.step % 16 * 2 ^ 28 + s.fuses.part * 2 ^ 12 + 0xDCB := by
        rw [Nat.shiftLeft_eq, Nat.shiftLeft_eq, Nat.add_assoc]

theorem State.idCode_fields {s : State} (hpart : s.fuses.part < 65536) :
    bitsOf s.idCode 28 4 = s.fuses.step % 16 ∧ bitsOf s.idCode 12 16 = s.fuses.part ∧
      bitsOf s.idCode 1 11 = 0x6E5 ∧ bitsOf s.idCode 0 1 = 1 ∧ s.idCode < 2 ^ 32 := by
  simp only [bitsOf, Nat.shiftRight_eq_div_pow, State.idCode_eq hpart]
  refine ⟨?_, ?_, ?_, ?_, ?_⟩ <;> omega

/-- IDCODE on stepping 1. -/
theorem State.idCode_of_step_one {s : State} {part : Nat} (hstep : s.fuses.step = 1) (hpart : s.fuses.part = part)
    (hlt : part < 65536) : s.idCode = 0x10000DCB + part * 2 ^ 12 := by
  rw [State.idCode_eq (hpart ▸ hlt), hstep, hpart]
  omega

/-- IDCODE is put in force on a powered port in and outside factory test mode: it is not one of the instructions that drive the
balls. -/
theorem State.tapSelect_idcode_of_powered {s : State} (h : s.tapPowered = true) (captured : Nat) :
    s.tapSelect .idcode captured = { s with tap := { s.tap with instr := .idcode, captured := captured } } := by
  have hcontrols : (TapInstr.idcode == .extest || TapInstr.idcode == .highz || TapInstr.idcode == .clamp) = false := by decide
  simp only [State.tapSelect, h, hcontrols, Bool.not_true, Bool.false_and, Bool.false_eq_true, if_false]

/-- Settles O59: the fields and the three values are read off the sum of `State.idCode_eq`, and a powered port takes the word. -/
theorem idcodeRegister : Obligations.IdcodeRegister := by
  refine ⟨fun s hpart => State.idCode_fields hpart, fun s hstep => ?_, fun s hpowered => ?_⟩
  · have hvalue {part : Nat} (hlt : part < 65536) (hpart : s.fuses.part = part) := State.idCode_of_step_one hstep hpart hlt
    exact ⟨hvalue (by decide), hvalue (by decide), hvalue (by decide)⟩
  · have hexec : exec .idcode s = .next (s.tapSelect .idcode s.idCode) := rfl
    exact ⟨_, hexec, by rw [State.tapSelect_idcode_of_powered hpowered]⟩

end Sys2Proof.Machine
end

section
/-!
Every command answers a next state, and what it may change of the card: the parts that `touches` lists, as a set of parts.
-/
namespace Sys2Proof.Machine
open Sys2Proof.Safety

/-- No arm of the dispatch faults or refuses: every branch ends in a next state. -/
theorem exec_next (i : Instr) (s : State) : ∃ t, exec i s = .next t := by
  cases i
  all_goals try exact ⟨_, rfl⟩
  all_goals dsimp only [exec,
    execSleepVeto, execVetoWindowEnd, execAbortTakesEffect, execWrite, execBarrierRelease, execSliceResetEnd,
    execSliceSoftReset, execCmdFrame, execCommandDecode, execStagingReserved, execDataDn, execLinkctl,
    execFrameDiscard, execNakReplay, execReplayTimeout, execLinkctlIdleAck, execTsd, execTse, execReturnToIdRequest,
    execReturnToIdComplete, execIdCommandFrame, execIdReceiverResync, execSwitchRegulated, execSwitchConfirm,
    execSwitchCancel, execSwitchTimeout, execProgressInterval, execArbiterGrant, execDieReady, execGrantWatchdogBite,
    execHardDecodeDone, execSoftDecodeDone, execMapPageResident, execBlockErase, execPageRelocation,
    execRefreshRelocation, execVerificationRead, execPatrolStart, execReconfiguration, execPowerOn, execResetRelease,
    execPowerUpRecovery, execDetNArm, execRstN, execLinkSystemReset, execCoreResetHalt, execCoreResetRestart,
    execBlockSoftReset, execBlockSoftResetEnd, execBlockIsolate, execBlockEnable, execRemovalTrigger,
    execRemovalRbWaitEnd, execRemovalRestart, execHoldDroop, execCrustPowerOn, execSleepEntry, execWakePattern,
    execWakeForce, execWakeCauseClear, execLeaseExpired, execTempConversion, execFaultSourceError, execGraceExpiry,
    execHdrParity, execStageEcc, execAlertReadback, execFaultGraceWrite, execInject, execCapacityWrite,
    execCapacityLowerLand, execMapPin, execAuthClear, execBindKeyWrite, execQosWrite, execHwmClr, execWmCrossClear,
    execOptionStageLoad, execOptionCommit, execOptionCommitDone, execTempRangeClr, execCrustLostClear,
    execFuseProgram, execTestSeal, execKeyProgram, execKeyRevoke, execFuseProgramDone, execWdStop, execSamplePreload,
    execTrstN, execVccLoss, execVholdOk, execEnableWrite, execFaultHandling, execAlertControlWrite]
  all_goals repeat' split
  all_goals exact ⟨_, rfl⟩

/-- A list of parts as a set. -/
def partsOf : List Part → Nat
  | [] => 0
  | p :: l => 2 ^ partBit p ||| partsOf l

theorem partBit_injective {p r : Part} (h : partBit p = partBit r) : p = r := by
  cases p <;> cases r <;> simp_all [partBit]

theorem partsOf_testBit_of_not_mem {p : Part} {l : List Part} (h : p ∉ l) : (partsOf l).testBit (partBit p) = false := by
  induction l with
  | nil => exact Nat.zero_testBit _
  | cons r l ih =>
    have hbit : ¬ partBit r = partBit p := fun e => h (partBit_injective e ▸ List.mem_cons_self)
    have hl : p ∉ l := fun hmem => h (List.mem_cons_of_mem _ hmem)
    rw [partsOf, Nat.testBit_or, Nat.testBit_two_pow, ih hl, decide_eq_false hbit, Bool.or_self]

/-- Each row moves the parts that `touches` lists for it. -/
theorem exec_moves_touched (i : Instr) (s : State) : MovedA (partsOf (touches i)) s (exec i s) := by
  cases i <;> dsimp only [touches]
  · exact execNop_moved (by exact rfl) (.refl _ s)
  · exact execIdentify_moved (by exact rfl) (.refl _ s)
  · exact execAssignAddress_moved (by exact rfl) (.refl _ s)
  · exact execSwitch_moved (by exact rfl) (.refl _ s)
  · exact execDeclareClock_moved (by exact rfl) (.refl _ s)
  · exact execDeclareClockCountsLoad_moved (by exact rfl) (.refl _ s)
  · exact execHello_moved (by exact rfl) (.refl _ s)
  · exact execHelloEpochRecord_moved (by exact rfl) (.refl _ s)
  · exact execSleepPropose_moved (by exact rfl) (.refl _ s)
  · exact execSleepVeto_moved (by exact rfl) (.refl _ s)
  · exact execVetoWindowEnd_moved (by exact rfl) (.refl _ s)
  · exact execSleepCommit_moved (by exact rfl) (.refl _ s)
  · exact execSleepCommitComplete_moved (by exact rfl) (.refl _ s)
  · exact execReset_moved (by exact rfl) (.refl _ s)
  · exact execAbort_moved (by exact rfl) (.refl _ s)
  · exact execAbortTakesEffect_moved (by exact rfl) (.refl _ s)
  · exact execRead_moved (by exact rfl) (.refl _ s)
  · exact execWrite_moved (by exact rfl) (.refl _ s)
  · exact execTrim_moved (by exact rfl) (.refl _ s)
  · exact execBarrier_moved (by exact rfl) (.refl _ s)
  · exact execBarrierRelease_moved (by exact rfl) (.refl _ s)
  · exact execVerify_moved (by exact rfl) (.refl _ s)
  · exact execRest_moved (by exact rfl) (.refl _ s)
  · exact execRestComplete_moved (by exact rfl) (.refl _ s)
  · exact execRegread_moved (by exact rfl) (.refl _ s)
  · exact execRegwrite_moved (by exact rfl) (.refl _ s)
  · exact execSliceCreate_moved (by exact rfl) (.refl _ s)
  · exact execSliceBindChallenge_moved (by exact rfl) (.refl _ s)
  · exact execSliceBindAnswer_moved (by exact rfl) (.refl _ s)
  · exact execSliceUnbind_moved (by exact rfl) (.refl _ s)
  · exact execSliceUnbindComplete_moved (by exact rfl) (.refl _ s)
  · exact execSliceLock_moved (by exact rfl) (.refl _ s)
  · exact execSliceUnlock_moved (by exact rfl) (.refl _ s)
  · exact execSliceReset_moved (by exact rfl) (.refl _ s)
  · exact execSliceResetEnd_moved (by exact rfl) (.refl _ s)
  · exact execSliceSoftReset_moved (by exact rfl) (.refl _ s)
  · exact execSliceDestroy_moved (by exact rfl) (.refl _ s)
  · exact execSliceDestroyComplete_moved (by exact rfl) (.refl _ s)
  · exact execFwStage_moved (by exact rfl) (.refl _ s)
  · exact execFwActivate_moved (by exact rfl) (.refl _ s)
  · exact execFwConfirm_moved (by exact rfl) (.refl _ s)
  · exact execAttnFetch_moved (by exact rfl) (.refl _ s)
  · exact execSelftest_moved (by exact rfl) (.refl _ s)
  · exact execCmdFrame_moved (by exact rfl) (.refl _ s)
  · exact execCommandDecode_moved (by exact rfl) (.refl _ s)
  · exact execStagingReserved_moved (by exact rfl) (.refl _ s)
  · exact execDataDn_moved (by exact rfl) (.refl _ s)
  · exact execLinkctl_moved (by exact rfl) (.refl _ s)
  · exact execFrameDiscard_moved (by exact rfl) (.refl _ s)
  · exact execNakReplay_moved (by exact rfl) (.refl _ s)
  · exact execReplayTimeout_moved (by exact rfl) (.refl _ s)
  · exact execLinkctlIdleAck_moved (by exact rfl) (.refl _ s)
  · exact execTsd_moved (by exact rfl) (.refl _ s)
  · exact execTse_moved (by exact rfl) (.refl _ s)
  · exact execReturnToIdRequest_moved (by exact rfl) (.refl _ s)
  · exact execReturnToIdComplete_moved (by exact rfl) (.refl _ s)
  · exact execIdCommandFrame_moved (by exact rfl) (.refl _ s)
  · exact execIdReceiverResync_moved (by exact rfl) (.refl _ s)
  · exact execSwitchRegulated_moved (by exact rfl) (.refl _ s)
  · exact execSwitchConfirm_moved (by exact rfl) (.refl _ s)
  · exact execSwitchCancel_moved (by exact rfl) (.refl _ s)
  · exact execSwitchTimeout_moved (by exact rfl) (.refl _ s)
  · exact execProgressInterval_moved (by exact rfl) (.refl _ s)
  · exact execArbiterGrant_moved (by exact rfl) (.refl _ s)
  · exact execDieReady_moved (by exact rfl) (.refl _ s)
  · exact execGrantWatchdogBite_moved (by exact rfl) (.refl _ s)
  · exact execHardDecodeDone_moved (by exact rfl) (.refl _ s)
  · exact execSoftDecodeDone_moved (by exact rfl) (.refl _ s)
  · exact execMapPageResident_moved (by exact rfl) (.refl _ s)
  · exact execBlockErase_moved (by exact rfl) (.refl _ s)
  · exact execPageRelocation_moved (by exact rfl) (.refl _ s)
  · exact execRefreshRelocation_moved (by exact rfl) (.refl _ s)
  · exact execVerificationRead_moved (by exact rfl) (.refl _ s)
  · exact execPatrolStart_moved (by exact rfl) (.refl _ s)
  · exact execReconfiguration_moved (by exact rfl) (.refl _ s)
  · exact execPowerOn_moved (by exact rfl) (.refl _ s)
  · exact execResetRelease_moved (by exact rfl) (.refl _ s)
  · exact execPowerUpRecovery_moved (by exact rfl) (.refl _ s)
  · exact execDetNArm_moved (by exact rfl) (.refl _ s)
  · exact execRstN_moved (by exact rfl) (.refl _ s)
  · exact execLinkSystemReset_moved (by exact rfl) (.refl _ s)
  · exact execCoreResetHalt_moved (by exact rfl) (.refl _ s)
  · exact execCoreResetRestart_moved (by exact rfl) (.refl _ s)
  · exact execBlockSoftReset_moved (by exact rfl) (.refl _ s)
  · exact execBlockSoftResetEnd_moved (by exact rfl) (.refl _ s)
  · exact execBlockIsolate_moved (by exact rfl) (.refl _ s)
  · exact execBlockEnable_moved (by exact rfl) (.refl _ s)
  · exact execRemovalTrigger_moved (by exact rfl) (.refl _ s)
  · exact execRemovalRbWaitEnd_moved (by exact rfl) (.refl _ s)
  · exact execRemovalRestart_moved (by exact rfl) (.refl _ s)
  · exact execHoldDroop_moved (by exact rfl) (.refl _ s)
  · exact execCrustPowerOn_moved (by exact rfl) (.refl _ s)
  · exact execSleepEntry_moved (by exact rfl) (.refl _ s)
  · exact execWakePattern_moved (by exact rfl) (.refl _ s)
  · exact execWakeForce_moved (by exact rfl) (.refl _ s)
  · exact execWakeCauseClear_moved (by exact rfl) (.refl _ s)
  · exact execLeaseExpired_moved (by exact rfl) (.refl _ s)
  · exact execTempConversion_moved (by exact rfl) (.refl _ s)
  · exact execFaultSourceError_moved (by exact rfl) (.refl _ s)
  · exact execGraceExpiry_moved (by exact rfl) (.refl _ s)
  · exact execHdrParity_moved (by exact rfl) (.refl _ s)
  · exact execStageEcc_moved (by exact rfl) (.refl _ s)
  · exact execAlertReadback_moved (by exact rfl) (.refl _ s)
  · exact execFaultGraceWrite_moved (by exact rfl) (.refl _ s)
  · exact execInject_moved (by exact rfl) (.refl _ s)
  · exact execCapacityWrite_moved (by exact rfl) (.refl _ s)
  · exact execCapacityLowerLand_moved (by exact rfl) (.refl _ s)
  · exact execMapPin_moved (by exact rfl) (.refl _ s)
  · exact execAuthClear_moved (by exact rfl) (.refl _ s)
  · exact execBindKeyWrite_moved (by exact rfl) (.refl _ s)
  · exact execQosWrite_moved (by exact rfl) (.refl _ s)
  · exact execHwmClr_moved (by exact rfl) (.refl _ s)
  · exact execWmCrossClear_moved (by exact rfl) (.refl _ s)
  · exact execOptionStageLoad_moved (by exact rfl) (.refl _ s)
  · exact execOptionCommit_moved (by exact rfl) (.refl _ s)
  · exact execOptionCommitDone_moved (by exact rfl) (.refl _ s)
  · exact execTempRangeClr_moved (by exact rfl) (.refl _ s)
  · exact execCrustLostClear_moved (by exact rfl) (.refl _ s)
  · exact execFuseProgram_moved (by exact rfl) (.refl _ s)
  · exact execTestSeal_moved (by exact rfl) (.refl _ s)
  · exact execKeyProgram_moved (by exact rfl) (.refl _ s)
  · exact execKeyRevoke_moved (by exact rfl) (.refl _ s)
  · exact execFuseProgramDone_moved (by exact rfl) (.refl _ s)
  · exact execWdStop_moved (by exact rfl) (.refl _ s)
  · exact execExtest_moved (by exact rfl) (.refl _ s)
  · exact execSamplePreload_moved (by exact rfl) (.refl _ s)
  · exact execIdcode_moved (by exact rfl) (.refl _ s)
  · exact execHighz_moved (by exact rfl) (.refl _ s)
  · exact execClamp_moved (by exact rfl) (.refl _ s)
  · exact execBypass_moved (by exact rfl) (.refl _ s)
  · exact execTrstN_moved (by exact rfl) (.refl _ s)
  · exact execVccLoss_moved (by exact rfl) (.refl _ s)
  · exact execVbakLoss_moved (by exact rfl) (.refl _ s)
  · exact execVholdOk_moved (by exact rfl) (.refl _ s)
  · exact execEnableWrite_moved (by exact rfl) (.refl _ s)
  · exact execFaultHandling_moved (by exact rfl) (.refl _ s)
  · exact execAlertControlWrite_moved (by exact rfl) (.refl _ s)

/-- A next state with the parts in which it differs. -/
theorem exec_next_only (i : Instr) (s : State) : ∃ t, exec i s = .next t ∧ Only (touches i) s t := by
  obtain ⟨t, ht⟩ := exec_next i s
  have hmoved := exec_moves_touched i s
  rw [ht] at hmoved
  exact ⟨t, ht, hmoved.agree.only fun _ => partsOf_testBit_of_not_mem⟩

/-- Settles O6: every arm ends in a next state and moves only the parts listed for it. -/
theorem commandsChangeOnlyTheirParts : Obligations.CommandsChangeOnlyTheirParts := exec_next_only

/-! Every step. -/

/-- A step leaves nothing broken: with a command it is that command on the card with the queue's rest, without one an edge. -/
theorem step_keeps {s t : State} (h : step s = .next t) : ∃ rest, Keeps { s with pending := rest } t := by
  unfold step at h
  split at h
  · cases h
    exact ⟨s.pending, (tick_moved (Within.refl 1327102) (Moved.refl _ s)).keeps⟩
  · rename_i c rest _
    have hmoved := exec_moved (Within.refl 16777214) (i := c) (Moved.refl _ { s with pending := rest })
    rw [h] at hmoved
    exact ⟨rest, hmoved.keeps⟩

/-- Settles O3: what is well formed does not speak of the queue, and neither a command nor an edge breaks it. -/
theorem everyStepKeepsForm : Obligations.EveryStepKeepsForm := by
  intro s t hwf h
  obtain ⟨_, hkeeps⟩ := step_keeps h
  exact hkeeps.wf hwf

/-- Settles O5: neither a command nor an edge changes a factory fuse or mends the seal. -/
theorem factoryFusesStand : Obligations.FactoryFusesStand := by
  intro s t _ h
  obtain ⟨_, hkeeps⟩ := step_keeps h
  exact hkeeps.fuses

/-- Settles O1: a step on a queue with a front is that command, by definition of `step`. -/
theorem stepRunsFrontCommand : Obligations.StepRunsFrontCommand := fun _ _ => rfl

/-- The parts that an edge may change. -/
theorem tick_only (s : State) : Only (stepParts ++ [.slices, .shelf, .flash, .power, .fuses]) s (tick s) :=
  (tick_moved (T := partsOf (stepParts ++ [.slices, .shelf, .flash, .power, .fuses])) (by exact rfl) (Moved.refl _ s)).agree.only
    fun _ => partsOf_testBit_of_not_mem

/-- Settles O2: a step on an empty queue is `tick`, which stands still with the clocked logic. -/
theorem emptyQueueIsOneEdge : Obligations.EmptyQueueIsOneEdge := by
  intro s hq
  have hstep : step s = .next (tick s) := by rw [step, hq]
  have hpending : (tick s).pending = s.pending := (tick_moved (Within.refl 1327102) (Moved.refl _ s)).keeps.pending
  refine ⟨tick s, hstep, hpending.trans hq, fun hstill => ?_, tick_only s⟩
  rw [tick, hstill]
  rfl

end Sys2Proof.Machine
end

section
/-!
Further rules of the state: registers of other keys, parts that an operation does not move, cells of a store of 16 bits, and
what completing a command writes of the registers.
-/
namespace Sys2Proof.Machine
open Sys2Proof.Safety

/-! Keys of fields. -/

theorem Field.key_mod (f : Field) : f.key % 32 = f.lo % 32 := by
  unfold Field.key levelCode
  cases f.level <;> simp only <;> omega

/-- Fields at different places of a page, or on different pages, have different keys. The premise is closed by `rfl` where the
places are literals, whatever the banks are. -/
theorem Field.key_ne {f g : Field}
    (h : (f.page % 64 == g.page % 64 && f.index % 32 == g.index % 32 && f.lo % 32 == g.lo % 32) = false) : f.key ≠ g.key := by
  intro e
  have hpage : f.page % 64 = g.page % 64 := by rw [← f.keyPage_key, ← g.keyPage_key, e]
  have hindex : f.index % 32 = g.index % 32 := by rw [← f.keyIndex_key, ← g.keyIndex_key, e]
  have hlo : f.lo % 32 = g.lo % 32 := by rw [← f.key_mod, ← g.key_mod, e]
  simp [hpage, hindex, hlo] at h

/-- A field of another place reads on as it did. -/
theorem State.rd_wr_other (s : State) {f g : Field} (v : Nat)
    (h : (g.page % 64 == f.page % 64 && g.index % 32 == f.index % 32 && g.lo % 32 == f.lo % 32) = false) :
    (s.wr f v).rd g = s.rd g :=
  s.rd_wr_ne f g v (Field.key_ne h)

/-- A value that fits a field of ones reads back as written. -/
theorem State.rd_wr_of_lt (s : State) {f : Field} {v w : Nat} (hmask : f.mask = ones w) (hv : v < 2 ^ w) :
    (s.wr f v).rd f = v := by
  rw [State.rd_wr_self, hmask, ones, Nat.and_two_pow_sub_one_of_lt_two_pow hv]

/-- Every count stays within its width, so a raised counter reads back as raised. -/
theorem State.rd_bump_self (s : State) {f : Field} (n : Nat) (hmask : f.mask = ones f.width) :
    (s.bump f n).rd f = satAdd (s.rd f) n (ones f.width) := by
  refine s.rd_wr_of_lt hmask ?_
  have hpos : 0 < 2 ^ f.width := Nat.two_pow_pos _
  unfold satAdd ones
  omega

theorem State.rd_bump_other (s : State) {f g : Field} (n : Nat)
    (h : (g.page % 64 == f.page % 64 && g.index % 32 == f.index % 32 && g.lo % 32 == f.lo % 32) = false) :
    (s.bump f n).rd g = s.rd g :=
  s.rd_wr_other _ h

/-! Parts that stand. -/

/-- A part outside the set that an operation moves stands. -/
theorem Moved.same {T : Nat} {b t : State} (h : Moved T b t) (p : Part) (hT : T.testBit (partBit p) = false) : p.Same b t :=
  (h.agree p).elim (fun x => absurd (hT.symm.trans x) Bool.false_ne_true) id

/-! Registers under the completion of commands: the count of Quiet points alone is written. -/

section
variable {k : Nat} (hk : Reg.CLOCK.STILL_ENTRIES.COUNT.key ≠ k) {b s : State}
include hk

theorem State.leave_stands {q : Nat} (hs : Stands k b s) : Stands k b (s.leave q) := by
  unfold State.leave
  split
  · exact hs
  · extract_lets v0 v1 v2
    have hv1 : Stands k b v1 := hs
    have hv2 : Stands k b v2 := Stands.ite (State.bump_stands hk hv1) hv1
    exact hv2.of_moved (State.answerAborts_moved (Within.refl 20) (Moved.refl _ _)) rfl

theorem State.complete_stands {q status result data dataLen : Nat} (hs : Stands k b s) :
    Stands k b (s.complete q status result data dataLen) := by
  unfold State.complete
  split
  · exact hs
  · split
    · exact hs
    · extract_lets v0 v1 v2 v3 v4 v5 v6 v7 v8
      have hv0 : Stands k b v0 := hs.of_moved (State.spendNonce_moved (Within.refl 256) (Moved.refl _ _)) rfl
      have hv8 : Stands k b v8 := hv0
      split
      · exact State.leave_stands hk hv0
      · exact hv8.of_moved (State.owe_moved (Within.refl 4) (Moved.refl _ _)) rfl

theorem State.endDataPhases_stands (hs : Stands k b s) : Stands k b s.endDataPhases := by
  unfold State.endDataPhases
  refine foldl_stands hs fun s c hs => ?_
  unfold State.endDataPhase
  split
  · exact Stands.ite hs (State.complete_stands hk hs)
  · exact hs

end

/-- Entering the Safe state on a card that is not in it: the writes, in their order, before the data phases end. -/
def State.safeEntry (s : State) (kind : Nat) (x : Source) : State :=
  ((((((({ (s.wr Reg.ESCALATE.STATE.SAFE 1).wr Reg.ESCALATE.STATE.PENDING 0 with esc := { s.esc with count := 0 } } : State).wr
    Reg.ESCALATE.SAFE_CAUSE.KIND kind).wr Reg.ESCALATE.SAFE_CAUSE.PAGE x.1).wr
    Reg.ESCALATE.SAFE_CAUSE.BANK (if banked x.1 then x.2.1 else 0xFF)).wr Reg.ESCALATE.SAFE_CAUSE.BIT x.2.2)).bump
    Reg.DEBUG.COUNTS.SAFE_ENTRIES)

theorem State.enterSafe_of_safe {s : State} (h : s.safe = true) (kind : Nat) (x : Source) : s.enterSafe kind x = s := by
  unfold State.enterSafe
  rw [if_pos h]

theorem State.enterSafe_of_not_safe {s : State} (h : s.safe = false) (kind : Nat) (x : Source) :
    s.enterSafe kind x = (s.safeEntry kind x).endDataPhases := by
  unfold State.enterSafe
  rw [if_neg (by rw [h]; decide)]
  rfl

/-- Ending data phases moves no register of the ESCALATE page. -/
theorem State.endDataPhases_rd (s : State) {f : Field}
    (h : (Reg.CLOCK.STILL_ENTRIES.COUNT.page % 64 == f.page % 64 && Reg.CLOCK.STILL_ENTRIES.COUNT.index % 32 == f.index % 32 &&
      Reg.CLOCK.STILL_ENTRIES.COUNT.lo % 32 == f.lo % 32) = false) : s.endDataPhases.rd f = s.rd f :=
  (State.endDataPhases_stands (Field.key_ne h) (Stands.refl _ s)).rd

/-- Settles O12: the registers of the entry are written one behind the other at different places, and what ends the data phases
writes none of them. -/
theorem safeCauseRecordedOnce : Obligations.SafeCauseRecordedOnce := by
  refine ⟨fun s k x h => State.enterSafe_of_safe h k x, fun s k page bank bit hsafe hk hpage hbank hbit => ?_⟩
  have hcause : (if banked page then bank else 0xFF) < 2 ^ 8 := by split <;> omega
  rw [State.enterSafe_of_not_safe hsafe]
  dsimp only
  refine ⟨?_, ?_, ?_, ?_, ?_, ?_⟩
  · unfold State.safe State.bit
    rw [State.endDataPhases_rd _ rfl, State.safeEntry, State.rd_bump_other _ _ rfl, State.rd_wr_other _ _ rfl,
      State.rd_wr_other _ _ rfl, State.rd_wr_other _ _ rfl, State.rd_wr_other _ _ rfl, beq_iff_eq]
    change ((s.wr Reg.ESCALATE.STATE.SAFE 1).wr Reg.ESCALATE.STATE.PENDING 0).rd Reg.ESCALATE.STATE.SAFE = 1
    rw [State.rd_wr_other _ _ rfl, s.rd_wr_of_lt (w := 1) rfl (by decide)]
  · unfold State.escPending State.bit
    rw [State.endDataPhases_rd _ rfl, State.safeEntry, State.rd_bump_other _ _ rfl, State.rd_wr_other _ _ rfl,
      State.rd_wr_other _ _ rfl, State.rd_wr_other _ _ rfl, State.rd_wr_other _ _ rfl, beq_eq_false_iff_ne]
    change ((s.wr Reg.ESCALATE.STATE.SAFE 1).wr Reg.ESCALATE.STATE.PENDING 0).rd Reg.ESCALATE.STATE.PENDING ≠ 1
    rw [State.rd_wr_of_lt _ (w := 1) rfl (by decide)]
    decide
  · rw [State.endDataPhases_rd _ rfl, State.safeEntry, State.rd_bump_other _ _ rfl, State.rd_wr_other _ _ rfl,
      State.rd_wr_other _ _ rfl, State.rd_wr_other _ _ rfl, State.rd_wr_of_lt _ (w := 3) rfl hk]
  · rw [State.endDataPhases_rd _ rfl, State.safeEntry, State.rd_bump_other _ _ rfl, State.rd_wr_other _ _ rfl,
      State.rd_wr_other _ _ rfl, State.rd_wr_of_lt _ (w := 8) rfl (by omega)]
  · rw [State.endDataPhases_rd _ rfl, State.safeEntry, State.rd_bump_other _ _ rfl, State.rd_wr_of_lt _ (w := 5) rfl (by omega)]
  · rw [State.endDataPhases_rd _ rfl, State.safeEntry, State.rd_bump_other _ _ rfl, State.rd_wr_other _ _ rfl,
      State.rd_wr_of_lt _ (w := 8) rfl hcause]

end Sys2Proof.Machine
end


section
/-!
The card at reset, the completion of commands, the numbering of attention entries (R201, R203) and the counts of the Crust (R318).
-/
namespace Sys2Proof.Machine
open Sys2Proof.Safety

/-! Reset. -/

/-- At reset the register store lists nothing, so every field reads its reset value. -/
theorem State.reset_rd (f : Field) : State.reset.rd f = f.reset := Nat.zero_xor _

theorem State.reset_slice (i : Nat) : State.reset.slice i = Slice.free := by
  unfold State.slice State.reset
  rcases Nat.lt_or_ge i 64 with h | h
  · rw [List.getD_eq_getElem _ _ (by simpa using h), List.getElem_replicate]
  · rw [List.getD_eq_default _ _ (by simpa using h)]

/-- Settles O4: the stores at reset are listed out, the Slices are 64 copies of a FREE one, and the other parts are as given. -/
theorem resetState : Obligations.ResetState :=
  ⟨⟨rfl, ⟨rfl, rfl⟩, ⟨rfl, rfl⟩, rfl⟩, State.reset_rd, rfl, rfl, rfl, rfl, rfl, State.reset_slice, rfl, rfl, rfl⟩

/-! Completion. -/

theorem State.complete_of_absent {s : State} {q : Nat} (h : s.cmd? q = none) (st r : Nat) : s.complete q st r = s := by
  unfold State.complete
  rw [h]

theorem State.complete_of_done {s : State} {q : Nat} {c : Cmd} (h : s.cmd? q = some c) (hd : c.done? = true) (st r : Nat) :
    s.complete q st r = s := by
  unfold State.complete
  rw [h]
  exact if_pos hd

/-- Settles O7: completing acts on an open command alone, and `State.complete_fixed` says that its status stands at the end of the
step. -/
theorem statusFixedOnce : Obligations.StatusFixedOnce := by
  refine ⟨fun s q st r h => State.complete_of_absent h st r, fun s q st r c h hd => State.complete_of_done h hd st r,
    fun s q st r c h hd => ?_⟩
  exact State.complete_fixed (data := 0) h hd

/-! Crust cells. -/

/-- Settles O9: a cell write is one write of the store, made while VBAK is present. -/
theorem crustCellWrites : Obligations.CrustCellWrites :=
  fun s n v => ⟨fun h m => State.cell_setCell s n m v h, State.setCell_absent s n v⟩

/-- A cell of a store of 16 bits. -/
theorem storeRead_lt {m : Store} (h : store16 m = true) (k : Nat) : storeRead m k < 65536 := by
  induction m with
  | nil => exact Nat.zero_lt_succ _
  | cons e m ih =>
    simp only [store16, List.all_cons, Bool.and_eq_true, decide_eq_true_eq] at h
    unfold storeRead
    split
    · exact h.1
    · exact ih h.2

theorem State.cell_lt {s : State} (h : wf s) (n : Nat) : s.cell n < 65536 := storeRead_lt h.2.1.2 n

/-- The word of a carry that INCREMENT48 leaves pending over `mid` and `high` (R318). -/
def carryWord (mid high : Nat) : Nat :=
  0x8000 + (if mid = 0xFFFF then 0x4000 + 2 * ((high + 1) % 2) else 0) + (mid + 1) % 2

theorem bitAt_eq_div (x i : Nat) : bitAt x i = (x / 2 ^ i % 2 == 1) := by
  rw [bitAt, Nat.shiftRight_eq_div_pow]

theorem carryWord_pending (mid high : Nat) : bitAt (carryWord mid high) 15 = true := by
  rw [bitAt_eq_div, beq_iff_eq, carryWord]
  split <;> omega

theorem carryWord_toHigh (mid high : Nat) : bitAt (carryWord mid high) 14 = decide (mid = 0xFFFF) := by
  rw [bitAt_eq_div, carryWord]
  split
  · rename_i h
    rw [decide_eq_true h, beq_iff_eq]
    omega
  · rename_i h
    rw [decide_eq_false h, beq_eq_false_iff_ne]
    omega

theorem carryWord_mid (mid high : Nat) : carryWord mid high % 2 = (mid + 1) % 2 := by
  rw [carryWord]
  split <;> omega

theorem carryWord_high {mid high : Nat} (h : mid = 0xFFFF) : bit01 (bitAt (carryWord mid high) 1) = (high + 1) % 2 := by
  rw [bitAt_eq_div, carryWord, if_pos h, bit01]
  rcases Nat.mod_two_eq_zero_or_one (high + 1) with hb | hb
  · rw [hb, if_neg (by rw [beq_iff_eq]; omega)]
  · rw [hb, if_pos (by rw [beq_iff_eq]; omega)]

/-- The cells of the two counts differ from each other. -/
structure Count48.Apart (c : Count48) : Prop where
  low_mid : c.low ≠ c.mid
  low_high : c.low ≠ c.high
  low_cp : c.low ≠ c.cp
  mid_high : c.mid ≠ c.high
  mid_cp : c.mid ≠ c.cp
  high_cp : c.high ≠ c.cp

theorem count48_apart {c : Count48} (h : c = resetCells ∨ c = removalCells) : c.Apart := by
  rcases h with rfl | rfl <;> exact ⟨by decide, by decide, by decide, by decide, by decide, by decide⟩

theorem State.completeCarry_of_none {s : State} {c : Count48} (h : bitAt (s.cell c.cp) 15 = false) : s.completeCarry c = s :=
  if_neg (by rw [h]; decide)

/-- A cell after a write that is made on a condition. -/
theorem State.cell_ite_setCell {s : State} {p : Prop} [Decidable p] (hv : s.power.vbak = true) (n m v : Nat) :
    (if p then s.setCell n v else s).cell m = if m = n ∧ p then v % 65536 else s.cell m := by
  by_cases hp : p
  · rw [if_pos hp, State.cell_setCell s n m v hv]
    simp [hp]
  · rw [if_neg hp, if_neg (fun h => hp h.2)]

theorem State.ite_setCell_power (s : State) (p : Prop) [Decidable p] (n v : Nat) :
    (if p then s.setCell n v else s).power = s.power := by
  split <;> simp

/-- COMPLETE_CARRY on cells that an increment over `mid` and `high` has left, each before or after its write: LOW ends at 0, MID
and, where the carry goes that far, HIGH end raised (R318). -/
theorem State.completeCarry_of_pending {s : State} {c : Count48} {mid high : Nat} (ha : c.Apart) (hv : s.power.vbak = true)
    (hcp : s.cell c.cp = carryWord mid high) (hlow : s.cell c.low = 0xFFFF ∨ s.cell c.low = 0)
    (hmid : s.cell c.mid = mid ∨ s.cell c.mid = (mid + 1) % 65536)
    (hhigh : s.cell c.high = high ∨ (mid = 0xFFFF ∧ s.cell c.high = (high + 1) % 65536)) :
    (s.completeCarry c).count48 c =
      2 ^ 16 * ((mid + 1) % 65536) + 2 ^ 32 * (if mid = 0xFFFF then (high + 1) % 65536 else high) := by
  have hpend : bitAt (s.cell c.cp) 15 = true := hcp ▸ carryWord_pending mid high
  unfold State.completeCarry
  extract_lets cp s1 s2 s3
  rw [if_pos hpend]
  have hcp' : cp = carryWord mid high := hcp
  have hv1 : s1.power.vbak = true := by rw [State.ite_setCell_power, hv]
  have hv2 : s2.power.vbak = true := by rw [State.ite_setCell_power, hv1]
  have hv3 : s3.power.vbak = true := by rw [State.ite_setCell_power, hv2]
  have hlow3 : s3.cell c.low = 0 := by
    rw [State.cell_ite_setCell hv2, if_neg (fun h => ha.low_high h.1), State.cell_ite_setCell hv1,
      if_neg (fun h => ha.low_mid h.1), State.cell_ite_setCell hv]
    rcases hlow with h | h <;> simp [h]
  have hmid2 : s2.cell c.mid = (mid + 1) % 65536 := by
    have hmid1 : s1.cell c.mid = s.cell c.mid := by
      rw [State.cell_ite_setCell hv, if_neg (fun h => ha.low_mid h.1.symm)]
    rw [State.cell_ite_setCell hv1, hmid1, hcp', carryWord_mid]
    rcases hmid with h | h
    · rw [h, if_pos ⟨rfl, by omega⟩]
    · rw [h, if_neg (fun h => h.2 (by omega))]
  have hmid3 : s3.cell c.mid = (mid + 1) % 65536 := by
    rw [State.cell_ite_setCell hv2, if_neg (fun h => ha.mid_high h.1), hmid2]
  have hhigh3 : s3.cell c.high = if mid = 0xFFFF then (high + 1) % 65536 else high := by
    have hhigh2 : s2.cell c.high = s.cell c.high := by
      rw [State.cell_ite_setCell hv1, if_neg (fun h => ha.mid_high h.1.symm), State.cell_ite_setCell hv,
        if_neg (fun h => ha.low_high h.1.symm)]
    rw [State.cell_ite_setCell hv2, hhigh2, hcp', carryWord_toHigh]
    by_cases hfar : mid = 0xFFFF
    · rw [carryWord_high hfar, if_pos hfar]
      rcases hhigh with h | ⟨-, h⟩
      · rw [h, if_pos ⟨rfl, by simp [hfar]; omega⟩]
      · rw [h, if_neg (fun h => absurd h.2 (by simp [hfar]))]
    · rw [if_neg hfar, if_neg (fun h => absurd h.2 (by simp [hfar]))]
      exact hhigh.resolve_right fun h => hfar h.1
  unfold State.count48
  rw [State.cell_setCell _ _ _ _ hv3, State.cell_setCell _ _ _ _ hv3, State.cell_setCell _ _ _ _ hv3, if_neg ha.low_cp,
    if_neg ha.mid_cp, if_neg ha.high_cp, hlow3, hmid3, hhigh3]
  omega

/-! INCREMENT48. -/

/-- Without a carry out of LOW, INCREMENT48 is one write. -/
theorem increment48Writes_short {low mid high : Nat} {c : Count48} (h : low ≠ 0xFFFF) :
    increment48Writes low mid high c = [(c.low, low + 1)] := if_pos h

/-- A carry out of LOW that ends in MID: four writes. -/
theorem increment48Writes_mid {mid high : Nat} {c : Count48} (h : mid ≠ 0xFFFF) :
    increment48Writes 0xFFFF mid high c =
      [(c.cp, carryWord mid high), (c.low, 0), (c.mid, (mid + 1) % 65536), (c.cp, 0)] := by
  simp [increment48Writes, carryWord, h]

/-- A carry out of MID: five writes. -/
theorem increment48Writes_high {high : Nat} {c : Count48} :
    increment48Writes 0xFFFF 0xFFFF high c =
      [(c.cp, carryWord 0xFFFF high), (c.low, 0), (c.mid, 0), (c.high, (high + 1) % 65536), (c.cp, 0)] := by
  simp [increment48Writes, carryWord]

theorem carryWord_lt (mid high : Nat) : carryWord mid high < 65536 := by
  rw [carryWord]
  split <;> omega


@[simp] theorem State.setCells_nil (s : State) : s.setCells [] = s := rfl

@[simp] theorem State.setCells_cons (s : State) (e : Nat × Nat) (l : List (Nat × Nat)) :
    s.setCells (e :: l) = (s.setCell e.1 e.2).setCells l := rfl

section
variable {s : State} {c : Count48} (ha : c.Apart) (hv : s.power.vbak = true) (hwf : wf s)
include ha hv hwf

/-- All writes of INCREMENT48 made: the count is raised by one and no carry is pending. -/
theorem State.setCells_increment48 (hcp : bitAt (s.cell c.cp) 15 = false) :
    let t := s.setCells (increment48Writes (s.cell c.low) (s.cell c.mid) (s.cell c.high) c)
    t.count48 c = (s.count48 c + 1) % 2 ^ 48 ∧ bitAt (t.cell c.cp) 15 = false := by
  obtain ⟨hlm, hlh, hlc, hmh, hmc, hhc⟩ := ha
  have hl := State.cell_lt hwf c.low
  have hm := State.cell_lt hwf c.mid
  have hh := State.cell_lt hwf c.high
  dsimp only
  by_cases hlow : s.cell c.low = 0xFFFF
  · by_cases hmid : s.cell c.mid = 0xFFFF
    · rw [hlow, hmid, increment48Writes_high]
      simp [State.count48, State.cell_setCell, hv, hlm, hlh, hlc, hmh, hmc, hhc, hlow, hmid, bitAt]
      omega
    · rw [hlow, increment48Writes_mid hmid]
      simp [State.count48, State.cell_setCell, hv, hlm, hlc, hmh.symm, hlh.symm, hmc, hhc, hlow, bitAt]
      omega
  · rw [increment48Writes_short hlow]
    simp [State.count48, State.cell_setCell, hv, hlm.symm, hlh.symm, hlc.symm, hcp]
    omega

/-- An increment broken off between two of its writes is completed. -/
theorem State.completeCarry_of_broken {n : Nat} (hpos : 0 < n)
    (hn : n < (increment48Writes (s.cell c.low) (s.cell c.mid) (s.cell c.high) c).length) :
    ((s.setCells ((increment48Writes (s.cell c.low) (s.cell c.mid) (s.cell c.high) c).take n)).completeCarry c).count48 c =
      (s.count48 c + 1) % 2 ^ 48 := by
  obtain ⟨hlm, hlh, hlc, hmh, hmc, hhc⟩ := id ha
  have hm := State.cell_lt hwf c.mid
  have hh := State.cell_lt hwf c.high
  have hword := Nat.mod_eq_of_lt (carryWord_lt (s.cell c.mid) (s.cell c.high))
  by_cases hlow : s.cell c.low = 0xFFFF
  · have hcount : (s.count48 c + 1) % 2 ^ 48 = 2 ^ 16 * ((s.cell c.mid + 1) % 65536) +
        2 ^ 32 * (if s.cell c.mid = 0xFFFF then (s.cell c.high + 1) % 65536 else s.cell c.high) := by
      rw [State.count48, hlow]
      split <;> omega
    rw [hcount, hlow]
    by_cases hmid : s.cell c.mid = 0xFFFF
    · rw [hlow, hmid, increment48Writes_high] at hn
      rw [hmid] at hword hm ⊢
      rw [increment48Writes_high]
      obtain rfl | rfl | rfl | rfl : n = 1 ∨ n = 2 ∨ n = 3 ∨ n = 4 := by simp at hn; omega
      all_goals
        refine State.completeCarry_of_pending ha ?_ ?_ ?_ ?_ ?_ <;>
          simp [State.cell_setCell, hv, hword, hlow, hmid, hlm, hlh, hlc, hmh, hmc, hhc, hlm.symm, hlh.symm, hlc.symm, hmh.symm,
            hmc.symm, hhc.symm]
    · rw [hlow, increment48Writes_mid hmid] at hn
      rw [increment48Writes_mid hmid]
      obtain rfl | rfl | rfl : n = 1 ∨ n = 2 ∨ n = 3 := by simp at hn; omega
      all_goals
        refine State.completeCarry_of_pending ha ?_ ?_ ?_ ?_ ?_ <;>
          simp [State.cell_setCell, hv, hword, hlow, hlm, hlc, hmc, hhc, hlm.symm, hlh.symm, hlc.symm, hmh.symm, hmc.symm]
  · rw [increment48Writes_short hlow] at hn
    exact absurd hn (by simp; omega)

end

/-- Settles O10: with no carry pending INCREMENT48 is its writes. -/
theorem countsRiseByOne : Obligations.CountsRiseByOne := by
  intro s c hc hwf hv hcp
  rw [State.increment48, State.completeCarry_of_none hcp]
  exact State.setCells_increment48 (count48_apart hc) hv hwf hcp

/-- Settles O11: before the first write nothing is pending, between two the carry is completed, and after the last it is done. -/
theorem brokenIncrementsAreRepaired : Obligations.BrokenIncrementsAreRepaired := by
  intro s c n hc hwf hv hcp
  have ha := count48_apart hc
  rcases Nat.eq_zero_or_pos n with rfl | hpos
  · rw [List.take_zero, State.setCells_nil, State.completeCarry_of_none hcp, if_pos rfl]
  · rw [if_neg hpos.ne']
    rcases Nat.lt_or_ge n (increment48Writes (s.cell c.low) (s.cell c.mid) (s.cell c.high) c).length with hn | hn
    · exact State.completeCarry_of_broken ha hv hwf hpos hn
    · obtain ⟨hcount, hnone⟩ := State.setCells_increment48 ha hv hwf hcp
      rw [List.take_of_length_le hn, State.completeCarry_of_none hnone, hcount]

/-! Attention entries. -/

/-- The cells of the numbering after an entry has been placed: its ring's SEQ is raised by one. -/
def State.raisedSeqs (s : State) (ring : Nat) : Store := storeWrite s.seqs ring ((storeRead s.seqs ring + 1) % 65536)

/-- An entry that its ring takes. -/
def State.Takes (s : State) (e : AttnEntry) : Prop := e.kind = .completion ∨ 64 ≤ e.ring ∨ (s.slice e.ring).st ≠ .free

theorem State.Takes.not_barred {s : State} {e : AttnEntry} (h : s.Takes e) :
    ¬ (e.kind != .completion && decide (e.ring < 64) && (s.slice e.ring).st == .free) = true := by
  rcases h with h | h | h
  · simp [h]
  · simp [h]
  · simp [h]

/-- The entry as its ring takes it. -/
def State.numbered (s : State) (e : AttnEntry) : AttnEntry := { e with seq := storeRead s.seqs e.ring, fresh := true }

/-- The card with the ring's SEQ raised. -/
def State.seqRaised (s : State) (ring : Nat) : State := { s with seqs := s.raisedSeqs ring }

/-- A ring with room: the entry stands at its end, and a Slice's ring takes its high-water mark along. -/
theorem State.placeEntry_of_room {s : State} {e : AttnEntry} (h : s.Takes e) (hroom : s.aqLevel e.ring < 64) :
    s.placeEntry e = { s.seqRaised e.ring with attn := s.attn ++ [s.numbered e] } ∨
    ∃ v, s.placeEntry e = State.wr { s.seqRaised e.ring with attn := s.attn ++ [s.numbered e] }
      (Reg.QUEUE.HWM.AQ_HWM.inBank e.ring) v := by
  rw [State.placeEntry, if_neg h.not_barred]
  extract_lets seq s1 e1 s2
  have hlevel : s1.aqLevel e1.ring < 64 := hroom
  rw [if_pos hlevel]
  split
  · exact .inr ⟨_, rfl⟩
  · exact .inl rfl

/-- A full ring: a COMPLETION entry displaces the oldest that is none, any other is lost. -/
theorem State.placeEntry_of_full {s : State} {e : AttnEntry} (h : s.Takes e) (hfull : 64 ≤ s.aqLevel e.ring) :
    s.placeEntry e = ({ s.seqRaised e.ring with
      attn := if e.kind = .completion then dropOldest e.ring s.attn ++ [s.numbered e] else s.attn } : State).loseEntry e.ring := by
  rw [State.placeEntry, if_neg h.not_barred]
  extract_lets seq s1 e1 s2
  have hlevel : ¬ s1.aqLevel e1.ring < 64 := Nat.not_lt.mpr hfull
  rw [if_neg hlevel]
  by_cases hk : e.kind = .completion
  · rw [if_pos (beq_iff_eq.mpr hk), if_pos hk]
    rfl
  · rw [if_neg (fun x => hk (beq_iff_eq.mp x)), if_neg hk]
    rfl

theorem State.placeEntry_seqs {s : State} {e : AttnEntry} (h : s.Takes e) : (s.placeEntry e).seqs = s.raisedSeqs e.ring := by
  rcases Nat.lt_or_ge (s.aqLevel e.ring) 64 with hroom | hfull
  · rcases State.placeEntry_of_room h hroom with he | ⟨v, he⟩ <;> rw [he] <;> rfl
  · rw [State.placeEntry_of_full h hfull]
    rfl

/-- A loss sets ATTN_LOST and raises LOST_COUNT (R203). -/
theorem State.loseEntry_rd (s : State) (ring : Nat) :
    (s.loseEntry ring).rd (lostBit ring) = 1 ∧ (s.loseEntry ring).rd (lostCount ring) = satAdd (s.rd (lostCount ring)) 1 65535 := by
  unfold State.loseEntry lostBit lostCount
  split
  · rw [State.rd_bump_self _ 1 rfl, State.rd_bump_other _ 1 rfl,
      State.rd_wr_other (g := Reg.QUEUE.LOST.LOST_COUNT.inBank ring) _ 1 rfl]
    exact ⟨s.rd_wr_of_lt (w := 1) rfl (by decide), rfl⟩
  · rw [State.rd_bump_self _ 1 rfl, State.rd_bump_other _ 1 rfl,
      State.rd_wr_other (g := Reg.DMA.CARD_LOST.LOST_COUNT) _ 1 rfl]
    exact ⟨s.rd_wr_of_lt (w := 1) rfl (by decide), rfl⟩

/-! The end of an edge. -/

/-- An entry without its number. -/
def AttnEntry.plain (e : AttnEntry) : AttnEntry := { e with seq := 0, fresh := false }

theorem insertAttn_perm (e : AttnEntry) (l : List AttnEntry) : (insertAttn e l).Perm (e :: l) := by
  induction l with
  | nil => exact .refl _
  | cons a l ih =>
    unfold insertAttn
    split
    · exact .refl _
    · exact (ih.cons a).trans (.swap e a l)

theorem orderEntries_perm (l : List AttnEntry) : (orderEntries l).Perm l := by
  suffices ∀ acc : List AttnEntry, (l.foldl (fun acc e => insertAttn e acc) acc).Perm (l ++ acc) by
    simpa [orderEntries] using this []
  induction l with
  | nil => exact fun _ => .refl _
  | cons a l ih => exact fun acc => (ih _).trans (((insertAttn_perm a acc).append_left l).trans List.perm_middle)

/-- Taking numbers changes nothing else of an entry. -/
theorem takeSeqs_plain (l given : List AttnEntry) : (takeSeqs given l).map AttnEntry.plain = l.map AttnEntry.plain := by
  induction l generalizing given with
  | nil => rfl
  | cons a l ih =>
    unfold takeSeqs
    split <;> exact congrArg₂ List.cons rfl (ih _)

/-- The end of an edge puts the entries of the edge in order and loses none. -/
theorem State.endEdge_perm (s : State) : (s.endEdge.attn.map AttnEntry.plain).Perm (s.attn.map AttnEntry.plain) := by
  unfold State.endEdge
  rw [List.map_append, takeSeqs_plain]
  have hnew := (orderEntries_perm (s.attn.filter (fun e => e.fresh))).map AttnEntry.plain
  refine (hnew.append_left _).trans ?_
  rw [← List.map_append]
  exact (List.perm_append_comm.trans (List.filter_append_perm (fun e => e.fresh) s.attn)).map _

/-- Settles O8: by the room that the ring has, and by a permutation of the entries of an edge. -/
theorem attentionNumbering : Obligations.AttentionNumbering := by
  refine ⟨fun s e h => ⟨fun r => ?_, fun hroom => ?_, fun hfull => ?_⟩, fun s e hk hr hfree => ?_, State.endEdge_perm⟩
  · rw [State.placeEntry_seqs h, State.raisedSeqs, storeRead_write]
  · rcases State.placeEntry_of_room h hroom with he | ⟨v, he⟩ <;> rw [he] <;> rfl
  · rw [State.placeEntry_of_full h hfull]
    exact ⟨rfl, State.loseEntry_rd _ _⟩
  · rw [State.placeEntry, if_pos (by simp [hk, hr, hfree])]

end Sys2Proof.Machine
end

section
/-!
Rules that the rows share: Slices and Originators after an update, what stands over an attention event and over the end of a step,
and how a row that ends in a next state is read.
-/
namespace Sys2Proof.Machine
open Sys2Proof.Safety

/-! Keys that the end of a step leaves alone. -/

/-- Is a field at none of the places that the end of a step writes? For a field at a literal place this is true by `rfl`, whatever
its bank is. -/
def Field.offEnd (f : Field) : Bool :=
  !((f.index % 32 == 3) || (f.index % 32 == 6) || [(0x02, 15), (0x04, 13), (0x07, 11), (0x07, 12), (0x07, 13), (0x08, 13), (0x08, 14),
      (0x24, 9), (0x24, 11), (0x27, 9)].contains (f.page % 64, f.index % 32))

theorem Field.endKey_of_offEnd {f : Field} (h : f.offEnd = true) : endKey f.key = false := by
  unfold endKey
  rw [Field.keyIndex_key, Field.keyPage_key]
  unfold Field.offEnd at h
  rwa [Bool.not_eq_true'] at h

theorem State.rd_raise (s : State) (ev : Nat × Nat) (bank : Nat) {f : Field} (h : f.offEnd = true) :
    (s.raise ev bank).rd f = s.rd f :=
  s.raise_rd ev bank (Field.endKey_of_offEnd h)

theorem State.rd_complete (s : State) (q status result data dataLen : Nat) {f : Field} (h : f.offEnd = true) :
    (s.complete q status result data dataLen).rd f = s.rd f :=
  s.complete_rd q status result data dataLen (Field.endKey_of_offEnd h)

theorem State.rd_settle (s : State) {f : Field} (h : f.offEnd = true) : s.settle.rd f = s.rd f :=
  s.settle_rd (Field.endKey_of_offEnd h)

/-- A register off the end of a step reads as the row left it. -/
theorem rd_over_ends {b t : State} (h : Ends b t) {f : Field} (hf : f.offEnd = true) : t.rd f = b.rd f :=
  rd_of_ends h (Field.endKey_of_offEnd hf)

/-! Slices. -/

theorem State.slice_setSlice_ne (s : State) {i j : Nat} (f : Slice → Slice) (h : j ≠ i) : (s.setSlice i f).slice j = s.slice j := by
  simp only [State.slice, State.setSlice, List.getD_eq_getElem?_getD, List.getElem?_modify, if_neg h.symm]
  simp

theorem State.slice_setSlice_self (s : State) {i : Nat} (f : Slice → Slice) (h : i < s.slices.length) :
    (s.setSlice i f).slice i = f (s.slice i) := by
  simp [State.slice, State.setSlice, List.getD_eq_getElem?_getD, h]

/-- A Slice after an update of that Slice: where the card has no such Slice it reads FREE as before. -/
theorem State.slice_setSlice_cases (s : State) (i : Nat) (f : Slice → Slice) :
    (s.setSlice i f).slice i = f (s.slice i) ∨ (s.setSlice i f).slice i = Slice.free := by
  rcases Nat.lt_or_ge i s.slices.length with h | h
  · exact .inl (s.slice_setSlice_self f h)
  · right
    simp [State.slice, State.setSlice, List.getD_eq_getElem?_getD, h]

theorem State.slice_of_slices {s t : State} (h : t.slices = s.slices) (i : Nat) : t.slice i = s.slice i := by
  unfold State.slice
  rw [h]

/-! Originators. -/

theorem State.orig_id (s : State) (o : Nat) : (s.orig o).id = o := by
  unfold State.orig
  cases h : s.origs.find? (fun x => x.id == o) with
  | none => rfl
  | some x => exact beq_iff_eq.mp (List.find?_some h :)

theorem find?_filter_of_imp {α : Type} {p r : α → Bool} (l : List α) (h : ∀ x, p x = true → r x = true) :
    (l.filter r).find? p = l.find? p := by
  induction l with
  | nil => rfl
  | cons a l ih =>
    by_cases hr : r a = true
    · rw [List.filter_cons_of_pos hr, List.find?_cons, List.find?_cons, ih]
    · have hp : p a = false := by
        cases hpa : p a with
        | false => rfl
        | true => exact absurd (h a hpa) hr
      rw [List.filter_cons_of_neg hr, List.find?_cons, hp, ih]

theorem find?_filter_of_disjoint {α : Type} {p r : α → Bool} (l : List α) (h : ∀ x, r x = true → p x = false) :
    (l.filter r).find? p = none := by
  rw [List.find?_eq_none]
  intro x hx
  rw [h x (List.mem_filter.mp hx).2]
  decide

/-- An update of an Originator's entry that keeps its ID is found under it. -/
theorem State.orig_setOrig_self (s : State) {o : Nat} {f : Orig → Orig} (hf : (f (s.orig o)).id = o) :
    (s.setOrig o f).orig o = f (s.orig o) := by
  have hlow := find?_filter_of_disjoint (p := fun (x : Orig) => x.id == o) (r := fun x => decide (x.id < o)) s.origs
    (fun x hx => by simp at hx ⊢; omega)
  have hid : ((f (s.orig o)).id == o) = true := beq_iff_eq.mpr hf
  change ((_ ++ f (s.orig o) :: _ : List Orig).find? (fun x => x.id == o)).getD _ = _
  rw [List.find?_append, hlow, List.find?_cons, hid]
  rfl

/-- An update of an Originator's entry that keeps its ID leaves the other entries. -/
theorem State.orig_setOrig_ne (s : State) {o p : Nat} {f : Orig → Orig} (hf : (f (s.orig o)).id = o) (h : p ≠ o) :
    (s.setOrig o f).orig p = s.orig p := by
  have hid : ¬ ((f (s.orig o)).id == p) = true := fun e => h (hf.symm.trans (beq_iff_eq.mp e)).symm
  change ((_ ++ f (s.orig o) :: _ : List Orig).find? (fun x => x.id == p)).getD _ = _
  rw [List.find?_append, List.find?_cons_of_neg (p := fun (x : Orig) => x.id == p) hid]
  unfold State.orig
  rcases Nat.lt_or_gt_of_ne h with hlt | hgt
  · rw [find?_filter_of_imp _ (fun x hx => by simp at hx ⊢; omega),
      find?_filter_of_disjoint (r := fun (x : Orig) => decide (o < x.id)) _ (fun x hx => by simp at hx ⊢; omega), Option.or_none]
  · rw [find?_filter_of_disjoint (r := fun (x : Orig) => decide (x.id < o)) _ (fun x hx => by simp at hx ⊢; omega),
      find?_filter_of_imp _ (fun x hx => by simp at hx ⊢; omega), Option.none_or]

/-! Attention events. -/

theorem State.raise_same (s : State) (ev : Nat × Nat) (bank : Nat) {p : Part} (h : (194).testBit (partBit p) = false) :
    p.Same s (s.raise ev bank) :=
  (State.raise_moved (Within.refl 194) (Moved.refl _ s)).same p h

theorem State.raise_slices (s : State) (ev : Nat × Nat) (bank : Nat) : (s.raise ev bank).slices = s.slices :=
  s.raise_same ev bank (p := .slices) rfl

theorem State.raise_flash (s : State) (ev : Nat × Nat) (bank : Nat) : (s.raise ev bank).flash = s.flash :=
  s.raise_same ev bank (p := .flash) rfl

theorem State.raise_shelf (s : State) (ev : Nat × Nat) (bank : Nat) : (s.raise ev bank).shelf = s.shelf :=
  s.raise_same ev bank (p := .shelf) rfl

theorem State.raise_power (s : State) (ev : Nat × Nat) (bank : Nat) : (s.raise ev bank).power = s.power :=
  s.raise_same ev bank (p := .power) rfl

/-! The end of a step. -/

theorem State.settle_ends_self (s : State) : Ends s s.settle := State.settle_ends (Tail.refl _) (Agree.refl _ _)

section
variable {b t : State} (h : Ends b t)
include h

theorem slices_of_ends : t.slices = b.slices := h.parts .slices (by decide)
theorem shelf_of_ends : t.shelf = b.shelf := h.parts .shelf (by decide)
theorem flash_of_ends : t.flash = b.flash := h.parts .flash (by decide)
theorem power_of_ends : t.power = b.power := h.parts .power (by decide)
theorem opt_of_ends : t.opt = b.opt := h.parts .opt (by decide)
theorem fw_of_ends : t.fw = b.fw := h.parts .fw (by decide)
theorem fuses_of_ends : t.fuses = b.fuses := h.parts .fuses (by decide)
theorem draws_of_ends : t.draws = b.draws := h.parts .draws (by decide)
theorem keys_of_ends : t.keys = b.keys := h.parts .keys (by decide)
theorem slice_of_ends (i : Nat) : t.slice i = b.slice i := State.slice_of_slices (slices_of_ends h) i
theorem phase_of_ends : t.link.phase = b.link.phase := (congrArg Link.phase h.link :)
theorem fast_of_ends : t.link.fast = b.link.fast := (congrArg Link.fast h.link :)

end

/-! Rows that complete a command. -/

/-- A command in a phase that is not its end is open. -/
theorem isOpen_of_atWork {s : State} {q op : Nat} {c : Cmd} {ph : CmdPhase} (h : AtWork s q c op ph)
    (hp : ph ≠ .settled ∧ ph ≠ .deferred) : c.done? = false := by
  obtain ⟨-, -, -, hph⟩ := h
  simp [Cmd.done?, hph, hp.1, hp.2]

/-- A row that acts on a command answers what its meaning on the command says, at the end of the step. -/
theorem exec_onCmd {i : Instr} {s : State} {q op : Nat} {ph : CmdPhase} {f : Cmd → State} {c : Cmd} (hw : AtWork s q c op ph)
    (he : exec i s = (s.onCmd q op ph f).done) : exec i s = .next (f c).settle := by
  obtain ⟨hc, hk, ho, hph⟩ := hw
  rw [he, State.onCmd_pos hc hk ho hph]
  rfl

end Sys2Proof.Machine
end

section
/-!
NOP, IDENTIFY, ASSIGN_ADDRESS, the declaration of the clock, HELLO and the proposals of shelf sleep.
-/
namespace Sys2Proof.Machine
open Sys2Proof.Safety

/-- Settles O13: both rows complete the command on the card as it stands. -/
theorem nopAndIdentify : Obligations.NopAndIdentify := fun _ _ _ =>
  ⟨fun hw => ⟨_, finishes_of hw (by decide) rfl rfl hw.1⟩, fun hw => ⟨_, finishes_of hw (by decide) rfl rfl hw.1⟩⟩

/-- The card with the address that ASSIGN_ADDRESS names. -/
def State.assigned (s : State) (a : Nat) : State :=
  (((s.wr Reg.SHELF.ADDR.CARD_ADDR a).wr Reg.SHELF.ADDR.ASSIGNED 1).bump Reg.SHELF.COUNTS.ASSIGNS).raise Evt.SHELF.ASSIGNED

theorem State.assigned_rd (s : State) {a : Nat} (ha : a < 2 ^ 12) :
    (s.assigned a).rd Reg.SHELF.ADDR.CARD_ADDR = a ∧ (s.assigned a).rd Reg.SHELF.ADDR.ASSIGNED = 1 := by
  unfold State.assigned
  rw [State.rd_raise _ _ _ rfl, State.rd_raise _ _ _ rfl, State.rd_bump_other _ _ rfl, State.rd_bump_other _ _ rfl,
    State.rd_wr_other (g := Reg.SHELF.ADDR.CARD_ADDR) _ _ rfl]
  exact ⟨s.rd_wr_of_lt (w := 12) rfl ha, State.rd_wr_of_lt _ (w := 1) rfl (by decide)⟩

/-- Settles O14: the writes of the row stand at the end of the step. -/
theorem assignAddress : Obligations.AssignAddress := by
  intro q s c hw
  have hx : (s.assigned (c.field 12 12)).cmd? q = some c := (State.raise_cmd? _ _ _ _).trans hw.1
  have hfin := finishes_of (i := .assignAddress q) (x := s.assigned (c.field 12 12)) (st := stOk) (r := 0) hw (by decide) rfl rfl hx
  obtain ⟨haddr, hassigned⟩ := s.assigned_rd (c.field_lt 12 12)
  obtain ⟨-, -, hends, -⟩ := id hfin
  exact ⟨_, hfin, (rd_over_ends hends rfl).trans haddr, (rd_over_ends hends rfl).trans hassigned⟩

/-! The declaration of the clock. -/

/-- The declaration stored, with its event and, in fast mode, the counts and marks of the channels (R28, R29, R338). -/
def State.declareKhz (s : State) (khz : Nat) : State :=
  let changed := s.rd Reg.CLOCK.DECL_FAST.DECL_KHZ != khz
  let s := s.wr Reg.CLOCK.DECL_FAST.DECL_KHZ khz
  let s := if changed then s.raise Evt.CLOCK.DECL_CHANGED else s
  if s.link.fast && changed then (s.loadCounts khz).newFrequency else s

theorem execDeclareClockCountsLoad_of_idle {q : Nat} {s : State} {c : Cmd} (hw : AtWork s q c opDeclare .waiting)
    (habort : c.abortedBy = []) (hearlier : s.earlier q = []) (hidle : s.diesIdle = true) :
    exec (.declareClockCountsLoad q) s = .next ((s.declareKhz (c.field 0 32)).complete q stOk).settle := by
  rw [exec_onCmd hw rfl]
  simp only [habort, hearlier, hidle, List.isEmpty_nil, Bool.not_true, Bool.false_eq_true, if_false, Bool.and_self, if_true]
  rfl

/-- What stands of the card after the declaration's event. -/
theorem State.declareKhz_event (s : State) (khz : Nat) (p : Prop) [Decidable p] :
    let x := if p then (s.wr Reg.CLOCK.DECL_FAST.DECL_KHZ khz).raise Evt.CLOCK.DECL_CHANGED else s.wr Reg.CLOCK.DECL_FAST.DECL_KHZ khz
    x.link = s.link ∧ x.cmds = s.cmds ∧ x.flash = s.flash ∧
      x.rd Reg.CLOCK.DECL_FAST.DECL_KHZ = (s.wr Reg.CLOCK.DECL_FAST.DECL_KHZ khz).rd Reg.CLOCK.DECL_FAST.DECL_KHZ := by
  dsimp only
  split
  · exact ⟨State.raise_link _ _ _, State.raise_cmds _ _ _, State.raise_flash _ _ _, State.rd_raise _ _ _ rfl⟩
  · exact ⟨rfl, rfl, rfl, rfl⟩

theorem State.declareKhz_cmd? (s : State) (khz q : Nat) : (s.declareKhz khz).cmd? q = s.cmd? q := by
  unfold State.declareKhz State.cmd?
  extract_lets changed s1 s2
  have hcmds : s2.cmds = s.cmds := (s.declareKhz_event khz (changed = true)).2.1
  split
  · change s2.cmds.find? _ = _
    rw [hcmds]
  · rw [hcmds]

theorem State.declareKhz_rd (s : State) {khz : Nat} (h : khz < 2 ^ 22) : (s.declareKhz khz).rd Reg.CLOCK.DECL_FAST.DECL_KHZ = khz := by
  unfold State.declareKhz
  extract_lets changed s1 s2
  have hrd : s2.rd Reg.CLOCK.DECL_FAST.DECL_KHZ = khz :=
    (s.declareKhz_event khz (changed = true)).2.2.2.trans (s.rd_wr_of_lt (w := 22) rfl h)
  split
  · exact hrd
  · exact hrd

theorem State.declareKhz_flash_of_id {s : State} (h : s.link.fast = false) (khz : Nat) : (s.declareKhz khz).flash = s.flash := by
  unfold State.declareKhz
  extract_lets changed s1 s2
  obtain ⟨hlink, -, hflash, -⟩ := s.declareKhz_event khz (changed = true)
  have hlink2 : s2.link = s.link := hlink
  rw [hlink2, h]
  exact hflash

theorem State.declareKhz_chans {s : State} {khz : Nat} (h : s.link.fast = true) (hne : s.rd Reg.CLOCK.DECL_FAST.DECL_KHZ ≠ khz) :
    ∀ ch ∈ (s.declareKhz khz).flash.chans, ch.countKhz = khz ∧ ch.reconf = true := by
  unfold State.declareKhz
  extract_lets changed s1 s2
  have hlink2 : s2.link = s.link := (s.declareKhz_event khz (changed = true)).1
  have hchanged : changed = true := bne_iff_ne.mpr hne
  rw [hlink2, h, hchanged]
  intro ch hch
  obtain ⟨c1, h1, rfl⟩ := List.mem_map.mp hch
  obtain ⟨c0, -, rfl⟩ := List.mem_map.mp h1
  exact ⟨rfl, rfl⟩

/-- Settles O16: the row waits, stores and completes, or leaves the card as it is, by its own conditions. -/
theorem declareClock : Obligations.DeclareClock := by
  intro q s c
  refine ⟨fun hw => ⟨_, moves_of hw rfl rfl⟩, fun hw habort hearlier hidle hkhz => ?_, fun hw habort hwait => ⟨_, moves_of hw rfl ?_⟩⟩
  · have hcmd : (s.declareKhz (c.field 0 32)).cmd? q = some c := (s.declareKhz_cmd? _ _).trans hw.1
    have hends := State.complete_ends (s.declareKhz (c.field 0 32)) q stOk 0 0 0
    refine ⟨_, execDeclareClockCountsLoad_of_idle hw habort hearlier hidle, ?_, ?_, fun hid => ?_, fun hfast hne => ?_⟩
    · exact (rd_over_ends hends rfl).trans (s.declareKhz_rd hkhz)
    · exact State.complete_fixed (data := 0) hcmd (isOpen_of_atWork hw (by decide))
    · exact (flash_of_ends hends).trans (State.declareKhz_flash_of_id hid _)
    · rw [flash_of_ends hends]
      exact State.declareKhz_chans hfast hne
  · rcases hwait with h | h <;> simp [habort, h]

/-! HELLO. -/

/-- The locks that an Originator held under an older Epoch are released, one Slice after another (R184). -/
def State.dropLock (o e : Nat) (s : State) (i : Nat) : State :=
  match (s.slice i).lock with
  | some l =>
    if l.orig = o ∧ l.epoch < e then (s.setSlice i (fun sl => { sl with lock := none })).raise Evt.SLICE.LOCK_BROKEN i else s
  | none => s

/-- A Slice on which no lock of the Originator under an older Epoch stands. -/
def State.FreeOf (s : State) (o e i : Nat) : Prop := ∀ l, (s.slice i).lock = some l → l.orig = o → e ≤ l.epoch

theorem State.dropLock_frees (s : State) (o e i : Nat) : (s.dropLock o e i).FreeOf o e i := by
  unfold State.dropLock
  split
  · rename_i l hl
    split
    · intro l' hl'
      have hnone : (((s.setSlice i (fun sl => { sl with lock := none })).raise Evt.SLICE.LOCK_BROKEN i).slice i).lock = none := by
        rw [State.slice_of_slices (State.raise_slices _ _ _)]
        rcases s.slice_setSlice_cases i (fun sl => { sl with lock := none }) with h | h <;> simp [h, Slice.free]
      cases hnone.symm.trans hl'
    · rename_i hkeep
      intro l' hl' ho
      cases hl.symm.trans hl'
      exact Nat.le_of_not_lt fun hlt => hkeep ⟨ho, hlt⟩
  · rename_i hl
    intro l' hl'
    cases hl.symm.trans hl'

theorem State.dropLock_slice_ne (s : State) (o e : Nat) {i j : Nat} (h : j ≠ i) : (s.dropLock o e i).slice j = s.slice j := by
  unfold State.dropLock
  split
  · split
    · rw [State.slice_of_slices (State.raise_slices _ _ _), State.slice_setSlice_ne _ _ h]
    · rfl
  · rfl

theorem State.dropLock_same (s : State) (o e i : Nat) {p : Part} (h : (706).testBit (partBit p) = false) :
    p.Same s (s.dropLock o e i) := by
  have hmoved : Moved 706 s (s.dropLock o e i) := by
    unfold State.dropLock
    split
    · exact Moved.ite (State.raise_moved (by exact rfl) (State.setSlice_moved (by exact rfl) (Moved.refl _ s))) (Moved.refl _ s)
    · exact Moved.refl _ s
  exact hmoved.same p h

theorem State.foldl_dropLock_frees (o e : Nat) (n a : Nat) (s : State) :
    ∀ i, a ≤ i → i < a + n → ((rangeFrom a n).foldl (State.dropLock o e) s).FreeOf o e i := by
  induction n generalizing a s with
  | zero => intro i hlo hhi; omega
  | succ n ih =>
    intro i hlo hhi
    rcases Nat.eq_or_lt_of_le hlo with rfl | hlt
    · have hrest : ∀ (n b : Nat) (t : State), a < b → ((rangeFrom b n).foldl (State.dropLock o e) t).slice a = t.slice a := by
        intro n
        induction n with
        | zero => exact fun _ _ _ => rfl
        | succ n ihn =>
          intro b t hb
          exact (ihn (b + 1) _ (by omega)).trans (t.dropLock_slice_ne o e (by omega))
      intro l hl
      refine s.dropLock_frees o e a l ?_
      rw [← hl]
      exact congrArg Slice.lock (hrest n (a + 1) (s.dropLock o e a) (by omega)).symm
    · exact ih (a + 1) (s.dropLock o e a) i hlt (by omega)


theorem State.foldl_dropLock_same (o e : Nat) (l : List Nat) (s : State) {p : Part} (h : (706).testBit (partBit p) = false) :
    p.Same s (l.foldl (State.dropLock o e) s) := by
  induction l generalizing s with
  | nil => exact (Moved.refl 706 s).same p h
  | cons i l ih => exact Part.same_trans (s.dropLock_same o e i h) (ih _)

/-- The Epoch of a HELLO on record: the Originator's entry, the event of a higher Epoch, the locks of older ones. -/
def State.recordEpoch (s : State) (c : Cmd) : State :=
  let e := c.field 0 32
  let s := s.setOrig c.orig (fun o => { o with epoch := e, helloSeen := true, nonce := none })
  let s := if c.steps = 1 then s.raise Evt.SHELF.EPOCH_ADVANCED else s
  (rangeFrom 0 64).foldl (State.dropLock c.orig e) s

/-- What the event and the locks leave alone of the card with the new entry. -/
theorem State.recordEpoch_same (s : State) (c : Cmd) {p : Part} (h : (706).testBit (partBit p) = false) :
    p.Same (s.setOrig c.orig (fun o => { o with epoch := c.field 0 32, helloSeen := true, nonce := none })) (s.recordEpoch c) := by
  unfold State.recordEpoch
  refine Part.same_trans ?_ (State.foldl_dropLock_same c.orig (c.field 0 32) (rangeFrom 0 64) _ h)
  split
  · exact (State.raise_moved (T := 706) (by exact rfl) (Moved.refl _ _)).same p h
  · exact (Moved.refl 706 _).same p h

theorem State.recordEpoch_frees (s : State) (c : Cmd) {i : Nat} (hi : i < 64) :
    (s.recordEpoch c).FreeOf c.orig (c.field 0 32) i := by
  unfold State.recordEpoch
  exact State.foldl_dropLock_frees c.orig (c.field 0 32) 64 0 _ i (Nat.zero_le _) (by omega)

theorem execHelloEpochRecord_of_quiet {q : Nat} {s : State} {c : Cmd} (hw : AtWork s q c opHello .waiting)
    (h : s.quietBefore q c.orig = true) : ∃ r, exec (.helloEpochRecord q) s = .next ((s.recordEpoch c).complete q stOk r).settle := by
  rw [exec_onCmd hw rfl]
  dsimp only
  rw [if_pos h]
  exact ⟨_, rfl⟩

/-- Settles O17: a HELLO ends, waits, records or stands by its Epoch and by what is still to be acknowledged. -/
theorem helloByEpoch : Obligations.HelloByEpoch := by
  intro q s c
  refine ⟨hello_lower_finishes, hello_equal_finishes, fun hw hnew => ⟨_, moves_of hw rfl ?_⟩, fun hw hquiet => ?_,
    fun hw hquiet => ⟨_, moves_of hw rfl (if_neg (by rw [hquiet]; decide))⟩⟩
  · rcases hnew with h | h
    · simp [h]
    · have hlow : ¬ c.field 0 32 < (s.orig c.orig).epoch := by omega
      have hne : ¬ c.field 0 32 = (s.orig c.orig).epoch := by omega
      simp [hlow, hne]
  · obtain ⟨r, hexec⟩ := execHelloEpochRecord_of_quiet hw hquiet
    have hcmds : (s.recordEpoch c).cmds = s.cmds := s.recordEpoch_same c (p := .cmds) rfl
    have hcmd : (s.recordEpoch c).cmd? q = some c := by
      unfold State.cmd?
      rw [hcmds]
      exact hw.1
    have horigs : ((s.recordEpoch c).complete q stOk r).settle.origs =
        (s.setOrig c.orig (fun o => { o with epoch := c.field 0 32, helloSeen := true, nonce := none })).origs := by
      refine (State.settle_origs _).trans (Eq.trans (State.complete_origs fun d hd => ?_)
        (s.recordEpoch_same c (p := .origs) rfl))
      cases hcmd.symm.trans hd
      rw [hw.2.2.1]
      decide
    have hid : ({ s.orig c.orig with epoch := c.field 0 32, helloSeen := true, nonce := none } : Orig).id = c.orig := s.orig_id _
    refine ⟨_, _, hexec, State.complete_fixed (data := 0) hcmd (isOpen_of_atWork hw (by decide)), ?_, fun o ho => ?_, ?_⟩
    · rw [State.orig_of_origs_eq horigs, s.orig_setOrig_self hid]
      exact congrArg (fun i => ({ id := i, epoch := c.field 0 32, helloSeen := true, nonce := none } : Orig)) (s.orig_id _)
    · rw [State.orig_of_origs_eq horigs, s.orig_setOrig_ne hid ho]
    · intro i l hi hl horig
      rw [slice_of_ends (State.complete_ends _ _ _ _ _ _)] at hl
      exact s.recordEpoch_frees c hi l hl horig

/-! Proposals of shelf sleep. -/

/-- The reason for which a proposal is vetoed at once (R150). -/
def State.vetoReason (s : State) : Nat :=
  4 * bit01 (s.rd Reg.SHELF.SLEEP_CFG.SLEEP_EN == 0) + 8 * bit01 s.faultsOnly

theorem State.vetoReason_ne_zero {s : State} (h : s.rd Reg.SHELF.SLEEP_CFG.SLEEP_EN = 0 ∨ s.faultsOnly = true) : s.vetoReason ≠ 0 := by
  unfold State.vetoReason bit01
  rcases h with h | h <;> simp [h]

theorem State.vetoReason_eq_zero {s : State} (h : s.rd Reg.SHELF.SLEEP_CFG.SLEEP_EN ≠ 0) (hf : s.faultsOnly = false) :
    s.vetoReason = 0 := by
  simp [State.vetoReason, bit01, h, hf]

/-- A veto before the command ends: the reason, the count, the event. -/
def State.vetoNoted (s : State) (reason : Nat) : State :=
  ((s.wr Reg.SHELF.VETO.LAST_REASON reason).bump Reg.SHELF.VETO.VETOES).raise Evt.SHELF.VETO_SENT

theorem State.veto_eq (s : State) (q reason : Nat) : s.veto q reason = (s.vetoNoted reason).complete q stVetoed := rfl

theorem State.vetoNoted_cmd? (s : State) (reason q : Nat) : (s.vetoNoted reason).cmd? q = s.cmd? q := State.raise_cmd? _ _ _ _

theorem State.vetoNoted_shelf (s : State) (reason : Nat) : (s.vetoNoted reason).shelf = s.shelf := State.raise_shelf _ _ _

section
variable {q : Nat} {s : State} {c : Cmd} (hw : AtWork s q c opPropose .decoded)
include hw

/-- A proposal that is judged now. -/
theorem execSleepPropose_of_first (hnone : s.shelf.proposal = none)
    (hfirst : (s.earlier q).any (fun d => d.opcode == opPropose && !d.done?) = false) :
    exec (.sleepPropose q) s = .next (if s.vetoReason ≠ 0 then s.veto q s.vetoReason
      else if s.faultPending then s.complete q stFaultPending
      else { (s.setCmd q (fun c => { c with phase := .waiting })).wr Reg.SHELF.SLEEP_STAT.STATE 1 with
        shelf := { s.shelf with proposal := some q, window := 0, armedBy := none } }).settle := by
  rw [exec_onCmd hw rfl]
  dsimp only
  rw [if_neg (by rw [hnone, hfirst]; decide)]
  rfl

end

section
variable {s : State} {q : Nat} {c : Cmd} (hk : s.clocked = true) (hp : s.shelf.proposal = some q)
include hp

/-- The card with the window closed. -/
def State.windowClosed (s : State) : State :=
  { (s.wr Reg.SHELF.SLEEP_STAT.STATE 0) with shelf := { s.shelf with proposal := none, window := 0 } }

theorem State.vetoEdge_of_fault (hf : s.faultPending = true) : s.vetoEdge = s.windowClosed.complete q stFaultPending := by
  unfold State.vetoEdge
  rw [hp]
  exact if_pos hf

theorem State.vetoEdge_of_cause (hf : s.faultPending = false) (hv : s.vetoCauses q ≠ 0) :
    s.vetoEdge = s.windowClosed.veto q (s.vetoCauses q) := by
  unfold State.vetoEdge
  rw [hp]
  exact (if_neg (by rw [hf]; decide)).trans (if_pos hv)

theorem State.vetoEdge_of_quiet (hf : s.faultPending = false) (hv : s.vetoCauses q = 0) : s.vetoEdge = s := by
  unfold State.vetoEdge
  rw [hp]
  exact (if_neg (by rw [hf]; decide)).trans (if_neg (fun h => h hv))

end

theorem State.vetoEdge_of_none {s : State} (hp : s.shelf.proposal = none) : s.vetoEdge = s := by
  unfold State.vetoEdge
  rw [hp]

theorem State.vetoCauses_lt (s : State) (q : Nat) : s.vetoCauses q < 2 ^ 4 := by
  unfold State.vetoCauses bit01
  dsimp only
  split <;> split <;> decide

theorem execSleepVeto_eq {s : State} (hk : s.clocked = true) : exec .sleepVeto s = s.vetoEdge.done := by
  change execSleepVeto s = _
  rw [execSleepVeto, if_pos hk]

theorem execVetoWindowEnd_eq {s : State} (hk : s.clocked = true) : exec .vetoWindowEnd s = s.windowEnds.done := by
  change execVetoWindowEnd s = _
  rw [execVetoWindowEnd, if_pos hk]

theorem State.windowEnds_of_none {s : State} (hp : s.shelf.proposal = none) : s.windowEnds = s := by
  unfold State.windowEnds
  rw [State.vetoEdge_of_none hp]
  dsimp only
  rw [hp]

/-- The card armed for a proposal (R151). -/
def State.armed (s : State) (c : Cmd) : State :=
  { (s.wr Reg.SHELF.SLEEP_STAT.STATE 2).wr Reg.SHELF.SLEEP_STAT.ROUND (c.field 0 16) with
    shelf := { s.shelf with proposal := none, window := 0, armedBy := some c.orig } }

theorem State.windowEnds_of_quiet {s : State} {q : Nat} {c : Cmd} (hp : s.shelf.proposal = some q) (hc : s.cmd? q = some c)
    (hf : s.faultPending = false) (hv : s.vetoCauses q = 0) : s.windowEnds = (s.armed c).complete q stOk := by
  unfold State.windowEnds
  rw [State.vetoEdge_of_quiet hp hf hv]
  dsimp only
  rw [hp]
  dsimp only
  rw [hc]
  rfl

/-- Settles O19: a proposal is judged, its window closed or the card armed, by the branches of the three rows. -/
theorem sleepProposals : Obligations.SleepProposals := by
  refine ⟨fun q s c hw hwait => ⟨_, moves_of hw rfl (if_pos ?_)⟩, fun q s c hw hnone hfirst => ⟨fun hveto => ?_, fun hen hall hf => ?_,
    fun hen hall hf => ?_⟩, fun q s c hk hp hc hd hf => ?_, fun s hk hp => ⟨⟨_, moves_done ?_⟩, ⟨_, moves_done ?_⟩⟩,
    fun q s c hk hp hc hd hf => ⟨fun hv => ?_, fun hv => ⟨_, moves_done ?_⟩, fun hv => ?_⟩⟩
  · rcases hwait with h | h
    · simp [Option.isSome_iff_ne_none.mpr h]
    · simp [h]
  · have hexec := execSleepPropose_of_first hw hnone hfirst
    rw [if_pos (State.vetoReason_ne_zero hveto), State.veto_eq] at hexec
    refine ⟨_, _, hexec, State.complete_fixed (data := 0) ((s.vetoNoted_cmd? _ _).trans hw.1) (isOpen_of_atWork hw (by decide)), ?_⟩
    exact (shelf_of_ends (State.complete_ends _ _ _ _ _ _)).trans (s.vetoNoted_shelf _)
  · have hexec := execSleepPropose_of_first hw hnone hfirst
    rw [if_neg (fun h => h (State.vetoReason_eq_zero hen hall)), if_pos hf] at hexec
    have hq := State.cmd?_q hw.1
    exact ⟨_, hexec, by rw [hq], State.complete_ends _ _ _ _ _ _, State.complete_fixed (data := 0) hw.1 (isOpen_of_atWork hw (by decide))⟩
  · have hexec := execSleepPropose_of_first hw hnone hfirst
    rw [if_neg (fun h => h (State.vetoReason_eq_zero hen hall)), if_neg (by rw [hf]; decide)] at hexec
    refine ⟨_, hexec, ?_, shelf_of_ends (State.settle_ends_self _)⟩
    rw [State.rd_settle _ rfl]
    exact State.rd_wr_of_lt (s.setCmd q fun d => { d with phase := .waiting }) (f := Reg.SHELF.SLEEP_STAT.STATE) (w := 2) (v := 1) rfl (by decide)
  · have hexec := (execSleepVeto_eq hk).trans (congrArg State.done (State.vetoEdge_of_fault hp hf))
    have hends := State.complete_ends s.windowClosed q stFaultPending 0 0 0
    refine ⟨_, hexec, congrArg Shelf.proposal (shelf_of_ends hends), ?_, State.complete_fixed (data := 0) hc hd⟩
    rw [rd_over_ends hends rfl]
    exact s.rd_wr_of_lt (f := Reg.SHELF.SLEEP_STAT.STATE) (w := 2) (v := 0) rfl (by decide)
  · rw [execSleepVeto_eq hk, State.vetoEdge_of_none hp]
  · rw [execVetoWindowEnd_eq hk, State.windowEnds_of_none hp]
  · have hexec := (execSleepVeto_eq hk).trans (congrArg State.done (State.vetoEdge_of_cause hp hf hv))
    have hends := State.complete_ends (s.windowClosed.vetoNoted (s.vetoCauses q)) q stVetoed 0 0 0
    refine ⟨_, hexec, ?_, ?_, ?_, State.complete_fixed (data := 0) ((State.vetoNoted_cmd? _ _ _).trans hc) hd⟩
    · exact congrArg Shelf.proposal ((shelf_of_ends hends).trans (State.vetoNoted_shelf _ _))
    · rw [State.veto_eq, rd_over_ends hends rfl, State.vetoNoted, State.rd_raise _ _ _ rfl, State.rd_bump_other _ _ rfl,
        State.rd_wr_other _ _ rfl]
      exact s.rd_wr_of_lt (f := Reg.SHELF.SLEEP_STAT.STATE) (w := 2) (v := 0) rfl (by decide)
    · rw [State.veto_eq, rd_over_ends hends rfl, State.vetoNoted, State.rd_raise _ _ _ rfl, State.rd_bump_other _ _ rfl]
      exact State.rd_wr_of_lt _ (w := 4) rfl (s.vetoCauses_lt q)
  · rw [execSleepVeto_eq hk, State.vetoEdge_of_quiet hp hf hv]
  · have hexec := (execVetoWindowEnd_eq hk).trans (congrArg State.done (State.windowEnds_of_quiet hp hc hf hv))
    have hends := State.complete_ends (s.armed c) q stOk 0 0 0
    refine ⟨_, hexec, congrArg Shelf.proposal (shelf_of_ends hends), congrArg Shelf.armedBy (shelf_of_ends hends), ?_, ?_,
      State.complete_fixed (data := 0) hc hd⟩
    · rw [rd_over_ends hends rfl]
      exact (State.rd_wr_other (g := Reg.SHELF.SLEEP_STAT.STATE) _ _ rfl).trans (s.rd_wr_of_lt (w := 2) rfl (by decide))
    · rw [rd_over_ends hends rfl]
      exact State.rd_wr_of_lt _ (w := 16) rfl (c.field_lt 0 16)

end Sys2Proof.Machine
end

section
/-!
Slices: locks, unbinding and the binding challenge (chapter 7).
-/
namespace Sys2Proof.Machine
open Sys2Proof.Safety

/-! What a row keeps of the command that it acts on. -/

theorem State.cmd?_of_cmds {s t : State} (h : t.cmds = s.cmds) (q : Nat) : t.cmd? q = s.cmd? q := by
  unfold State.cmd?
  rw [h]

theorem length_slices {s : State} (h : wf s) : s.slices.length = 64 := h.2.2.2

/-- An update of a Slice is told by what it makes of the Slice as it stands. -/
theorem State.setSlice_congr {s : State} {i : Nat} {f g : Slice → Slice} (h : f (s.slice i) = g (s.slice i)) :
    s.setSlice i f = s.setSlice i g := by
  have hlist : s.slices.modify i f = s.slices.modify i g := by
    refine List.ext_getElem? fun j => ?_
    rw [List.getElem?_modify, List.getElem?_modify]
    rcases eq_or_ne i j with rfl | hne
    · simp only [if_true]
      rcases Nat.lt_or_ge i s.slices.length with hlt | hge
      · have hslice : s.slices[i] = s.slice i := (List.getD_eq_getElem _ _ hlt).symm
        rw [List.getElem?_eq_getElem hlt, hslice]
        exact congrArg some h
      · rw [List.getElem?_eq_none hge]
        rfl
    · simp only [if_neg hne]
  unfold State.setSlice
  rw [hlist]

theorem State.slice_setSlice_of_wf {s : State} (h : wf s) {i : Nat} (hi : i < 64) (f : Slice → Slice) :
    (s.setSlice i f).slice i = f (s.slice i) :=
  s.slice_setSlice_self f (by rw [length_slices h]; exact hi)

/-- A Slice that the card does not have reads FREE. -/
theorem State.lt_of_slice {s : State} {i : Nat} (h : s.slice i ≠ Slice.free) : i < s.slices.length := by
  by_contra hge
  exact h (List.getD_eq_default _ _ (Nat.le_of_not_lt hge))

/-! Locks. -/

/-- The lock that SLICE_LOCK takes (R182, R183). -/
def State.lockFor (s : State) (c : Cmd) : Lock :=
  { orig := c.orig, epoch := (s.orig c.orig).epoch, lease := if c.field 4 32 = 0 then none else some (c.field 4 32) }

/-- The card with that lock on the Slice that the command names. -/
def State.locked (s : State) (c : Cmd) : State := s.setSlice (c.field 0 8) (fun sl => { sl with lock := some (s.lockFor c) })

theorem State.takeLock_eq (s : State) (c : Cmd) : s.takeLock c (c.field 0 8) = (s.locked c).complete c.q stOk := rfl

/-- SLICE_LOCK on a Slice that no other Originator holds takes or renews the lock. -/
theorem sliceLock_takes {q : Nat} {s : State} {c : Cmd} (hw : AtWork s q c opLock .decoded)
    (h : ∀ l, (s.slice (c.field 0 8)).lock = some l → l.orig = c.orig) :
    Finishes (.sliceLock q) s (s.locked c) c stOk 0 ((s.locked c).complete q stOk).settle := by
  have hq := State.cmd?_q hw.1
  refine finishes_of hw (by decide) rfl ?_ hw.1
  dsimp only
  split
  · rename_i l hl
    rw [if_neg (fun hne => hne (h l hl)), s.takeLock_eq, hq]
  · rw [s.takeLock_eq, hq]

/-- The Slice with its lock released. -/
def State.unlocked (s : State) (i : Nat) : State := s.setSlice i (fun sl => { sl with lock := none })

theorem State.unlocked_lock (s : State) (i : Nat) : ((s.unlocked i).slice i).lock = none := by
  rcases s.slice_setSlice_cases i (fun sl => { sl with lock := none }) with h | h <;> exact congrArg Slice.lock h

/-- SLICE_UNLOCK by the holder, or by the Administrator with the event. -/
theorem sliceUnlock_releases {q : Nat} {s : State} {c : Cmd} (hw : AtWork s q c opUnlock .decoded) {l : Lock}
    (hl : (s.slice (c.field 0 8)).lock = some l) (h : l.orig = c.orig ∨ s.isAdmin c.orig = true) :
    let x := if l.orig = c.orig then s.unlocked (c.field 0 8) else (s.unlocked (c.field 0 8)).raise Evt.SLICE.LOCK_BROKEN (c.field 0 8)
    Finishes (.sliceUnlock q) s x c stOk 0 (x.complete q stOk).settle := by
  refine finishes_of hw (by decide) rfl ?_ ?_
  · dsimp only
    rw [hl]
    dsimp only
    split
    · rfl
    · rename_i hne
      rw [if_pos (h.resolve_left hne)]
      rfl
  · split
    · exact hw.1
    · exact (State.raise_cmd? _ _ _ _).trans hw.1

theorem sliceUnlock_refuses {q : Nat} {s : State} {c : Cmd} (hw : AtWork s q c opUnlock .decoded)
    (h : ∀ l, (s.slice (c.field 0 8)).lock = some l → l.orig ≠ c.orig ∧ s.isAdmin c.orig = false) :
    Finishes (.sliceUnlock q) s s c stConflict 0 (s.complete q stConflict).settle := by
  refine finishes_of hw (by decide) rfl ?_ hw.1
  dsimp only
  split
  · rfl
  · rename_i l hl
    obtain ⟨hne, hadmin⟩ := h l hl
    rw [if_neg hne, hadmin]
    rfl

/-- A lease that runs out. -/
theorem leaseExpired_moves {i n : Nat} {s : State} {l : Lock} (hk : s.clocked = true) (hl : (s.slice i).lock = some l)
    (hn : l.lease = some n) : Moves (.leaseExpired i) s (s.expireLease i) (s.expireLease i).settle := by
  refine moves_done ?_
  change execLeaseExpired i s = _
  unfold execLeaseExpired
  rw [hl]
  dsimp only
  rw [hn]
  exact if_pos hk

/-- Settles O33: by the holder of the lock, and by who asks for its release. -/
theorem locks : Obligations.Locks := by
  refine ⟨fun q s c hw hwf hi => ⟨fun l hl hne => ?_, fun h => ?_⟩, fun q s c hw hwf hi => ⟨fun l hl h => ?_, fun l hl hne hadmin => ?_,
    fun hnone => ?_⟩, fun i n s l hk hl hn => ?_⟩
  · refine ⟨_, finishes_of hw (by decide) rfl ?_ hw.1⟩
    dsimp only
    rw [hl]
    exact if_pos hne
  · have hfin := sliceLock_takes hw h
    have hends : Ends (s.locked c) _ := hfin.2.2.1
    refine ⟨_, _, hfin, ?_, ?_, fun j hj => ?_⟩
    · exact (State.setSlice_moved (T := partsOf [.slices]) (by exact rfl) (Moved.refl _ s)).agree.only
        fun _ => partsOf_testBit_of_not_mem
    · rw [slice_of_ends hends, State.locked, State.slice_setSlice_of_wf hwf hi]
      rfl
    · rw [slice_of_ends hends]
      exact s.slice_setSlice_ne _ hj
  · have hfin := sliceUnlock_releases hw hl h
    have hends := hfin.2.2.1
    have hslices : ∀ j, (if l.orig = c.orig then s.unlocked (c.field 0 8)
        else (s.unlocked (c.field 0 8)).raise Evt.SLICE.LOCK_BROKEN (c.field 0 8)).slice j = (s.unlocked (c.field 0 8)).slice j := by
      intro j
      split
      · rfl
      · exact State.slice_of_slices (State.raise_slices _ _ _) j
    refine ⟨_, _, hfin, ?_, fun hne => if_neg hne, fun j hj => ?_⟩
    · rw [slice_of_ends hends, hslices]
      exact s.unlocked_lock _
    · rw [slice_of_ends hends, hslices]
      exact s.slice_setSlice_ne _ hj
  · refine ⟨_, sliceUnlock_refuses hw fun l' hl' => ?_⟩
    cases hl.symm.trans hl'
    exact ⟨hne, hadmin⟩
  · exact ⟨_, sliceUnlock_refuses hw fun l' hl' => by cases hnone.symm.trans hl'⟩
  · have hmoves := leaseExpired_moves hk hl hn
    have hslice : (s.expireLease i).settle.slice i = (s.unlocked i).slice i :=
      (slice_of_ends hmoves.2.2 i).trans (State.slice_of_slices (State.raise_slices _ _ _) i)
    refine ⟨_, hmoves, ?_, ?_⟩
    · rw [hslice]
      exact s.unlocked_lock i
    · rw [hslice]
      have hself := s.slice_setSlice_self (fun sl => { sl with lock := none }) (State.lt_of_slice (i := i) fun h => by rw [h] at hl; cases hl)
      exact (congrArg Slice.owner hself).trans rfl

/-! Unbinding. -/

/-- Does the Slice's owner hold its lock? -/
def Slice.ownerLocks (sl : Slice) : Bool :=
  match sl.owner, sl.lock with
  | some o, some l => l.orig == o
  | _, _ => false

/-- What the owner's going leaves of its Slice (R168). -/
def Slice.disowned (sl : Slice) : Slice := { sl with owner := none, lock := if sl.ownerLocks then none else sl.lock }

theorem Slice.disowned_lock {sl : Slice} {l : Lock} (h : sl.disowned.lock = some l) : sl.lock = some l ∧ sl.owner ≠ some l.orig := by
  unfold Slice.disowned at h
  by_cases hown : sl.ownerLocks = true
  · simp [hown] at h
  · simp only [hown, Bool.false_eq_true, if_false] at h
    refine ⟨h, fun ho => hown ?_⟩
    simp [Slice.ownerLocks, ho, h]

/-- The owner goes: its Slice without it, no other Slice changed. -/
theorem State.unbind_slices (s : State) (i sender : Nat) : (s.unbind i sender).slices = (s.setSlice i Slice.disowned).slices := by
  unfold State.unbind
  split
  · rename_i ho
    have hsame : (s.slice i).disowned = s.slice i := by
      cases h : s.slice i
      simp_all [Slice.disowned, Slice.ownerLocks]
    have hset : s.setSlice i Slice.disowned = s.setSlice i id := State.setSlice_congr hsame
    rw [hset]
    exact (List.modify_id i s.slices).symm
  · rename_i o ho
    extract_lets held base told
    have hset : base = s.setSlice i Slice.disowned := by
      refine State.setSlice_congr ?_
      cases hl : (s.slice i).lock <;> simp [Slice.disowned, Slice.ownerLocks, held, ho, hl]
    have htold : told.slices = base.slices := by
      dsimp only [told]
      split
      · exact State.raise_slices _ _ _
      · rfl
    rw [State.raise_slices, htold, hset]

theorem State.unbind_slice_ne (s : State) {i j : Nat} (sender : Nat) (h : j ≠ i) : (s.unbind i sender).slice j = s.slice j :=
  (State.slice_of_slices (s.unbind_slices i sender) j).trans (s.slice_setSlice_ne _ h)

theorem State.unbind_slice_of_wf {s : State} (hwf : wf s) {i : Nat} (hi : i < 64) (sender : Nat) :
    (s.unbind i sender).slice i = (s.slice i).disowned :=
  (State.slice_of_slices (s.unbind_slices i sender) i).trans (State.slice_setSlice_of_wf hwf hi _)

theorem State.unbind_cmd? (s : State) (i sender q : Nat) : (s.unbind i sender).cmd? q = s.cmd? q :=
  State.cmd?_of_cmds ((State.unbind_moved (Within.refl 706) (Moved.refl _ s)).same .cmds rfl) q

/-- Settles O32: the two rows by their conditions, and the owner's going on the Slice. -/
theorem unbinding : Obligations.Unbinding := by
  refine ⟨fun q s c hw => ⟨fun h => ⟨_, finishes_of hw (by decide) rfl (if_pos ?_) hw.1⟩, fun hown hlock => ⟨_, moves_of hw rfl (if_neg ?_)⟩⟩,
    fun q s c hw hwf hi => ⟨fun hquiet => ?_, fun hquiet => ⟨_, moves_of hw rfl (if_neg ?_)⟩⟩⟩
  · rcases h with h | h
    · simp [h]
    · simp [State.lockedTo, h]
  · simp [State.lockedTo, hown, hlock]
  · have hcmd : (s.unbind (c.field 0 8) c.orig).cmd? q = some c := (s.unbind_cmd? _ _ _).trans hw.1
    obtain ⟨hexec, -, hends, hfixed⟩ := finishes_of (i := .sliceUnbindComplete q) hw (by decide) rfl (if_pos hquiet) hcmd
    have hslice : (((s.unbind (c.field 0 8) c.orig).complete q stOk).settle).slice (c.field 0 8) = (s.slice (c.field 0 8)).disowned :=
      (slice_of_ends hends _).trans (State.unbind_slice_of_wf hwf hi _)
    refine ⟨_, hexec, by rw [hslice]; rfl, by rw [hslice]; rfl, fun l hl => ?_, fun j hj => ?_, hfixed⟩
    · rw [hslice] at hl
      exact Slice.disowned_lock hl
    · exact (slice_of_ends hends _).trans (s.unbind_slice_ne _ hj)
  · rw [State.sliceQuiet, hquiet]
    decide

end Sys2Proof.Machine
end

section
/-!
Slices: the binding challenge (R162–R165).
-/
namespace Sys2Proof.Machine
open Sys2Proof.Safety

/-! The nonce of an Originator as a command ends. -/

/-- A completion moves the Originators only as it spends the nonce of a SLICE_BIND. -/
theorem State.complete_origs_of_open {s : State} {q status result data dataLen : Nat} {c : Cmd} (h : s.cmd? q = some c)
    (hd : c.done? = false) : (s.complete q status result data dataLen).origs = (s.spendNonce c).origs := by
  unfold State.complete
  split
  · rename_i hnone
    cases h.symm.trans hnone
  · rename_i d hsome
    cases h.symm.trans hsome
    rw [hd, if_neg Bool.false_ne_true]
    extract_lets v0 v1 v2 v3 v4 v5 v6
    split
    · exact State.leave_origs _ _
    · exact (State.owe_moved (Within.refl 4) (Moved.refl _ _)).origs_eq rfl

theorem State.spendNonce_of_not_answer {c : Cmd} (h : c.field 1 8 ≠ 1) (s : State) : s.spendNonce c = s :=
  if_neg fun x => h x.2

theorem find?_mapIf {α : Type} {p r : α → Bool} {f : α → α} (hf : ∀ x, p (f x) = p x) (l : List α) :
    (mapIf r f l).find? p = (l.find? p).map (fun x => if r x then f x else x) := by
  induction l with
  | nil => rfl
  | cons a l ih =>
    have hp : p (if r a then f a else a) = p a := by
      split
      · exact hf a
      · rfl
    rw [mapIf, List.find?_cons, List.find?_cons, hp, ih]
    cases p a <;> rfl

/-- The answer of a SLICE_BIND spends the sender's nonce and leaves every other entry. -/
theorem State.orig_spendNonce {c : Cmd} (ho : c.opcode = opBind) (h : c.field 1 8 = 1) (s : State) (o : Nat) :
    (s.spendNonce c).orig o = if o = c.orig then { s.orig o with nonce := none } else s.orig o := by
  unfold State.spendNonce
  rw [if_pos ⟨ho, h⟩]
  unfold State.orig
  dsimp only
  rw [find?_mapIf (f := fun (x : Orig) => { x with nonce := none }) fun _ => rfl]
  cases hfind : s.origs.find? (fun x => x.id == o) with
  | none => split <;> rfl
  | some x =>
    have hid : x.id = o := beq_iff_eq.mp (List.find?_some hfind :)
    simp [hid]

theorem State.complete_orig_of_answer {s : State} {q : Nat} {c : Cmd} (h : s.cmd? q = some c) (hd : c.done? = false)
    (ho : c.opcode = opBind) (hstep : c.field 1 8 = 1) (st r o : Nat) :
    (s.complete q st r).orig o = if o = c.orig then { s.orig o with nonce := none } else s.orig o :=
  (State.orig_of_origs_eq (State.complete_origs_of_open h hd) o).trans (State.orig_spendNonce ho hstep s o)

/-! STEP 0. -/

/-- The card with a fresh nonce for an Originator. -/
def State.challenged (s : State) (o i : Nat) : State :=
  ({ s with draws := s.draws + 1 } : State).setOrig o (fun x => { x with nonce := some (i, s.draws) })

theorem State.challenged_moved (s : State) (o i : Nat) : Moved (partsOf [.draws, .origs]) s (s.challenged o i) := by
  exact State.setOrig_moved (by exact rfl) (Moved.set_draws (by exact rfl) (Moved.refl _ s))

theorem State.orig_challenged (s : State) (o i : Nat) : (s.challenged o i).orig o = { s.orig o with nonce := some (i, s.draws) } :=
  State.orig_setOrig_self _ (s.orig_id o)

theorem State.orig_challenged_ne (s : State) {o p : Nat} (i : Nat) (h : p ≠ o) : (s.challenged o i).orig p = s.orig p :=
  State.orig_setOrig_ne _ (s.orig_id o) h

theorem sliceBindChallenge_finishes {q : Nat} {s : State} {c : Cmd} (hw : AtWork s q c opBind .decoded) (hstep : c.field 1 8 = 0)
    (h : s.bindConflict c.orig (c.field 0 8) = false) :
    Finishes (.sliceBindChallenge q) s (s.challenged c.orig (c.field 0 8)) c stOk (Config.nonce s.draws).toNat
      ((s.challenged c.orig (c.field 0 8)).complete q stOk (Config.nonce s.draws).toNat).settle := by
  refine finishes_of hw (by decide) rfl ?_ hw.1
  dsimp only
  rw [if_neg (by rw [hstep]; decide), h]
  rfl

/-! STEP 1. -/

/-- The owner bound, with the count of failures at 0. -/
def State.bound (s : State) (o i : Nat) : State :=
  ((s.setSlice i (fun sl => { sl with owner := some o })).wr (Reg.SLICE.AUTH.FAILS.inBank i) 0).raise Evt.SLICE.BOUND i

/-- A failure counted, up to 16, where the Slice is blocked. -/
def State.authFailed (s : State) (i : Nat) : State :=
  let f := Reg.SLICE.AUTH.FAILS.inBank i
  let n := min 16 (s.rd f + 1)
  let s := (s.wr f n).raise Evt.SLICE.AUTH_FAILED i
  if n = 16 ∧ s.rd (Reg.SLICE.AUTH.BLOCKED.inBank i) = 0 then
    (s.wr (Reg.SLICE.AUTH.BLOCKED.inBank i) 1).raise Evt.SLICETAB.AUTH_BLOCKED
  else s

theorem State.authFailed_moved {T : Nat} (hT : Within 194 T) (s : State) (i : Nat) : Moved T s (s.authFailed i) := by
  unfold State.authFailed
  extract_lets f n s1
  have h1 : Moved T s s1 := State.raise_moved hT (State.wr_moved (hT.mono rfl) (Moved.refl _ s))
  exact Moved.ite (State.raise_moved hT (State.wr_moved (hT.mono rfl) h1)) h1

theorem State.authFailed_fails (s : State) (i : Nat) :
    (s.authFailed i).rd (Reg.SLICE.AUTH.FAILS.inBank i) = min 16 (s.rd (Reg.SLICE.AUTH.FAILS.inBank i) + 1) := by
  unfold State.authFailed
  extract_lets f n s1
  have hn : n < 2 ^ 8 := Nat.lt_of_le_of_lt (Nat.min_le_left _ _) (by decide)
  have h1 : s1.rd f = n := (State.rd_raise _ _ _ rfl).trans (s.rd_wr_of_lt (f := f) (w := 8) rfl hn)
  split
  · exact (State.rd_raise _ _ _ rfl).trans ((State.rd_wr_other _ _ rfl).trans h1)
  · exact h1

theorem State.authFailed_blocked {s : State} {i : Nat} (h : 15 ≤ s.rd (Reg.SLICE.AUTH.FAILS.inBank i))
    (hb : s.rd (Reg.SLICE.AUTH.BLOCKED.inBank i) = 0) : (s.authFailed i).rd (Reg.SLICE.AUTH.BLOCKED.inBank i) = 1 := by
  unfold State.authFailed
  extract_lets f n s1
  have hn : n = 16 := by dsimp only [n, f]; omega
  have h1 : s1.rd (Reg.SLICE.AUTH.BLOCKED.inBank i) = 0 :=
    (State.rd_raise _ _ _ rfl).trans ((s.rd_wr_other _ rfl).trans hb)
  rw [if_pos ⟨hn, h1⟩]
  exact (State.rd_raise _ _ _ rfl).trans (s1.rd_wr_of_lt (f := Reg.SLICE.AUTH.BLOCKED.inBank i) (w := 1) (v := 1) rfl (by decide))

/-- What the answer of a SLICE_BIND with an outstanding nonce makes of the card, and the status with which it ends. -/
def State.bindAnswered (s : State) (c : Cmd) (j n : Nat) : State × Nat :=
  let i := c.field 0 8
  if j ≠ i ∨ s.bindConflict c.orig i then (s, stConflict)
  else if s.macGood c n i then (s.bound c.orig i, stOk)
  else (s.authFailed i, stAuthFailed)

theorem State.bindAnswered_moved (s : State) (c : Cmd) (j n : Nat) : Moved 706 s (s.bindAnswered c j n).1 := by
  unfold State.bindAnswered
  dsimp only
  split
  · exact Moved.refl _ s
  · split
    · exact State.raise_moved (by exact rfl) (State.wr_moved (by exact rfl) (State.setSlice_moved (by exact rfl) (Moved.refl _ s)))
    · exact s.authFailed_moved (by exact rfl) _

theorem sliceBindAnswer_finishes {q : Nat} {s : State} {c : Cmd} (hw : AtWork s q c opBind .decoded) (hstep : c.field 1 8 = 1)
    {j n : Nat} (hn : (s.orig c.orig).nonce = some (j, n)) :
    Finishes (.sliceBindAnswer q) s (s.bindAnswered c j n).1 c (s.bindAnswered c j n).2 0
      ((s.bindAnswered c j n).1.complete q (s.bindAnswered c j n).2).settle := by
  refine finishes_of hw (by decide) rfl ?_ ((State.cmd?_of_cmds ((s.bindAnswered_moved c j n).same .cmds rfl) q).trans hw.1)
  dsimp only
  rw [if_neg (fun h => h hstep), hn]
  unfold State.bindAnswered
  dsimp only
  split
  · rfl
  · split <;> rfl

theorem State.macGood_of_open {s : State} {i : Nat} (h : (s.slice i).cfg.bindKey = 0) (c : Cmd) (n : Nat) : s.macGood c n i = true := by
  simp [State.macGood, h]

/-- What the answer leaves: the nonce spent, other Originators and other Slices as they were. -/
theorem bindAnswer_leaves {q : Nat} {s : State} {c : Cmd} (hw : AtWork s q c opBind .decoded) (hstep : c.field 1 8 = 1) (j n : Nat) :
    let t := ((s.bindAnswered c j n).1.complete q (s.bindAnswered c j n).2).settle
    (t.orig c.orig).nonce = none ∧ (∀ o, o ≠ c.orig → t.orig o = s.orig o) ∧ ∀ k, k ≠ c.field 0 8 → t.slice k = s.slice k := by
  have hmoved := s.bindAnswered_moved c j n
  have hcmd : (s.bindAnswered c j n).1.cmd? q = some c := (State.cmd?_of_cmds (hmoved.same .cmds rfl) q).trans hw.1
  have horig : ∀ o, (((s.bindAnswered c j n).1.complete q (s.bindAnswered c j n).2).settle).orig o =
      if o = c.orig then { s.orig o with nonce := none } else s.orig o := by
    intro o
    rw [State.orig_of_origs_eq (State.settle_origs _), State.complete_orig_of_answer hcmd (isOpen_of_atWork hw (by decide)) hw.2.2.1 hstep,
      State.orig_of_origs_eq (hmoved.same .origs rfl)]
  refine ⟨by rw [horig, if_pos rfl], fun o ho => by rw [horig, if_neg ho], fun k hk => ?_⟩
  refine (slice_of_ends (State.complete_ends _ _ _ _ _ _) k).trans ?_
  unfold State.bindAnswered
  dsimp only
  split
  · rfl
  · split
    · exact (State.slice_of_slices (State.raise_slices _ _ _) k).trans (s.slice_setSlice_ne _ hk)
    · exact State.slice_of_slices ((s.authFailed_moved (Within.refl 194) _).same .slices rfl) k

/-- Settles O31: the challenge draws a nonce, the answer ends by nonce, conflict and MAC, and either way its completion spends the
nonce. -/
theorem binding : Obligations.Binding := by
  refine ⟨fun q s c hw hstep => ⟨fun h => ⟨_, finishes_of hw (by decide) rfl ?_ hw.1⟩, fun h => ?_⟩, fun q s c hw hstep hwf hi => ?_,
    fun q st r s c hcmd hd ho hstep => ?_⟩
  · simp [hstep, h]
  · have hfin := sliceBindChallenge_finishes hw hstep h
    obtain ⟨-, -, hends, -⟩ := id hfin
    have horigs : (((s.challenged c.orig (c.field 0 8)).complete q stOk (Config.nonce s.draws).toNat).settle).origs =
        (s.challenged c.orig (c.field 0 8)).origs := by
      have hopen := State.complete_origs_of_open (s := s.challenged c.orig (c.field 0 8)) (status := stOk)
        (result := (Config.nonce s.draws).toNat) (data := 0) (dataLen := 0) hw.1 (isOpen_of_atWork hw (by decide))
      rw [State.settle_origs, hopen, State.spendNonce_of_not_answer (by rw [hstep]; decide)]
    have horig := State.orig_of_origs_eq horigs
    refine ⟨_, _, hfin, ?_, ?_, draws_of_ends hends, fun o ho => ?_, ?_⟩
    · rw [horig, State.orig_challenged]
    · rw [horig, State.orig_challenged]
    · rw [horig, State.orig_challenged_ne _ _ ho]
    · exact (s.challenged_moved _ _).agree.only fun _ => partsOf_testBit_of_not_mem
  · intro i fails
    refine ⟨fun hnone => ⟨_, finishes_of hw (by decide) rfl ?_ hw.1⟩, fun j n hn => ?_⟩
    · simp [hstep, hnone]
    · obtain ⟨hexec, -, hends, hfixed⟩ := sliceBindAnswer_finishes hw hstep hn
      obtain ⟨hnonce, horigs, hslices⟩ := bindAnswer_leaves hw hstep j n
      have hfails := rd_over_ends hends (f := fails) rfl
      have hslice := slice_of_ends hends i
      refine ⟨_, hexec, hnonce, horigs, hslices, fun hconf => ?_, fun hj hconf hmac => ?_, fun hj hconf hmac hkey => ?_⟩
      · have hans : s.bindAnswered c j n = (s, stConflict) := if_pos hconf
        rw [hans] at hfails hslice hfixed ⊢
        exact ⟨hslice, hfails, hfixed⟩
      · have hgood : s.macGood c n i = true := hmac.elim id fun h => State.macGood_of_open h c n
        have hans : s.bindAnswered c j n = (s.bound c.orig i, stOk) :=
          (if_neg (by rw [hconf]; simp [hj, i])).trans (if_pos hgood)
        rw [hans] at hfails hslice hfixed ⊢
        refine ⟨?_, ?_, hfixed⟩
        · rw [hslice, State.bound, State.slice_of_slices (State.raise_slices _ _ _)]
          exact congrArg Slice.owner (State.slice_setSlice_of_wf hwf hi fun sl => { sl with owner := some c.orig })
        · rw [hfails, State.bound, State.rd_raise _ _ _ rfl]
          exact State.rd_wr_of_lt _ (f := fails) (w := 8) (v := 0) rfl (by decide)
      · have hans : s.bindAnswered c j n = (s.authFailed i, stAuthFailed) :=
          (if_neg (by rw [hconf]; simp [hj, i])).trans (if_neg (by rw [hmac]; decide))
        rw [hans] at hfails hslice hfixed hends ⊢
        refine ⟨?_, hfails.trans (s.authFailed_fails i), fun h15 hb => ?_, hfixed⟩
        · exact hslice.trans (State.slice_of_slices ((s.authFailed_moved (Within.refl 194) i).same .slices rfl) i)
        · exact (rd_over_ends hends rfl).trans (State.authFailed_blocked h15 hb)
  · rw [State.complete_orig_of_answer hcmd hd ho hstep, if_pos rfl]

end Sys2Proof.Machine
end

section
/-!
Slices: resets, creation and destruction (R170, R173, R174, R179).
-/
namespace Sys2Proof.Machine
open Sys2Proof.Safety

/-! Registers at their reset values. -/

theorem storeRead_regClear (m : Store) (p : Nat → Bool) (k : Nat) :
    storeRead (regClear m p) k = if p k = true then 0 else storeRead m k := by
  induction m with
  | nil => exact (ite_self 0).symm
  | cons e m ih =>
    obtain ⟨key, v⟩ := e
    unfold regClear at ih ⊢
    cases hp : p key with
    | true =>
      rw [List.filter_cons_of_neg (by simp [hp]), ih]
      split
      · rfl
      · rename_i hk
        have hne : key ≠ k := fun e => hk (e ▸ hp)
        rw [storeRead, if_neg hne]
    | false =>
      rw [List.filter_cons_of_pos (by simp [hp]), storeRead, storeRead, ih]
      rcases eq_or_ne key k with rfl | hne
      · simp [hp]
      · simp only [if_neg hne]

/-- A field that a reset clears reads its reset value. -/
theorem State.rd_of_cleared {s t : State} {p : Nat → Bool} (h : t.regs = regClear s.regs p) {f : Field} (hf : p f.key = true) :
    t.rd f = f.reset := by
  unfold State.rd regRead
  rw [h, storeRead_regClear, if_pos hf, Nat.zero_xor]

/-! What every change of the flash side brings about, on registers: it writes those of the end of a step and the count of starved
entries. -/

section
variable {k : Nat} (hk : endKey k = false) (hu : Reg.UPKEEP.STARVE.ENTRIES.key ≠ k) {b s : State}
include hk

theorem Stands.raise {ev : Nat × Nat} {bank : Nat} (hs : Stands k b s) : Stands k b (s.raise ev bank) :=
  ((State.raise_tail (Tail.refl s)).regs k hk).trans hs

theorem Stands.endCmd {q status result : Nat} (hs : Stands k b s) : Stands k b (s.endCmd q status result) := by
  unfold State.endCmd
  have hw : Stands k b (s.withdraw q) := hs
  have hc : Stands k b ((s.withdraw q).complete q status result) := ((State.complete_tail (Tail.refl _)).regs k hk).trans hw
  have he := hc.of_moved (State.sweepEngines_moved (Within.refl 2048) (Moved.refl _ _)) rfl
  exact he

theorem Stands.endTrim {q status : Nat} (hs : Stands k b s) : Stands k b (s.endTrim q status) := by
  unfold State.endTrim
  split
  · refine Stands.ite (Stands.ite hs (Stands.of_moved ?_ (State.addJob_moved (Within.refl 2048) (Moved.refl _ _)) rfl)) (hs.endCmd hk)
    exact hs
  · exact hs

theorem Stands.settle (hs : Stands k b s) : Stands k b s.settle := ((State.settle_tail (Tail.refl s)).regs k hk).trans hs

include hu

theorem Stands.flashSettle (hs : Stands k b s) : Stands k b s.flashSettle := by
  have hlife : Stands k b s.lifeSettle := by
    unfold State.lifeSettle
    extract_lets v0 v1 v2
    have hv2 : Stands k b v2 := hs
    exact Stands.ite hs (Stands.ite (hv2.raise hk) hv2)
  have hread : Stands k b s.lifeSettle.readOnlySettle := by
    unfold State.readOnlySettle
    extract_lets v0 v1 v2 v3
    have hv2 : Stands k b v2 := hlife
    exact Stands.ite (foldl_stands (hv2.raise hk) fun _ _ h => h.endTrim hk) hv2
  have hstarve : Stands k b s.lifeSettle.readOnlySettle.starveSettle := by
    unfold State.starveSettle
    extract_lets v0 v1
    exact Stands.ite (Stands.ite hread hread) (Stands.ite (State.bump_stands hu (Stands.raise hk hread)) hread)
  have hpatrol : Stands k b s.lifeSettle.readOnlySettle.starveSettle.patrolSettle := by
    unfold State.patrolSettle
    exact Stands.ite (Stands.raise hk hstarve) hstarve
  unfold State.flashSettle State.debtSettle
  extract_lets v0 v1 v2 v3
  have hv2 : Stands k b v2 := hpatrol
  have hv3 : Stands k b v3 := Stands.ite (hv2.raise hk) hv2
  exact Stands.ite (hv3.raise hk) hv3

end

theorem State.flashSettle_slices (s : State) : s.flashSettle.slices = s.slices :=
  (State.flashSettle_moved (Within.refl 2558) (Moved.refl _ s)).same .slices rfl

theorem State.settle_slices (s : State) : s.settle.slices = s.slices := slices_of_ends s.settle_ends_self

/-! A Slice reset. -/

/-- A field of a Slice's banks that a Slice reset clears lies on page SLICE or QUEUE. -/
theorem keyPage_of_clearedBySlice {i k : Nat} (h : clearedBySlice i k = true) : keyPage k = 6 ∨ keyPage k = 7 :=
  (of_decide_eq_true h).2.2

theorem starve_ne_of_clearedBySlice {i k : Nat} (h : clearedBySlice i k = true) : Reg.UPKEEP.STARVE.ENTRIES.key ≠ k := by
  rintro rfl
  rcases keyPage_of_clearedBySlice h with h | h <;> revert h <;> decide

theorem State.endSlice_slices (s : State) (i : Nat) (cs : List Cmd) : (s.endSlice i cs).slices = s.slices :=
  (State.endSlice_moved (Within.refl 2430) (Moved.refl _ s)).same .slices rfl

/-- The last of the steps of R179 that `endSlice` takes puts the B fields of the two banks at their reset values. -/
theorem State.endSlice_regs (s : State) (i : Nat) (cs : List Cmd) :
    ∃ r, (s.endSlice i cs).regs = regClear r (clearedBySlice i) := by
  unfold State.endSlice
  exact ⟨_, rfl⟩

/-- The Slice as a reset finds it. -/
def State.resetting (s : State) (i : Nat) (mover : Option Nat) : State :=
  s.setSlice i (fun sl => { sl with st := .resetting, mover := mover })

theorem State.beginReset_slices (s : State) (i : Nat) (mover : Option Nat) (cs : List Cmd) :
    (s.beginReset i mover cs).settle.slices = (s.resetting i mover).slices := by
  unfold State.beginReset
  exact (State.settle_slices _).trans ((State.flashSettle_slices _).trans (State.endSlice_slices _ _ _))

theorem State.beginReset_rd (s : State) (i : Nat) (mover : Option Nat) (cs : List Cmd) {f : Field}
    (hf : clearedBySlice i f.key = true) (hk : endKey f.key = false) : (s.beginReset i mover cs).settle.rd f = f.reset := by
  obtain ⟨r, hr⟩ := (s.resetting i mover).endSlice_regs i cs
  have hcleared : ((s.resetting i mover).endSlice i cs).rd f = f.reset := by
    unfold State.rd regRead
    rw [hr, storeRead_regClear, if_pos hf, Nat.zero_xor]
  refine Eq.trans (Stands.rd ?_) hcleared
  exact Stands.settle hk (Stands.flashSettle hk (starve_ne_of_clearedBySlice hf) (Stands.refl _ _))

/-- The Slice ACTIVE again, with the reset counted (R179). -/
def State.resetEnded (s : State) (i : Nat) : State :=
  ((s.setSlice i (fun sl => { sl with st := .active, mover := none })).bump (Reg.SLICE.COUNTS.RESETS.inBank i)).raise
    Evt.SLICE.RESET_DONE i

theorem execSliceResetEnd_of_quiet {i : Nat} {s : State} (hk : s.clocked = true) (hst : (s.slice i).st = .resetting)
    (hb : s.sliceBusy i = false) : exec (.sliceResetEnd i) s =
      match (s.slice i).mover with
      | some q => ((s.resetEnded i).complete q stOk).done
      | none => (s.resetEnded i).done := by
  change execSliceResetEnd i s = _
  unfold execSliceResetEnd
  rw [if_pos (by simp [hk, hst, hb])]
  rfl

theorem State.resetEnded_slice (s : State) {i : Nat} (h : i < s.slices.length) :
    (s.resetEnded i).slice i = { s.slice i with st := .active, mover := none } :=
  (State.slice_of_slices (State.raise_slices _ _ _) i).trans (s.slice_setSlice_self _ h)

theorem State.resetEnded_resets (s : State) (i : Nat) : (s.resetEnded i).rd (Reg.SLICE.COUNTS.RESETS.inBank i) =
    satAdd (s.rd (Reg.SLICE.COUNTS.RESETS.inBank i)) 1 (ones Reg.SLICE.COUNTS.RESETS.width) :=
  (State.rd_raise _ _ _ rfl).trans (State.rd_bump_self _ (f := Reg.SLICE.COUNTS.RESETS.inBank i) 1 rfl)

/-- Settles O34: both beginnings put the Slice in reset and clear its banks, and the end counts it and completes the SLICE_RESET. -/
theorem sliceResets : Obligations.SliceResets := by
  refine ⟨fun q s c hw hwf hi => ⟨fun h => ⟨_, finishes_of hw (by decide) rfl (if_pos (bne_iff_ne.mpr h)) hw.1⟩, fun h => ?_⟩,
    fun i s hk hwf hi => ⟨fun h => ?_, fun h => ⟨_, moves_done ?_⟩, fun h hb => ?_, fun hb => ?_⟩⟩
  · have hexec : exec (.sliceReset q) s = .next
        ((s.setCmd q (fun c => { c with phase := .waiting })).beginReset (c.field 0 8) (some q) (s.earlier q)).settle := by
      rw [exec_onCmd hw rfl]
      refine congrArg State.done (if_neg ?_)
      rw [h]
      decide
    have hslices := State.beginReset_slices (s.setCmd q (fun c => { c with phase := .waiting })) (c.field 0 8) (some q) (s.earlier q)
    refine ⟨_, hexec, ?_, fun j hj => ?_, fun f hf hend => State.beginReset_rd _ _ _ _ hf hend⟩
    · exact (State.slice_of_slices hslices _).trans (State.slice_setSlice_self _ _ (by rw [State.setCmd_slices, length_slices hwf]; exact hi))
    · exact (State.slice_of_slices hslices j).trans (State.slice_setSlice_ne _ _ hj)
  · have hexec : exec (.sliceSoftReset i) s = .next (s.beginReset i none s.cmds).settle := by
      change execSliceSoftReset i s = _
      rw [execSliceSoftReset, if_pos hk, State.sliceSoftReset, h]
      rfl
    have hslices := s.beginReset_slices i none s.cmds
    refine ⟨_, hexec, ?_, fun j hj => ?_, fun f hf hend => State.beginReset_rd _ _ _ _ hf hend⟩
    · exact (State.slice_of_slices hslices _).trans (State.slice_setSlice_of_wf hwf hi _)
    · exact (State.slice_of_slices hslices j).trans (s.slice_setSlice_ne _ hj)
  · change execSliceSoftReset i s = _
    rw [execSliceSoftReset, if_pos hk, State.sliceSoftReset, if_neg (by rwa [beq_iff_eq])]
  · have hexec := execSliceResetEnd_of_quiet hk h hb
    have hslice := s.resetEnded_slice (by rw [length_slices hwf]; exact hi)
    have hresets := s.resetEnded_resets i
    cases hm : (s.slice i).mover with
    | none =>
      rw [hm] at hexec
      have hends := (s.resetEnded i).settle_ends_self
      exact ⟨_, hexec, (slice_of_ends hends i).trans hslice, (rd_over_ends hends rfl).trans hresets, fun q c hq => by cases hq⟩
    | some q =>
      rw [hm] at hexec
      have hends := (s.resetEnded i).complete_ends q stOk 0 0 0
      refine ⟨_, hexec, (slice_of_ends hends i).trans hslice, (rd_over_ends hends rfl).trans hresets, fun q' c hq hc hd => ?_⟩
      cases hq
      exact State.complete_fixed (data := 0) ((State.raise_cmd? _ _ _ _).trans hc) hd
  · change execSliceResetEnd i s = _
    rw [execSliceResetEnd, if_neg (by simp [hb])]

end Sys2Proof.Machine
end

section
/-!
Slices: creation, destruction and the writes of the configuration (R166–R175, R185–R188, R220).
-/
namespace Sys2Proof.Machine
open Sys2Proof.Safety

/-! Creation. -/

/-- The Slice that SLICE_CREATE makes. -/
def Slice.made (cfg : SliceCfg) : Slice := { Slice.free with st := .active, cfg := cfg }

/-- The card with the Slice created, its counters at 0 and the settings stored (R170, R403). -/
def State.created (s : State) (i : Nat) (cfg : SliceCfg) : State :=
  let s := if cfg.enc then { s with keys := s.keys + 1 } else s
  let s := s.setSlice i (fun _ => Slice.made cfg)
  let s : State := (sliceCounters i).foldl (fun (s : State) f => s.wr f 0) s
  let s := if cfg.enc then s.persist.persist else s.persist
  s.raise Evt.SLICETAB.SLICE_CREATED

/-- The card with the Slice in its table and its counters at 0. -/
def State.tabled (s : State) (i : Nat) (cfg : SliceCfg) : State :=
  (sliceCounters i).foldl (fun (s : State) f => s.wr f 0)
    ((if cfg.enc then { s with keys := s.keys + 1 } else s).setSlice i (fun _ => Slice.made cfg))

theorem State.created_moved_tabled (s : State) (i : Nat) (cfg : SliceCfg) : Moved 180418 (s.tabled i cfg) (s.created i cfg) := by
  unfold State.created
  have hpersist : Moved 180418 (s.tabled i cfg) (s.tabled i cfg).persist := State.persist_moved (by exact rfl) (Moved.refl _ _)
  exact State.raise_moved (by exact rfl) (Moved.ite (State.persist_moved (by exact rfl) hpersist) hpersist)

theorem State.tabled_eq (s : State) (i : Nat) (cfg : SliceCfg) :
    (s.tabled i cfg).cmds = s.cmds ∧ (s.tabled i cfg).slices = (s.setSlice i (fun _ => Slice.made cfg)).slices ∧
      (s.tabled i cfg).keys = if cfg.enc then s.keys + 1 else s.keys := by
  unfold State.tabled
  split <;> exact ⟨rfl, rfl, rfl⟩

theorem State.tabled_resets (s : State) (i : Nat) (cfg : SliceCfg) : (s.tabled i cfg).rd (Reg.SLICE.COUNTS.RESETS.inBank i) = 0 := by
  unfold State.tabled sliceCounters
  simp only [List.foldl_cons, List.foldl_nil]
  rw [State.rd_wr_other _ _ rfl, State.rd_wr_other _ _ rfl, State.rd_wr_other _ _ rfl, State.rd_wr_other _ _ rfl]
  exact State.rd_wr_of_lt _ (f := Reg.SLICE.COUNTS.RESETS.inBank i) (w := 16) (v := 0) rfl (by decide)

/-- The registers over the store of the settings and the event. -/
theorem State.created_rd (s : State) (i : Nat) (cfg : SliceCfg) {f : Field} (hf : f.offEnd = true) :
    (s.created i cfg).rd f = (s.tabled i cfg).rd f := by
  refine (State.rd_raise (if cfg.enc then (s.tabled i cfg).persist.persist else (s.tabled i cfg).persist) _ _ hf).trans ?_
  have hpersist : ∀ x : State, x.persist.regs = x.regs := fun x => (State.persist_moved (Within.refl 180224) (Moved.refl _ x)).same .regs rfl
  unfold State.rd
  split
  · rw [hpersist, hpersist]
  · rw [hpersist]

theorem sliceCreate_finishes {q : Nat} {s : State} {c : Cmd} (hw : AtWork s q c opCreate .decoded) (hp : s.probation = false)
    (hst : (s.slice (c.field 0 8)).st = .free) (hcap : c.field 8 40 ≤ s.flash.usable - s.allocated) (hv : s.power.vholdOk = true) :
    Finishes (.sliceCreate q) s (s.created (c.field 0 8) (c.newCfg (s.keys + 1))) c stOk 0
      ((s.created (c.field 0 8) (c.newCfg (s.keys + 1))).complete q stOk).settle := by
  refine finishes_of hw (by decide) rfl ?_ ?_
  · dsimp only
    have hroom : ¬ s.unallocated < (c.newCfg (s.keys + 1)).cap := Nat.not_lt.mpr hcap
    rw [if_neg (by simp [hp, hst]), if_neg hroom, if_neg (by simp [hv])]
    rfl
  · have hmoved := s.created_moved_tabled (c.field 0 8) (c.newCfg (s.keys + 1))
    exact (State.cmd?_of_cmds ((hmoved.same .cmds rfl).trans (s.tabled_eq _ _).1) q).trans hw.1

/-! Destruction. -/

/-- Do two states agree on what the map holds? -/
def MapKept (b t : State) : Prop :=
  t.flash.map.entries = b.flash.map.entries ∧ t.flash.map.onFlash = b.flash.map.onFlash ∧ t.flash.map.ghosts = b.flash.map.ghosts

theorem MapKept.refl (s : State) : MapKept s s := ⟨rfl, rfl, rfl⟩

theorem MapKept.trans {a b t : State} (h : MapKept a b) (k : MapKept b t) : MapKept a t :=
  ⟨k.1.trans h.1, k.2.1.trans h.2.1, k.2.2.trans h.2.2⟩

theorem MapKept.of_flash {b t : State} (h : t.flash = b.flash) : MapKept b t := by
  unfold MapKept
  rw [h]
  exact ⟨rfl, rfl, rfl⟩

theorem MapKept.ite {b s t : State} {p : Prop} [Decidable p] (h : MapKept b s) (k : MapKept b t) : MapKept b (if p then s else t) := by
  split
  · exact h
  · exact k

theorem State.complete_flash (s : State) (q status result data dataLen : Nat) :
    (s.complete q status result data dataLen).flash = s.flash :=
  flash_of_ends (ends_of (State.complete_tail (Tail.refl s)) (State.complete_moved (T := endParts) (by unfold Within; decide) (Moved.refl _ s)).agree)

theorem State.raise_mapKept {b s : State} (h : MapKept b s) (ev : Nat × Nat) (bank : Nat) : MapKept b (s.raise ev bank) :=
  h.trans (MapKept.of_flash (State.raise_flash _ _ _))

theorem State.endCmd_mapKept {b s : State} (h : MapKept b s) (q status result : Nat) : MapKept b (s.endCmd q status result) := by
  have hw : MapKept b (s.withdraw q) := h
  have hc := hw.trans (MapKept.of_flash ((s.withdraw q).complete_flash q status result 0 0))
  unfold State.endCmd State.sweepEngines
  split
  · exact hc
  · exact hc

theorem State.endTrim_mapKept {b s : State} (h : MapKept b s) (q status : Nat) : MapKept b (s.endTrim q status) := by
  unfold State.endTrim
  split
  · refine MapKept.ite (MapKept.ite h ?_) (State.endCmd_mapKept h _ _ _)
    unfold State.addJob
    exact MapKept.ite h h
  · exact h

theorem foldl_mapKept {α : Type} {f : State → α → State} (hf : ∀ b s a, MapKept b s → MapKept b (f s a)) {b s : State} (l : List α)
    (h : MapKept b s) : MapKept b (l.foldl f s) := by
  induction l generalizing s with
  | nil => exact h
  | cons a l ih => exact ih (hf _ _ _ h)

section
variable {b s : State} (h : MapKept b s)
include h

theorem MapKept.lifeSettle : MapKept b s.lifeSettle := by
  unfold State.lifeSettle
  extract_lets v0 v1 v2
  have hv2 : MapKept b v2 := h
  exact MapKept.ite h (MapKept.ite (State.raise_mapKept hv2 _ _) hv2)

theorem MapKept.readOnlySettle : MapKept b s.readOnlySettle := by
  unfold State.readOnlySettle
  extract_lets v0 v1 v2 v3
  have hv2 : MapKept b v2 := h
  exact MapKept.ite (foldl_mapKept (fun _ _ _ h => State.endTrim_mapKept h _ _) _ (State.raise_mapKept hv2 _ _)) hv2

theorem MapKept.starveSettle : MapKept b s.starveSettle := by
  unfold State.starveSettle
  extract_lets v0 v1
  refine MapKept.ite (MapKept.ite h h) (MapKept.ite (MapKept.trans (State.raise_mapKept ?_ _ _) ⟨rfl, rfl, rfl⟩) h)
  exact h

theorem MapKept.patrolSettle : MapKept b s.patrolSettle := by
  unfold State.patrolSettle
  refine MapKept.ite (State.raise_mapKept ?_ _ _) h
  exact h

theorem MapKept.debtSettle : MapKept b s.debtSettle := by
  unfold State.debtSettle
  extract_lets v0 v1 v2 v3
  have hv2 : MapKept b v2 := h
  have hv3 : MapKept b v3 := MapKept.ite (State.raise_mapKept hv2 _ _) hv2
  exact MapKept.ite (State.raise_mapKept hv3 _ _) hv3

end

/-- What every change of the flash side brings about changes no mapping. -/
theorem State.flashSettle_mapKept (s : State) : MapKept s s.flashSettle :=
  (MapKept.refl s).lifeSettle.readOnlySettle.starveSettle.patrolSettle.debtSettle

/-- The card with the Slice destroyed: its ring discarded, its map released, its entry FREE, the settings stored (R174). -/
def State.destroyed (s : State) (i : Nat) : State :=
  let s : State := { s with attn := s.attn.filter (fun e => e.ring != i) }
  ((s.releaseMap i).setSlice i (fun _ => Slice.free)).persist.persist.raise Evt.SLICETAB.SLICE_DESTROYED

theorem State.destroyed_moved (s : State) (i : Nat) : Moved 180418
    (({ s with attn := s.attn.filter (fun e => e.ring != i) } : State).releaseMap i |>.setSlice i (fun _ => Slice.free)) (s.destroyed i) :=
  State.raise_moved (by exact rfl) (State.persist_moved (by exact rfl) (State.persist_moved (by exact rfl) (Moved.refl _ _)))

theorem State.destroyed_slices (s : State) (i : Nat) : (s.destroyed i).slices = (s.setSlice i (fun _ => Slice.free)).slices :=
  (s.destroyed_moved i).same .slices rfl

theorem State.destroyed_cmds (s : State) (i : Nat) : (s.destroyed i).cmds = s.cmds := (s.destroyed_moved i).same .cmds rfl

theorem State.destroyed_map (s : State) (i : Nat) :
    (∀ e ∈ (s.destroyed i).flash.map.entries, e.slice ≠ i) ∧ (∀ p ∈ (s.destroyed i).flash.map.onFlash, p.slice ≠ i) ∧
      (∀ e ∈ (s.destroyed i).flash.map.ghosts, e.slice ≠ i) := by
  rw [(s.destroyed_moved i).same .flash rfl]
  refine ⟨fun e he => ?_, fun p hp => ?_, fun e he => ?_⟩
  · exact bne_iff_ne.mp (List.mem_filter.mp he).2
  · exact bne_iff_ne.mp (List.mem_filter.mp hp).2
  · exact bne_iff_ne.mp (List.mem_filter.mp he).2

/-- The card as a Slice's destruction begins. -/
def State.destroying (s : State) (q : Nat) (c : Cmd) : State :=
  let i := c.field 0 8
  let s := s.setCmd q (fun c => { c with phase := .waiting })
  (((s.setSlice i (fun sl => { sl with st := .destroying, mover := some q })).endSlice i (s.earlier q)).unbind i
    c.orig).snapSweep.flashSettle

theorem State.destroying_slices (s : State) (q : Nat) (c : Cmd) : (s.destroying q c).slices =
    ((s.setSlice (c.field 0 8) (fun sl => { sl with st := .destroying, mover := some q })).setSlice (c.field 0 8) Slice.disowned).slices := by
  refine (State.flashSettle_slices _).trans ((State.unbind_slices _ _ _).trans ?_)
  exact congrArg (fun l : List Slice => l.modify (c.field 0 8) Slice.disowned) (State.endSlice_slices _ _ _)

/-- Settles O30: creation and destruction by their checks, and what each leaves of the table and of the map. -/
theorem slicesComeAndGo : Obligations.SlicesComeAndGo := by
  refine ⟨fun q s c hw hwf hi => ⟨fun h => ⟨_, finishes_of hw (by decide) rfl (if_pos ?_) hw.1⟩, fun hp hst hcap => ?_, fun hp hst hcap hv => ?_,
    fun hp hst hcap hv => ?_⟩, fun q s c hw hwf hi => ⟨fun h => ⟨_, finishes_of hw (by decide) rfl (if_pos ?_) hw.1⟩, fun hp hst hlock => ?_⟩,
    fun q s c hw hid hwf hi => ⟨fun h => ⟨_, moves_of hw rfl (if_pos ?_)⟩, fun hst hb hv => ?_⟩⟩
  · rcases h with h | h <;> simp [h]
  · refine ⟨_, finishes_of hw (by decide) rfl ?_ hw.1⟩
    exact (if_neg (by simp [hp, hst])).trans (if_pos hcap)
  · refine ⟨_, moves_of hw rfl ?_⟩
    exact (if_neg (by simp [hp, hst])).trans ((if_neg (Nat.not_lt.mpr hcap)).trans (if_pos (by simp [hv])))
  · obtain ⟨hexec, -, hends, hfixed⟩ := sliceCreate_finishes hw hp hst hcap hv
    have hmoved := s.created_moved_tabled (c.field 0 8) (c.newCfg (s.keys + 1))
    obtain ⟨-, hslices, hkeys⟩ := s.tabled_eq (c.field 0 8) (c.newCfg (s.keys + 1))
    have hall := (slices_of_ends hends).trans ((hmoved.same .slices rfl).trans hslices)
    have hself := (State.slice_of_slices hall (c.field 0 8)).trans (State.slice_setSlice_of_wf hwf hi _)
    refine ⟨_, hexec, hfixed, ?_, ?_, ?_, ?_, ?_, ?_, ?_, ?_, fun j hj => ?_⟩
    · exact congrArg Slice.st hself
    · exact congrArg Slice.owner hself
    · exact congrArg Slice.lock hself
    · exact congrArg (fun x => x.cfg.cap) hself
    · exact congrArg (fun x => x.cfg.cls) hself
    · exact congrArg (fun x => x.cfg.xtsKey) hself
    · refine (keys_of_ends hends).trans ((hmoved.same .keys rfl).trans (hkeys.trans ?_))
      simp [Cmd.newCfg]
    · exact (rd_over_ends hends rfl).trans ((s.created_rd _ _ rfl).trans (s.tabled_resets _ _))
    · exact (State.slice_of_slices hall j).trans (s.slice_setSlice_ne _ hj)
  · rcases h with h | h | h <;> simp [State.lockedTo, h]
  · have hexec : exec (.sliceDestroy q) s = .next (s.destroying q c).settle := by
      rw [exec_onCmd hw rfl]
      dsimp only
      rw [if_neg (by simp [State.lockedTo, hp, hst, hlock])]
      rfl
    have hall := (State.settle_slices _).trans (s.destroying_slices q c)
    have hself := (State.slice_of_slices hall (c.field 0 8)).trans (State.slice_setSlice_self _ _ (by
      simpa [State.setSlice, length_slices hwf] using hi))
    refine ⟨_, hexec, ?_, congrArg Slice.owner hself, fun j hj => ?_⟩
    · exact (congrArg Slice.st hself).trans (congrArg Slice.st (State.slice_setSlice_of_wf hwf hi _))
    · exact (State.slice_of_slices hall j).trans ((State.slice_setSlice_ne _ _ hj).trans (s.slice_setSlice_ne _ hj))
  · rcases h with h | h | h <;> simp [h]
  · have hexec : exec (.sliceDestroyComplete q) s = .next ((s.destroyed (c.field 0 8)).complete q stOk).flashSettle.settle := by
      rw [exec_onCmd hw rfl]
      dsimp only
      rw [if_neg (by simp [hst, hb, hv])]
      rfl
    have hcmd : (s.destroyed (c.field 0 8)).cmd? q = some c := (State.cmd?_of_cmds (s.destroyed_cmds _) q).trans hw.1
    have hends := (s.destroyed (c.field 0 8)).complete_ends q stOk 0 0 0
    have hcomplete : ((s.destroyed (c.field 0 8)).complete q stOk).slices = (s.destroyed (c.field 0 8)).slices :=
      (State.settle_slices _).symm.trans (slices_of_ends hends)
    have hall := (State.settle_slices _).trans ((State.flashSettle_slices _).trans (hcomplete.trans (s.destroyed_slices _)))
    have hmap : MapKept (s.destroyed (c.field 0 8)) ((s.destroyed (c.field 0 8)).complete q stOk).flashSettle.settle :=
      (MapKept.of_flash (State.complete_flash _ _ _ _ _ _)).trans ((State.flashSettle_mapKept _).trans
        (MapKept.of_flash (flash_of_ends (State.settle_ends_self _))))
    obtain ⟨hentries, honFlash, hghosts⟩ := s.destroyed_map (c.field 0 8)
    obtain ⟨mentries, monFlash, mghosts⟩ := hmap
    refine ⟨_, hexec, ?_, by rwa [mentries], by rwa [monFlash], by rwa [mghosts], fun j hj => ?_, ?_⟩
    · exact (State.slice_of_slices hall _).trans (State.slice_setSlice_of_wf hwf hi _)
    · exact (State.slice_of_slices hall j).trans (s.slice_setSlice_ne _ hj)
    · exact (State.settle_held (State.flashSettle_held hid (State.complete_fixes (data := 0) hcmd (isOpen_of_atWork hw (by decide))))).fixed

end Sys2Proof.Machine
end

section
/-!
Slices: the writes of the configuration (R166, R167, R171, R185–R188, R220).
-/
namespace Sys2Proof.Machine
open Sys2Proof.Safety

theorem State.cfgMay_of_free {s : State} {i : Nat} (h : (s.slice i).st = .free) : s.cfgMay i = false := by
  simp [State.cfgMay, h]

theorem State.cfgMay_of {s : State} {i : Nat} (hk : s.clocked = true) (h : (s.slice i).st ≠ .free) (hv : s.power.vholdOk = true) :
    s.cfgMay i = true := by
  simp [State.cfgMay, hk, h, hv]

theorem State.persist_slices (s : State) : s.persist.slices = s.slices :=
  (State.persist_moved (Within.refl 180224) (Moved.refl _ s)).same .slices rfl

/-- A change of a Slice's stored configuration on the table of Slices. -/
theorem State.setCfg_slices (s : State) (i : Nat) (f : SliceCfg → SliceCfg) :
    (s.setCfg i f).slices = (s.setSlice i (fun sl => { sl with cfg := f sl.cfg })).slices :=
  (State.raise_slices _ _ _).trans (State.persist_slices _)

section
variable {s : State} {i : Nat} (hwf : wf s) (hi : i < 64)
include hwf hi

theorem State.slice_setCfg_self (f : SliceCfg → SliceCfg) : (s.setCfg i f).slice i = { s.slice i with cfg := f (s.slice i).cfg } :=
  (State.slice_of_slices (s.setCfg_slices i f) i).trans (State.slice_setSlice_of_wf hwf hi _)

omit hwf hi in
theorem State.slice_setCfg_ne (f : SliceCfg → SliceCfg) {j : Nat} (h : j ≠ i) : (s.setCfg i f).slice j = s.slice j :=
  (State.slice_of_slices (s.setCfg_slices i f) j).trans (s.slice_setSlice_ne _ h)

omit hi in
theorem State.setCfg_length (f : SliceCfg → SliceCfg) : (s.setCfg i f).slices.length = 64 := by
  rw [s.setCfg_slices i f]
  exact (List.length_modify _ _ _).trans (length_slices hwf)

/-- A raised capacity lands. -/
theorem capacityWrite_raises {cap q : Nat} (hmay : s.cfgMay i = true)
    (hbad : s.capacityBad i cap (((s.cmd? q).map Cmd.orig).getD s.admin) = false) (hcap : (s.slice i).cfg.cap ≤ cap) :
    ∃ t, exec (.capacityWrite q i cap) s = .next t ∧ t.slice i = { s.slice i with cfg := { (s.slice i).cfg with cap := cap } } ∧
      ∀ j, j ≠ i → t.slice j = s.slice j := by
  have hexec : exec (.capacityWrite q i cap) s = .next (s.setCfg i (fun c => { c with cap := cap })).flashSettle.settle := by
    change execCapacityWrite q i cap s = _
    unfold execCapacityWrite
    dsimp only
    rw [if_pos (by simp [hmay, hbad]), State.writeCapacity, if_neg (Nat.not_lt.mpr hcap), State.landCapacity,
      if_neg (Nat.not_lt.mpr hcap)]
    rfl
  have hslices := (State.settle_slices _).trans (s.setCfg i (fun c => { c with cap := cap })).flashSettle_slices
  exact ⟨_, hexec, (State.slice_of_slices hslices i).trans (State.slice_setCfg_self hwf hi _),
    fun j hj => (State.slice_of_slices hslices j).trans (State.slice_setCfg_ne _ hj)⟩

/-- PIN on its Slice: the configuration takes it, a Slice that is not pinned has no pin state, other Slices stand. -/
theorem State.writePin_slice (on : Bool) :
    ((s.writePin i on).slice i).cfg = { (s.slice i).cfg with pin := on } ∧
      (on = false → ((s.writePin i on).slice i).pinState = .off) ∧ ∀ j, j ≠ i → (s.writePin i on).slice j = s.slice j := by
  have hlen := State.setCfg_length (i := i) hwf (fun c => { c with pin := on })
  have hself := State.slice_setCfg_self hwf hi (fun c => { c with pin := on })
  have hset : ∀ (p : PinState), (((s.setCfg i (fun c => { c with pin := on })).setSlice i (fun sl => { sl with pinState := p })).slice i) =
      { s.slice i with cfg := { (s.slice i).cfg with pin := on }, pinState := p } := by
    intro p
    rw [State.slice_setSlice_self _ _ (by rw [hlen]; exact hi), hself]
  have hother : ∀ (p : PinState) (j : Nat), j ≠ i →
      (((s.setCfg i (fun c => { c with pin := on })).setSlice i (fun sl => { sl with pinState := p })).slice j) = s.slice j :=
    fun p j hj => (State.slice_setSlice_ne _ _ hj).trans (State.slice_setCfg_ne _ hj)
  unfold State.writePin
  dsimp only
  split
  · rename_i hon
    have hont : on = true := by simp at hon; exact hon.1
    unfold State.pinSettle
    split
    · refine ⟨?_, fun h => by simp [hont] at h, fun j hj => ?_⟩
      · rw [State.slice_of_slices (State.raise_slices _ _ _), State.slice_setSlice_self _ _ (by
          rw [State.setSlice, List.length_modify, hlen]; exact hi), hset]
      · rw [State.slice_of_slices (State.raise_slices _ _ _), State.slice_setSlice_ne _ _ hj, hother _ _ hj]
    · exact ⟨by rw [hset], fun h => by simp [hont] at h, fun j hj => hother _ _ hj⟩
  · split
    · rename_i hont
      exact ⟨by rw [hself], fun h => by simp [hont] at h, fun j hj => State.slice_setCfg_ne _ hj⟩
    · exact ⟨by rw [hset], fun _ => by rw [hset], fun j hj => hother _ _ hj⟩

/-- A row that ends in the change of a Slice's stored configuration. -/
theorem setCfg_done {r : Instr} {f : SliceCfg → SliceCfg} (h : exec r s = (s.setCfg i f).done) :
    ∃ t, exec r s = .next t ∧ t.slice i = { s.slice i with cfg := f (s.slice i).cfg } ∧ ∀ j, j ≠ i → t.slice j = s.slice j := by
  have hslices := (s.setCfg i f).settle_slices
  exact ⟨_, h, (State.slice_of_slices hslices i).trans (State.slice_setCfg_self hwf hi f),
    fun j hj => (State.slice_of_slices hslices j).trans (State.slice_setCfg_ne f hj)⟩

end

theorem qosBad_of_range {cls weight dieCap : Nat} (hc : cls < 3) (hd : dieCap ≤ 256) (hw : cls = 1 → weight ≠ 0) :
    qosBad cls weight dieCap = false := by
  simp [qosBad]
  omega

/-- Settles O35: every write of the configuration by its own condition. -/
theorem sliceConfiguration : Obligations.SliceConfiguration := by
  refine ⟨fun i s hfree => ?_, fun i s hk hwf hi hst hv => ?_⟩
  · have hmay := State.cfgMay_of_free hfree
    refine ⟨fun q cap => ?_, fun on => ?_, fun cls weight dieCap => ?_, fun key => ?_, ?_, ?_⟩
    · exact if_neg (by simp [hmay])
    · exact if_neg (by simp [hmay])
    · exact if_neg (by simp [hmay])
    · exact if_neg (by simp [hmay])
    · exact if_neg (by simp [hfree])
    · exact if_neg (by simp [hfree])
  · have hmay := State.cfgMay_of hk hst hv
    refine ⟨fun q cap hbad => ⟨fun hcap => ⟨_, moves_done ?_⟩, capacityWrite_raises hwf hi hmay hbad⟩, fun on hon => ?_,
      fun cls weight dieCap hc hwt hd hz => ?_, fun key hkey => ?_, ⟨_, moves_done ?_, ?_, ?_⟩, ⟨_, moves_done ?_, ?_, ?_⟩⟩
    · change execCapacityWrite q i cap s = _
      unfold execCapacityWrite
      dsimp only
      rw [if_pos (by simp [hmay, hbad]), State.writeCapacity, if_pos hcap]
    · have hexec : exec (.mapPin i on) s = (s.writePin i on).done := if_pos (by rcases hon with h | h <;> simp [hmay, h])
      obtain ⟨hcfg, hoff, hother⟩ := State.writePin_slice hwf hi on
      have hslices := (s.writePin i on).settle_slices
      refine ⟨_, hexec, ?_, fun h => ?_, fun j hj => (State.slice_of_slices hslices j).trans (hother j hj)⟩
      · rw [State.slice_of_slices hslices, hcfg]
      · rw [State.slice_of_slices hslices, hoff h]
    · have hexec : exec (.qosWrite i cls weight dieCap) s = (s.setCfg i (fun c =>
          { c with cls := cls, weight := if cls = 1 then weight else 0, dieCap := dieCap })).done :=
        if_pos (by simp [hmay, qosBad_of_range hc hd hz])
      exact setCfg_done hwf hi hexec
    · have hexec : exec (.bindKeyWrite i key) s = (s.setCfg i (fun c => { c with bindKey := key % 2 ^ 256 })).done := if_pos hmay
      rw [Nat.mod_eq_of_lt hkey] at hexec
      exact setCfg_done hwf hi hexec
    · exact if_pos (by simp [hk, hst])
    · refine (State.rd_settle _ rfl).trans ((State.rd_wr_other _ _ rfl).trans ?_)
      exact s.rd_wr_of_lt (f := Reg.SLICE.AUTH.FAILS.inBank i) (w := 8) (v := 0) rfl (by decide)
    · refine (State.rd_settle _ rfl).trans ?_
      exact State.rd_wr_of_lt _ (f := Reg.SLICE.AUTH.BLOCKED.inBank i) (w := 1) (v := 0) rfl (by decide)
    · exact if_pos (by simp [hk, hst])
    · exact (State.rd_wr_other _ _ rfl).trans (s.rd_wr_self _ _)
    · exact State.rd_wr_self _ _ _

end Sys2Proof.Machine
end

section
/-!
The voltage switch (Table 4-4) and the receiver of fast mode (R89, R104–R107).
-/
namespace Sys2Proof.Machine
open Sys2Proof.Safety

/-! The link over the end of a step and over a fault. -/

theorem State.report_tail {b s : State} {src : Nat × Nat} {bank : Nat} {force : Bool} (hs : Tail b s) :
    Tail b (s.report src bank force) := by
  unfold State.report
  extract_lets v0 v1 v2 v3 v4
  have hv3 : Tail b v3 := State.wr_tail (faultSticky_endKey _ _) hs
  have hv4 : Tail b v4 := by
    dsimp only [v4]
    split
    · split
      · exact State.post_tail hv3
      · exact hv3
    · exact hs
  split
  · exact State.enterSafe_tail hv4
  · exact hv4

theorem step_of_ends {b t : State} (h : Ends b t) : t.link.switchStep = b.link.switchStep := (congrArg Link.switchStep h.link :)

/-! The voltage switch. -/

/-- The card as it waits for regulation (Table 4-4). -/
def State.switching (s : State) (w : Nat) : State :=
  { s with link := { s.link with phase := .switching, switchStep := .regulate, switchHc := 0, wantW := w } }

theorem execSwitch_eq {q : Nat} {s : State} {c : Cmd} (hw : AtWork s q c opSwitch .decoded) :
    exec (.switch q) s = .next ((s.complete q stOk).switching (c.field 0 4)).settle := by
  rw [exec_onCmd hw rfl]
  rfl

theorem State.switching_held {c : Cmd} {st r : Nat} {s : State} (h : Held c st r s) (w : Nat) : Held c st r (s.switching w) :=
  h.upd rfl rfl (fun _ h => h) rfl rfl

theorem switch_fixes {q : Nat} {s : State} {c : Cmd} (hw : AtWork s q c opSwitch .decoded) :
    Fixed ((s.complete q stOk).switching (c.field 0 4)).settle c stOk (completionFields c stOk 0) :=
  (State.settle_held (State.switching_held (State.complete_fixes (data := 0) hw.1 (isOpen_of_atWork hw (by decide))) _)).fixed

theorem State.readyLevel_of_confirm {s : State} (h : s.link.switchStep = .confirm) : s.readyLevel = false := by
  simp [State.readyLevel, h]

/-- The 16th confirm edge on the link, on the widths and on the channels. -/
theorem State.enterFast_eq {s : State} (hp : s.link.phase = .switching) (hc : s.link.switchStep = .confirm) :
    s.enterFast.link = { Link.reset with phase := .fastWait, fast := true, wantW := s.link.wantW } ∧
      s.enterFast.rd Reg.LINK.STATE.DOWN_W = s.link.wantW % 4 ∧ s.enterFast.rd Reg.LINK.STATE.UP_W = s.link.wantW / 4 % 4 ∧
      ∀ ch ∈ s.enterFast.flash.chans, ch.reconf = true := by
  unfold State.enterFast
  rw [if_pos (by simp [hp, hc])]
  extract_lets w l0 s1 s2
  have hbump : ∀ f : Field, ((s2.bump Reg.LINK.LINKUPS.SWITCHES).changeDividers.newFrequency).rd f = (s2.bump Reg.LINK.LINKUPS.SWITCHES).rd f :=
    fun _ => rfl
  refine ⟨rfl, ?_, ?_, fun ch hch => ?_⟩
  · rw [hbump, State.rd_bump_other _ _ rfl, State.rd_wr_other _ _ rfl]
    exact s1.rd_wr_of_lt (f := Reg.LINK.STATE.DOWN_W) (w := 2) rfl (Nat.mod_lt _ (by decide))
  · rw [hbump, State.rd_bump_other _ _ rfl, State.rd_wr_self]
    exact Nat.and_two_pow_sub_one_eq_mod (w / 4) 2
  · obtain ⟨c, -, rfl⟩ := List.mem_map.mp hch
    rfl

/-- Settles O15: each row of the switch makes its step of Table 4-4 on the link, which the end of the step leaves. -/
theorem voltageSwitch : Obligations.VoltageSwitch := by
  refine fun q s c => ⟨fun hw => ?_, fun hk hp hs => ⟨⟨_, moves_done ?_, ?_⟩, ⟨_, moves_done ?_, ?_, ?_⟩⟩,
    fun hk hp => ⟨_, moves_done ?_, phase_of_ends (State.settle_ends_self _)⟩, fun hk hp hs => ⟨⟨_, moves_done (if_pos hk), ?_⟩,
    ⟨_, moves_done ?_, phase_of_ends (State.settle_ends_self _)⟩⟩⟩
  · have hends := ((s.complete q stOk).switching (c.field 0 4)).settle_ends_self
    exact ⟨_, execSwitch_eq hw, phase_of_ends hends, step_of_ends hends, (congrArg Link.switchHc hends.link :),
      (congrArg Link.wantW hends.link :), switch_fixes hw⟩
  · exact if_pos (by simp [hk, hp, hs])
  · exact State.readyLevel_of_confirm (step_of_ends (State.settle_ends_self _))
  · refine (if_pos (by simp [hk, hp, hs])).trans ?_
    rw [State.timeoutSwitch, State.cancelSwitch, if_pos (by simp [hp])]
    rfl
  · exact (phase_of_ends (State.settle_ends_self _)).trans (congrArg Link.phase (State.report_tail (Tail.refl _)).link :)
  · exact (step_of_ends (State.settle_ends_self _)).trans (congrArg Link.switchStep (State.report_tail (Tail.refl _)).link :)
  · refine (if_pos (by simp [hk, hp])).trans ?_
    rw [State.cancelSwitch, if_pos (by simp [hp])]
    rfl
  · obtain ⟨hlink, hdown, hup, hchans⟩ := State.enterFast_eq hp hs
    refine ⟨hlink, (State.rd_settle _ rfl).trans hdown, (State.rd_settle _ rfl).trans hup, fun ch hch => hchans ch ?_⟩
    rwa [flash_of_ends (State.settle_ends_self _)] at hch
  · refine (if_pos (by simp [hk, hp, hs])).trans ?_
    rw [State.cancelSwitch, if_pos (by simp [hp])]
    rfl

/-! The receiver's judgement. -/

theorem State.takeAck_of_none {s : State} {h : LinkHdr} (ha : h.ackv = false) : s.takeAck h = s := by
  unfold State.takeAck
  rw [ha]
  rfl

/-- A frame that the receiver accepts finds the link UP and owes an acknowledgement. -/
theorem State.receive_accepts {s : State} {h : LinkHdr} (hr : (s.receive h).2 = true) :
    (s.receive h).1.link.phase = .up ∧ (s.receive h).1.link.ackDue = true := by
  unfold State.receive at hr ⊢
  dsimp only at hr ⊢
  split at hr
  · cases hr
  · rename_i hup
    rw [if_neg hup]
    split at hr
    · rename_i hd
      rw [if_pos hd]
      exact ⟨of_not_not fun hn => hup (bne_iff_ne.mpr hn), rfl⟩
    · split at hr <;> cases hr

/-- Settles O40: by the distance from the expected LSEQ back to the frame's. -/
theorem receiverJudgement : Obligations.ReceiverJudgement := by
  intro s h hup hack hrx hl
  have hd : wrapSub s.link.rxExpected h.lseq 8 = (s.link.rxExpected + 256 - h.lseq) % 256 := by
    unfold wrapSub
    omega
  unfold State.receive
  dsimp only
  rw [State.takeAck_of_none hack, if_neg (by simp [hup]), hd]
  refine ⟨fun he => ?_, fun hne => ?_⟩
  · rw [if_pos (by omega)]
    exact ⟨rfl, rfl⟩
  · rw [if_neg (by omega)]
    refine ⟨?_, fun hnear => ?_, fun hfar => ?_⟩
    · split <;> rfl
    · rw [if_pos hnear]
      rfl
    · rw [if_neg (by omega)]

end Sys2Proof.Machine
end

section
/-!
Frames of fast mode: what the receiver takes, moves past or discards, and what is stamped (R104–R115, R130, R144).
-/
namespace Sys2Proof.Machine
open Sys2Proof.Safety

/-! The phase of the link and the LSEQ expected next, over operations that complete commands. -/

/-- The same phase and the same expected LSEQ. -/
def LinkAt (b t : State) : Prop := t.link.phase = b.link.phase ∧ t.link.rxExpected = b.link.rxExpected

theorem LinkAt.refl (s : State) : LinkAt s s := ⟨rfl, rfl⟩

theorem LinkAt.trans {a b t : State} (h : LinkAt a b) (k : LinkAt b t) : LinkAt a t := ⟨k.1.trans h.1, k.2.trans h.2⟩

theorem LinkAt.of_rest {b t : State} (h : linkRest t.link = linkRest b.link) : LinkAt b t :=
  ⟨(congrArg Link.phase h :), (congrArg Link.rxExpected h :)⟩

theorem LinkAt.of_link {b t : State} (h : t.link = b.link) : LinkAt b t := by
  unfold LinkAt
  rw [h]
  exact ⟨rfl, rfl⟩

theorem foldl_linkAt {α : Type} {f : State → α → State} (hf : ∀ s a, LinkAt s (f s a)) (s : State) (l : List α) :
    LinkAt s (l.foldl f s) := by
  induction l generalizing s with
  | nil => exact LinkAt.refl s
  | cons a l ih => exact (hf s a).trans (ih _)

theorem State.placeCompletion_linkAt (s : State) (c : Cmd) : LinkAt s (s.placeCompletion c) := by
  unfold State.placeCompletion
  extract_lets ring e
  split
  · exact LinkAt.refl s
  · have hlink : ((s.placeEntry e).tally Reg.LINKERR.DEFERRED.COUNT).link = s.link := (State.tally_link _ _ _).trans (s.placeEntry_link e)
    exact (LinkAt.of_link hlink).trans (LinkAt.of_rest (State.leave_tail (Tail.refl _)).link)

theorem State.complete_linkAt (s : State) (q status result data dataLen : Nat) :
    LinkAt s (s.complete q status result data dataLen) :=
  LinkAt.of_rest (State.complete_tail (Tail.refl s)).link

theorem State.postDeferred_linkAt (s : State) : LinkAt s s.postDeferred := by
  unfold State.postDeferred
  refine foldl_linkAt (fun s c => ?_) _ _
  split
  · exact s.placeCompletion_linkAt c
  · exact LinkAt.refl s

theorem State.fetchEnd_linkAt (s : State) (q : Nat) : LinkAt s (s.fetchEnd q) := by
  unfold State.fetchEnd
  split
  · split
    · extract_lets before s1 s2
      have h2 : LinkAt s s2 := LinkAt.trans (s1.complete_linkAt q stOk _ 0 0) (State.postDeferred_linkAt _)
      exact h2.trans (foldl_linkAt (fun s r => LinkAt.of_link (s.attnRose_link r _)) _ _)
    · exact LinkAt.refl s
  · exact LinkAt.refl s

/-! The loss of the link. -/

theorem State.endCmd_linkAt (s : State) (q status result : Nat) : LinkAt s (s.endCmd q status result) := by
  have hc : LinkAt s ((s.withdraw q).complete q status result) := (s.withdraw q).complete_linkAt q status result 0 0
  unfold State.endCmd State.sweepEngines
  split <;> exact hc

theorem State.endLink_linkAt (s : State) (q : Nat) : LinkAt s (s.endLink q) :=
  (s.endCmd_linkAt q _ _).trans (LinkAt.of_link (State.tally_link _ _ _))

theorem State.reopen_link (s : State) (f : UpFrame) : (s.reopen f).link = s.link := by
  unfold State.reopen
  extract_lets s1
  have h1 : s1.link = s.link := by
    dsimp only [s1]
    split
    · exact s.tally_link _ _
    · rfl
  split
  · exact h1
  · exact h1

/-- The link with its frames dropped (R130). -/
def Link.dropped (l : Link) : Link :=
  { l with unacked := [], txQueue := [], nakAt := none, nakSent := 0, nakDue := false, hunting := false, ackDue := false, idleHc := 0 }

/-- The COMPLETIONs that a link holds when it is lost: those unacknowledged, and those that wait to be sent. -/
def Link.completions (l : Link) : List UpFrame × List UpFrame :=
  (l.unacked.filter (fun f => f.ftype == .completion), l.txQueue.filter (fun f => f.ftype == .completion))

/-- The card at a loss with the commands of those COMPLETIONs In flight again and no attention entry on its way. -/
def State.lossReopened (s : State) : State :=
  let x : State := (s.link.completions.1 ++ s.link.completions.2).foldl (fun (s : State) f => s.reopen f) (s.onLink Link.dropped)
  { x with attn := x.attn.map (fun (e : AttnEntry) => { e with sending := false }) }

/-- The frames that a loss queues: kept COMPLETIONs first, then those without an up data phase, then the waiting ones. -/
def Link.lossFrames (l : Link) : List UpFrame :=
  (l.completions.1.filter (fun f => !f.hadUp)).map (resettled true) ++ (l.completions.1.filter (fun f => f.hadUp)).map (resettled true) ++
    l.completions.2.map (resettled false)

/-- The card at a loss with those frames queued, but in RETURNING. -/
def State.lossQueued (s : State) : State :=
  if s.lossReopened.link.phase == .returning then s.lossReopened
  else s.lossReopened.onLink (fun l => { l with txQueue := s.link.lossFrames })

theorem State.linkLoss_eq (s : State) : s.linkLoss =
    (s.lossQueued.cmds.filter (fun c => c.downOpen || c.upOpen)).foldl (fun (s : State) c => s.endLink c.q) s.lossQueued := rfl

theorem State.lossReopened_link (s : State) : s.lossReopened.link = s.link.dropped := by
  have hreopen : ∀ (l : List UpFrame) (x : State), (l.foldl (fun (s : State) f => s.reopen f) x).link = x.link := by
    intro l
    induction l with
    | nil => exact fun _ => rfl
    | cons f l ih => exact fun x => (ih _).trans (x.reopen_link f)
  exact hreopen _ _

theorem State.lossReopened_linkAt (s : State) : LinkAt s s.lossReopened := by
  unfold LinkAt
  rw [s.lossReopened_link]
  exact ⟨rfl, rfl⟩

theorem State.lossQueued_linkAt (s : State) : LinkAt s s.lossQueued := by
  have hat := s.lossReopened_linkAt
  unfold State.lossQueued
  split
  · exact hat
  · exact ⟨hat.1, hat.2⟩

theorem State.linkLoss_linkAt (s : State) : LinkAt s s.linkLoss := by
  have hend : ∀ (s : State) (c : Cmd), LinkAt s (s.endLink c.q) := fun s c => s.endLink_linkAt c.q
  rw [s.linkLoss_eq]
  exact LinkAt.trans s.lossQueued_linkAt (foldl_linkAt hend s.lossQueued _)

theorem State.disarm_link (s : State) : s.disarm.link = s.link := by
  unfold State.disarm
  split <;> rfl

theorem State.loseLink_phase {s : State} (h : s.link.phase = .up) : s.loseLink.link.phase = .lost := by
  unfold State.loseLink
  rw [if_neg (by simp [h])]
  refine (State.linkLoss_linkAt _).1.trans ?_
  rw [State.disarm_link, State.raise_link, State.tally_link]
  rfl

/-! Replay and acknowledgement. -/

theorem State.transmit_linkAt (s : State) (f : UpFrame) : LinkAt s (s.transmit f) := LinkAt.refl s

/-- A replay keeps what the receiver expects, or ends with the link lost. -/
theorem State.replay_linkAt (s : State) : LinkAt s s.replay ∨ s.replay.link.phase = .lost := by
  unfold State.replay
  split
  · exact .inl (LinkAt.refl s)
  · rename_i hup
    split
    · refine .inr (State.loseLink_phase ?_)
      simp at hup
      exact hup.1
    · extract_lets s1
      exact .inl (LinkAt.trans (b := s1) (LinkAt.refl s) ((foldl_linkAt State.transmit_linkAt _ _).trans
        (LinkAt.of_link (State.tally_link _ _ _))))

theorem State.takeAck_linkAt (s : State) (h : LinkHdr) : LinkAt s (s.takeAck h) ∨ (s.takeAck h).link.phase = .lost := by
  unfold State.takeAck
  split
  · exact .inl (LinkAt.refl s)
  · extract_lets a s1 s2
    have h2 : LinkAt s s2 := LinkAt.trans (b := s1) (LinkAt.refl s) (foldl_linkAt (fun s f => by
      split
      · exact s.fetchEnd_linkAt f.q
      · exact LinkAt.refl s) _ _)
    split
    · exact s2.replay_linkAt.imp_left h2.trans
    · exact .inl h2

/-- A frame whose LSEQ is not the expected one is not accepted. -/
theorem State.receive_of_ne {s : State} {h : LinkHdr} (hne : h.lseq ≠ s.link.rxExpected) (hrx : s.link.rxExpected < 256)
    (hl : h.lseq < 256) : (s.receive h).2 = false := by
  unfold State.receive
  dsimp only
  split
  · rfl
  · rename_i hup
    rcases s.takeAck_linkAt h with hat | hlost
    · have hd : wrapSub (s.takeAck h).link.rxExpected h.lseq 8 ≠ 0 := by
        rw [hat.2, wrapSub]
        omega
      rw [if_neg hd]
      split <;> rfl
    · exact absurd (by simp [hlost]) hup

/-! The rows of frames. -/

section
variable {s : State} {idle : Bool} (b : List Nat)

theorem State.hears_up (h : s.hears idle = true) : s.link.phase = .up := by
  simp [State.hears] at h
  exact h.1.2

theorem State.dropsFrame_of_hears (h : s.hears idle = true) : s.dropsFrame = false := by
  simp [State.dropsFrame, State.hears_up h]

theorem execCmdFrame_of_hears (h : s.hears idle = true) (hb : goodFrame b = some .cmd) : exec (.cmdFrame idle b) s =
    (if (s.inStep.receive (linkHdr b)).2 then (s.inStep.receive (linkHdr b)).1.acceptCommand (cmdOf b)
      else (s.inStep.receive (linkHdr b)).1).admitHeld.done := by
  change execCmdFrame idle b s = _
  unfold execCmdFrame
  rw [hb, State.dropsFrame_of_hears h, h]
  rfl

theorem execDataDn_of_hears (h : s.hears idle = true) (hb : goodFrame b = some .dataDn) : exec (.dataDn idle b) s =
    (if (s.inStep.receive (linkHdr b)).2 then (s.inStep.receive (linkHdr b)).1.takeData (cmdOf b).addr (cmdOf b).orig (cmdOf b).tag
        (fieldAt b 12 2) (fieldAt b 16 (64 * fieldAt b 7 1))
      else (s.inStep.receive (linkHdr b)).1).admitHeld.done := by
  change execDataDn idle b s = _
  unfold execDataDn
  rw [hb, State.dropsFrame_of_hears h, h]
  rfl

theorem execLinkctl_of_hears (h : s.hears idle = true) (hb : goodFrame b = some .linkctl) : exec (.linkctl idle b) s =
    (s.inStep.takeLinkctl (linkHdr b) (bitAt (fieldAt b 12 4) 0)).admitHeld.done := by
  change execLinkctl idle b s = _
  unfold execLinkctl
  rw [hb, State.dropsFrame_of_hears h, h]
  rfl

/-- A good frame that arrives in RETURNING is counted alone. -/
theorem exec_returning (hk : s.clocked = true) (hp : s.link.phase = .returning) :
    (goodFrame b = some .cmd → exec (.cmdFrame idle b) s = (s.bump Reg.LINK.ID_ERRORS.DROPPED).done) ∧
    (goodFrame b = some .dataDn → exec (.dataDn idle b) s = (s.bump Reg.LINK.ID_ERRORS.DROPPED).done) ∧
    (goodFrame b = some .linkctl → exec (.linkctl idle b) s = (s.bump Reg.LINK.ID_ERRORS.DROPPED).done) := by
  have hdrops : s.dropsFrame = true := by simp [State.dropsFrame, hk, hp]
  refine ⟨fun hb => ?_, fun hb => ?_, fun hb => ?_⟩
  · exact (if_neg (by simp [hb])).trans (if_pos hdrops)
  · exact (if_neg (by simp [hb])).trans (if_pos hdrops)
  · exact (if_neg (by simp [hb])).trans (if_pos hdrops)

/-- A frame that the receiver does not hear changes nothing. -/
theorem exec_unheard (h : s.hears idle = false) (hp : s.link.phase ≠ .returning) :
    exec (.cmdFrame idle b) s = .next s ∧ exec (.dataDn idle b) s = .next s ∧ exec (.linkctl idle b) s = .next s ∧
      exec (.frameDiscard idle b) s = .next s := by
  have hdrops : ¬ s.dropsFrame = true := by simp [State.dropsFrame, hp]
  have hnot : ¬ s.hears idle = true := by simp [h]
  refine ⟨?_, ?_, ?_, if_neg hnot⟩
  · change execCmdFrame idle b s = _
    rw [execCmdFrame, if_neg hdrops, if_neg hnot, ite_self]
  · change execDataDn idle b s = _
    rw [execDataDn, if_neg hdrops, if_neg hnot, ite_self]
  · change execLinkctl idle b s = _
    rw [execLinkctl, if_neg hdrops, if_neg hnot, ite_self]

end

/-- An accepted command frame behind which no COMPLETION is owed is stamped at once. -/
theorem State.acceptCommand_admits {x : State} (hp : x.link.phase = .up) (ho : x.link.owed = []) (hh : x.link.held = []) (f : CmdIn) :
    (x.acceptCommand f).admitHeld = x.takeCommand f := by
  have hlink : ({ (x.acceptCommand f).link with held := [] } : Link) = x.link := by
    rw [← hh]
    rfl
  have hback : ((x.acceptCommand f).onLink fun l => { l with held := [] }) = x := congrArg (fun l => ({ x with link := l } : State)) hlink
  unfold State.admitHeld
  rw [if_pos (by simp [State.acceptCommand, State.onLink, ho, hp]), hback]
  have hheld : (x.acceptCommand f).link.held = [f] := by simp [State.acceptCommand, State.onLink, hh]
  rw [hheld]
  rfl

/-- Behind COMPLETIONs owed it waits. -/
theorem State.acceptCommand_waits {x : State} (ho : x.link.owed ≠ []) (f : CmdIn) :
    (x.acceptCommand f).admitHeld = x.acceptCommand f := by
  unfold State.admitHeld
  rw [if_neg (by simp [State.acceptCommand, State.onLink, ho])]

/-- Settles O39: each row by what the frame is and by the receiver's judgement. -/
theorem framesInFastMode : Obligations.FramesInFastMode := by
  refine ⟨fun s idle b hh => ?_, fun x f hp => ⟨fun ho hheld => x.acceptCommand_admits hp ho hheld f, fun ho => x.acceptCommand_waits ho f⟩,
    fun s idle b hk hp => ?_, fun s idle b hh hp => exec_unheard b hh hp⟩
  · intro r
    refine ⟨fun hb => ⟨fun hr => ⟨_, moves_done ?_⟩, fun hr => ⟨_, moves_done ?_⟩⟩,
      fun hb => ⟨fun hr => ⟨_, moves_done ?_⟩, fun hr => ⟨_, moves_done ?_⟩⟩, fun hb => ⟨_, moves_done ?_⟩,
      fun y hb hy hne => ⟨fun hrx hl => State.receive_of_ne hne hrx hl, ⟨_, moves_done ?_⟩⟩⟩
    · rw [execCmdFrame_of_hears b hh hb, if_pos hr]
    · rw [execCmdFrame_of_hears b hh hb, if_neg (by rw [hr]; decide)]
    · rw [execDataDn_of_hears b hh hb, if_pos hr]
    · rw [execDataDn_of_hears b hh hb, if_neg (by rw [hr]; decide)]
    · change execFrameDiscard idle b s = _
      rw [execFrameDiscard, if_pos hh, hb]
    · change execFrameDiscard idle b s = _
      rw [execFrameDiscard, if_pos hh, hb]
      exact if_neg (by simp [hy, hne])
  · obtain ⟨hcmd, hdata, hctl⟩ := exec_returning (idle := idle) b hk hp
    exact ⟨fun hb => ⟨_, moves_done (hcmd hb)⟩, fun hb => ⟨_, moves_done (hdata hb)⟩, fun hb => ⟨_, moves_done (hctl hb)⟩⟩

end Sys2Proof.Machine
end

section
/-!
Acceptance: the reserved Originator, and the stamp (R74, R112–R115, R144).
-/
namespace Sys2Proof.Machine
open Sys2Proof.Safety

/-- A frame accepted in fast mode has been counted against the credit. -/
def State.counted (s : State) : State := s.onLink (fun l => { l with cmdCount := (l.cmdCount + 1) % 65536 })

/-! The reserved Originator. -/

/-- A frame of the reserved Originator on a card that does not send 0x4A is stray, whichever check of acceptance is the first to find
it; one that arrives after a SLEEP_COMMIT latches the wake besides. -/
theorem State.takeCommand_of_reserved {s : State} {f : CmdIn} (ho : f.orig = 0xFF) (hr : s.ready = true) :
    s.takeCommand f = if s.counted.sleepBound then s.counted.stray.refuseForSleep else s.counted.stray := by
  have hready : ¬ (!s.counted.ready) = true := by
    have : s.counted.ready = s.ready := rfl
    simp [this, hr]
  change (if s.counted.sleepBound then s.counted.stray.refuseForSleep
    else if !s.counted.ready then _ else if !f.bcast && !s.counted.mine f then s.counted.stray
    else if _ then s.counted.stray else if f.orig = 0xFF then s.counted.stray else _) = _
  by_cases hb : s.counted.sleepBound = true
  · rw [if_pos hb, if_pos hb]
  · rw [if_neg hb, if_neg hb, if_neg hready, if_pos ho, ite_self, ite_self]

/-- A stray frame on the commands, the counts and the credit. -/
theorem State.stray_eq (s : State) : s.counted.stray.cmds = s.cmds ∧
    s.counted.stray.rd Reg.LINK.ORDER_SEQ.LAST = s.rd Reg.LINK.ORDER_SEQ.LAST ∧
    s.counted.stray.rd Reg.LINKERR.STRAY.COUNT = satAdd (s.rd Reg.LINKERR.STRAY.COUNT) 1 (ones Reg.LINKERR.STRAY.COUNT.width) ∧
    s.counted.stray.link.cmdLimit = (s.link.cmdLimit + 1) % 65536 ∧ s.counted.stray.link.ackDue = s.link.ackDue := by
  have hlink : (s.counted.tally Reg.LINKERR.STRAY.COUNT).link = s.counted.link := State.tally_link _ _ _
  have htally : ∀ f : Field, f.offEnd = true →
      (s.counted.tally Reg.LINKERR.STRAY.COUNT).rd f = (s.counted.bump Reg.LINKERR.STRAY.COUNT).rd f := by
    intro f hf
    unfold State.tally
    dsimp only
    split
    · exact State.rd_raise _ _ _ hf
    · rfl
  refine ⟨?_, ?_, ?_, ?_, ?_⟩
  · exact (State.tally_moved (Within.refl 194) (Moved.refl _ s.counted)).same .cmds rfl
  · exact (htally _ rfl).trans (State.rd_bump_other _ _ rfl)
  · exact (htally _ rfl).trans (State.rd_bump_self _ 1 rfl)
  · exact (congrArg (fun l : Link => (l.cmdLimit + 1) % 65536) hlink).trans rfl
  · exact (congrArg Link.ackDue hlink).trans rfl

/-- The wake latch writes the Crust alone. -/
theorem State.refuseForSleep_same (s : State) {p : Part} (h : (8192).testBit (partBit p) = false) : p.Same s s.refuseForSleep :=
  (State.latchWake_moved (Within.refl 8192) (Moved.refl _ s)).same p h

theorem State.cancelSwitch_eq (s : State) : s.cancelSwitch.cmds = s.cmds ∧ s.cancelSwitch.regs = s.regs ∧ s.cancelSwitch.wire = s.wire ∧
    s.cancelSwitch.link.idResponse = s.link.idResponse := by
  unfold State.cancelSwitch
  split <;> exact ⟨rfl, rfl, rfl, rfl⟩

/-- In ID mode the handshake of a switch that is cancelled leaves the card as ready as it was. -/
theorem State.cancelSwitch_ready {s : State} (hf : s.link.fast = false) : s.cancelSwitch.ready = s.ready := by
  unfold State.cancelSwitch
  split
  · rename_i hp
    have hsw : s.link.phase = .switching := beq_iff_eq.mp hp
    unfold State.ready
    rw [hsw]
    change (_ && _ && _ && (s.link.fast && _ || _ || _)) = _
    rw [hf]
    rfl
  · rfl

/-- The card at the start bit of a frame of ID mode. -/
def State.idStart (s : State) : State := s.cancelSwitch.onLink (fun l => { l with idPartial := false })

/-- The card on which a frame of ID mode is judged: one that arrives after a SLEEP_COMMIT has latched the wake (R155). -/
def State.idJudged (s : State) : State := if s.idStart.sleepBound then s.idStart.refuseForSleep else s.idStart

theorem State.idJudged_eq (s : State) : s.idJudged.cmds = s.cmds ∧ s.idJudged.regs = s.regs ∧ s.idJudged.wire = s.wire ∧
    s.idJudged.link.idResponse = s.link.idResponse ∧ s.idJudged.shelf = s.shelf := by
  obtain ⟨hcmds, hregs, hwire, hresp⟩ := s.cancelSwitch_eq
  have hshelf : s.idStart.shelf = s.shelf := by
    unfold State.idStart State.cancelSwitch
    split <;> rfl
  unfold State.idJudged
  split
  · have hsame := fun (p : Part) (h : (8192).testBit (partBit p) = false) => s.idStart.refuseForSleep_same h
    exact ⟨(hsame .cmds rfl).trans hcmds, (hsame .regs rfl).trans hregs, (hsame .wire rfl).trans hwire,
      (congrArg Link.idResponse (hsame .link rfl)).trans hresp, (hsame .shelf rfl).trans hshelf⟩
  · exact ⟨hcmds, hregs, hwire, hresp, hshelf⟩

/-- The wake latch leaves a card as ready as it was. -/
theorem State.refuseForSleep_ready (s : State) : s.refuseForSleep.ready = s.ready := by
  have hpower : s.refuseForSleep.power = s.power := s.refuseForSleep_same (p := .power) rfl
  have hlink : s.refuseForSleep.link = s.link := s.refuseForSleep_same (p := .link) rfl
  have hcmds : s.refuseForSleep.cmds = s.cmds := s.refuseForSleep_same (p := .cmds) rfl
  have hshelf : s.refuseForSleep.shelf = s.shelf := s.refuseForSleep_same (p := .shelf) rfl
  unfold State.ready State.commitAcked
  rw [hpower, hlink, hcmds, hshelf]

theorem State.idJudged_ready {s : State} (hf : s.link.fast = false) : s.idJudged.ready = s.ready := by
  have hstart : s.idStart.ready = s.ready := State.cancelSwitch_ready hf
  unfold State.idJudged
  split
  · exact s.idStart.refuseForSleep_ready.trans hstart
  · exact hstart

/-- The checks of a frame of ID mode in their order (R71–R78). -/
theorem State.takeIdFrame_eq {s : State} (hf : s.link.fast = false) (b : List Nat) : s.takeIdFrame b =
    if !idCrcGood b then s.idStart.bump Reg.LINK.ID_ERRORS.CRC_ERR
    else if !(idCmdOf b).bcast && !s.idJudged.mine (idCmdOf b) then s.idJudged
    else if !s.idJudged.cmds.isEmpty || !s.idJudged.ready then s.idJudged.bump Reg.LINK.ID_ERRORS.DROPPED
    else if s.idJudged.sleepBound then s.idJudged
    else if (idCmdOf b).orig = 0xFF ∨ 192 < idLen b then s.idJudged
    else if (idCmdOf b).bcast && !bcastOp (idCmdOf b).opcode then s.idJudged
    else if s.idJudged.link.repeats (idCmdOf b).orig (idCmdOf b).tag (idCmdOf b).opcode then s.idJudged.answerAgain
    else if (idCmdOf b).bcast && !s.idJudged.selected (idCmdOf b).opcode (idCmdOf b).fields then
      s.idJudged.bump Reg.SHELF.COUNTS.BCAST_SKIPPED
    else s.idJudged.stamp (idCmdOf b).orig (idCmdOf b).tag (idCmdOf b).opcode (idCmdOf b).fields (idCmdOf b).bcast true [idDataOf b] :=
  if_neg (by rw [hf]; decide)

/-- What a frame of ID mode under the reserved Originator leaves of the card. -/
theorem State.takeIdFrame_of_reserved {s : State} {b : List Nat} (hf : s.link.fast = false) (hcrc : idCrcGood b = true)
    (ho : (idCmdOf b).orig = 0xFF) : s.takeIdFrame b = s.idJudged ∨
      s.takeIdFrame b = s.idJudged.bump Reg.LINK.ID_ERRORS.DROPPED ∧ (s.cmds ≠ [] ∨ s.ready = false) := by
  rw [State.takeIdFrame_eq hf, if_neg (by rw [hcrc]; decide)]
  by_cases hmine : (!(idCmdOf b).bcast && !s.idJudged.mine (idCmdOf b)) = true
  · rw [if_pos hmine]
    exact .inl rfl
  · rw [if_neg hmine]
    by_cases hdrop : (!s.idJudged.cmds.isEmpty || !s.idJudged.ready) = true
    · rw [if_pos hdrop]
      rw [s.idJudged_eq.1, State.idJudged_ready hf] at hdrop
      exact .inr ⟨rfl, by simpa using hdrop⟩
    · rw [if_neg hdrop]
      by_cases hbound : s.idJudged.sleepBound = true
      · rw [if_pos hbound]
        exact .inl rfl
      · rw [if_neg hbound, if_pos (Or.inl ho)]
        exact .inl rfl

/-- Settles O41: in fast mode the frame is stray, in ID mode it is let go. -/
theorem reservedOriginator : Obligations.ReservedOriginator := by
  refine ⟨fun s idle b hh hb ho hr => ?_, fun s b hk hf hcrc ho => ⟨_, _, moves_done (if_pos hk), ?_⟩⟩
  · intro r hready howed hheld
    obtain ⟨hup, hack⟩ := State.receive_accepts hr
    have hexec : exec (.cmdFrame idle b) s = (r.takeCommand (cmdOf b)).done := by
      rw [execCmdFrame_of_hears b hh hb, if_pos hr, State.acceptCommand_admits hup howed hheld]
    refine ⟨_, _, moves_done hexec, ?_⟩
    rw [State.takeCommand_of_reserved ho hready]
    obtain ⟨hcmds, hlast, hstray, hlimit, hdue⟩ := r.stray_eq
    split
    · have hregs := r.counted.stray.refuseForSleep_same (p := .regs) rfl
      have hlink := r.counted.stray.refuseForSleep_same (p := .link) rfl
      have hrd : ∀ f : Field, r.counted.stray.refuseForSleep.rd f = r.counted.stray.rd f := fun f => congrArg (fun m => regRead m f) hregs
      refine ⟨(r.counted.stray.refuseForSleep_same (p := .cmds) rfl).trans hcmds, (hrd _).trans hlast, (hrd _).trans hstray, ?_, ?_⟩
      · exact (congrArg Link.cmdLimit hlink).trans hlimit
      · exact (congrArg Link.ackDue hlink).trans (hdue.trans hack)
    · exact ⟨hcmds, hlast, hstray, hlimit, hdue.trans hack⟩
  · obtain ⟨hcmds, hregs, hwire, hresp, -⟩ := s.idJudged_eq
    rcases State.takeIdFrame_of_reserved hf hcrc ho with h | ⟨h, hwhy⟩
    · rw [h]
      exact ⟨hcmds, hresp, hwire, fun _ _ => hregs⟩
    · rw [h]
      refine ⟨hcmds, hresp, hwire, fun hnone hready => ?_⟩
      rcases hwhy with hwhy | hwhy
      · exact absurd hnone hwhy
      · rw [hready] at hwhy
        cases hwhy

/-! The stamp (R113–R115). -/

/-- A frame that passes every check of acceptance is stamped. -/
theorem State.takeCommand_stamps {s : State} {f : CmdIn} (hb : f.bcast = false) (hm : s.mine f = true) (ho : f.orig ≠ 0xFF)
    (hr : s.ready = true) (hs : s.sleepBound = false) (hk : s.known f.orig f.tag = false)
    (h1 : 1 ≤ (s.link.cmdLimit + 65536 - s.link.cmdCount) % 65536) (h2 : (s.link.cmdLimit + 65536 - s.link.cmdCount) % 65536 ≤ 1024) :
    s.takeCommand f = s.counted.stamp f.orig f.tag f.opcode f.fields false false := by
  change (if s.sleepBound then _ else if !s.ready then _ else if !f.bcast && !s.mine f then _ else if _ then _ else if f.orig = 0xFF then _
    else if s.known f.orig f.tag then _ else if f.bcast && _ then _ else if f.bcast && _ then _ else
      s.counted.stamp f.orig f.tag f.opcode f.fields f.bcast false) = _
  rw [hs, hr, hm, hk, hb, if_neg Bool.false_ne_true, if_neg (by decide), if_neg (by decide), if_neg (by omega), if_neg ho]
  rfl

/-- ORDER_SEQ stands on no page of the rings. -/
theorem orderSeq_offRings : OffRings Reg.LINK.ORDER_SEQ.LAST.key := by
  unfold OffRings
  decide

theorem sqMark_ne_key {k : Nat} (hk : OffRings k) (ring : Nat) : (sqMark ring).crossings.key ≠ k ∧ (sqMark ring).sticky.key ≠ k := by
  unfold sqMark
  split
  · exact ⟨hk.ne_key (.inl rfl) rfl, hk.ne_key (.inl rfl) rfl⟩
  · exact ⟨hk.ne_key (.inr rfl) rfl, hk.ne_key (.inr rfl) rfl⟩

/-- A command joins its ring: a key off the rings' pages stands. -/
theorem State.pushed_stands {k : Nat} {b s : State} {ring before : Nat} (hk : OffRings k)
    (hhwm : (Reg.QUEUE.HWM.SQ_HWM.inBank ring).key ≠ k) (hs : Stands k b s) : Stands k b (s.pushed ring before) := by
  unfold State.pushed
  extract_lets after s1
  have h1 : Stands k b s1 := Stands.ite (State.wr_stands hhwm hs) hs
  unfold State.submitRose
  extract_lets r
  have hr : Stands k b r.1 := State.cross_stands (sqMark_ne_key hk ring) h1
  split
  · exact State.post_stands hk hr
  · exact hr

theorem State.commitStamp_stands {k : Nat} {b s : State} {c : Cmd} (hk : Reg.SHELF.SLEEP_STAT.STATE.key ≠ k) (hs : Stands k b s) :
    Stands k b (s.commitStamp c) := by
  unfold State.commitStamp
  split
  · have hstate : Stands k b (s.wr Reg.SHELF.SLEEP_STAT.STATE 3) := State.wr_stands hk hs
    exact hstate
  · exact hs

/-- The completion of an open command of fast mode leaves it In flight with its status fixed. -/
theorem State.complete_settles {s : State} {q : Nat} {c : Cmd} (h : s.cmd? q = some c) (ho : c.done? = false) (hi : c.idMode = false)
    (st r : Nat) : ∃ d ∈ (s.complete q st r).cmds, d.q = c.q ∧ d.orig = c.orig ∧ d.tag = c.tag ∧ d.opcode = c.opcode ∧
      d.fields = c.fields ∧ d.phase = .settled := by
  obtain ⟨hmem, hq⟩ := State.cmd?_mem h
  unfold State.complete
  split
  · rename_i hnone
    cases h.symm.trans hnone
  · rename_i d hsome
    cases h.symm.trans hsome
    rw [ho, if_neg Bool.false_ne_true]
    extract_lets s1 n r1 c1 s2 s3
    obtain ⟨hc1, hfields⟩ : c1.idMode = false ∧ c1.q = c.q ∧ c1.orig = c.orig ∧ c1.tag = c.tag ∧ c1.opcode = c.opcode ∧
        c1.fields = c.fields ∧ c1.phase = .settled := by
      dsimp only [c1]
      rw [hi]
      exact ⟨rfl, rfl, rfl, rfl, rfl, rfl, rfl⟩
    rw [hc1, if_neg Bool.false_ne_true]
    have hcmds : ∀ x : State, x.cmds = s2.cmds → (x.owe c1).cmds = mapIf (fun x => x.q == q) (fun _ => c1) s.cmds := by
      intro x hx
      refine ((State.owe_moved (Within.refl 4) (Moved.refl _ x)).same .cmds rfl).trans (hx.trans ?_)
      exact congrArg (mapIf (fun x : Cmd => x.q == q) fun _ => c1) (State.spendNonce_cmds s c)
    have hin : c1 ∈ mapIf (fun x : Cmd => x.q == q) (fun _ => c1) s.cmds := by
      have := mem_mapIf_of (p := fun x : Cmd => x.q == q) (f := fun _ => c1) hmem
      rwa [if_pos (by simp [hq])] at this
    refine ⟨c1, ?_, hfields⟩
    rw [hcmds]
    · exact hin
    · rfl

/-- The card with a command's number taken and, in an armed round of another sender, the wake latched (R113, R153). -/
def State.takeNumber (s : State) (orig : Nat) : State :=
  let s := s.wr Reg.LINK.ORDER_SEQ.LAST ((s.rd Reg.LINK.ORDER_SEQ.LAST + 1) % 2 ^ 32)
  if s.rd Reg.SHELF.SLEEP_STAT.STATE = 2 ∧ s.shelf.armedBy ≠ some orig then s.latchWake 1 else s

/-- The number taken, the link and the commands as they were. -/
theorem State.takeNumber_eq (s : State) (orig : Nat) :
    (s.takeNumber orig).rd Reg.LINK.ORDER_SEQ.LAST = (s.rd Reg.LINK.ORDER_SEQ.LAST + 1) % 2 ^ 32 ∧
      (s.takeNumber orig).link = s.link ∧ (s.takeNumber orig).cmds = s.cmds := by
  have hlast := s.rd_wr_of_lt (f := Reg.LINK.ORDER_SEQ.LAST) (w := 32) (v := (s.rd Reg.LINK.ORDER_SEQ.LAST + 1) % 2 ^ 32) rfl
    (Nat.mod_lt _ (by decide))
  unfold State.takeNumber
  dsimp only
  split
  · have hmoved := State.latchWake_moved (Within.refl 8192) (cause := 1)
      (Moved.refl _ (s.wr Reg.LINK.ORDER_SEQ.LAST ((s.rd Reg.LINK.ORDER_SEQ.LAST + 1) % 2 ^ 32)))
    exact ⟨(congrArg (fun m => regRead m _) (hmoved.same .regs rfl)).trans hlast, hmoved.same .link rfl, hmoved.same .cmds rfl⟩
  · exact ⟨hlast, rfl, rfl⟩

/-- A command that the card has not In flight joins the others behind them. -/
theorem State.cmd?_append {s : State} {c : Cmd} (h : s.cmd? c.q = none) :
    ({ s with cmds := s.cmds ++ [c] } : State).cmd? c.q = some c := by
  unfold State.cmd? at h ⊢
  rw [List.find?_append, h, List.find?_cons_of_pos (by simp)]
  rfl

/-- What the stamp makes of a frame of fast mode: the number, and the command queued or, by opcode and ring, ended. -/
theorem State.stamp_spec (s : State) (o tag op fields : Nat)
    (hq : s.cmd? ((s.rd Reg.LINK.ORDER_SEQ.LAST + 1) % 2 ^ 32) = none) :
    let q := (s.rd Reg.LINK.ORDER_SEQ.LAST + 1) % 2 ^ 32
    let t := s.stamp o tag op fields false false
    t.rd Reg.LINK.ORDER_SEQ.LAST = q ∧ t.link.cmdCount = s.link.cmdCount ∧
      ∃ c ∈ t.cmds, c.q = q ∧ c.orig = o ∧ c.tag = tag ∧ c.opcode = op ∧ c.fields = fields ∧ (c.phase = .queued ∨ c.phase = .settled) := by
  intro q
  obtain ⟨hlast, hlink, hcmds⟩ := s.takeNumber_eq o
  unfold State.stamp
  extract_lets s1 s2 ring full c before s3 s4 t
  have hs2 : s2 = s.takeNumber o := rfl
  clear_value s2
  subst hs2
  have hcmd : s3.cmd? c.q = some c := State.cmd?_append ((State.cmd?_of_cmds hcmds _).trans hq)
  have hends : ∀ st, (s3.complete c.q st).rd Reg.LINK.ORDER_SEQ.LAST = q ∧ (s3.complete c.q st).link.cmdCount = s.link.cmdCount ∧
      ∃ d ∈ (s3.complete c.q st).cmds, d.q = q ∧ d.orig = o ∧ d.tag = tag ∧ d.opcode = op ∧ d.fields = fields ∧
        (d.phase = .queued ∨ d.phase = .settled) := by
    intro st
    obtain ⟨d, hd, h1, h2, h3, h4, h5, h6⟩ := State.complete_settles hcmd rfl rfl st 0
    refine ⟨(State.rd_complete _ _ _ _ _ _ rfl).trans hlast, ?_, d, hd, h1, h2, h3, h4, h5, .inr h6⟩
    have hcount : (s3.complete c.q st).link.cmdCount = s3.link.cmdCount := (congrArg Link.cmdCount (State.complete_tail (Tail.refl s3)).link :)
    exact hcount.trans (congrArg Link.cmdCount hlink)
  dsimp only [t]
  split
  · exact hends stBadOpcode
  · split
    · exact hends stQueueFull
    · have hmoved : Moved 1026 s3 s4 := State.commitStamp_moved (Within.refl 1026) (Moved.refl _ s3)
      have hstands : Stands Reg.LINK.ORDER_SEQ.LAST.key s3 s4 := State.commitStamp_stands (by decide) (Stands.refl _ s3)
      have hcount : s3.link.cmdCount = s.link.cmdCount := congrArg Link.cmdCount hlink
      have hin : c ∈ s3.cmds := List.mem_append_right _ List.mem_cons_self
      have hjoins : ∀ x : State, x = s4 ∨ (∃ r, x = s4.pushed r before) → x.rd Reg.LINK.ORDER_SEQ.LAST = q ∧
          x.link.cmdCount = s.link.cmdCount ∧ x.cmds = s3.cmds := by
        rintro x (rfl | ⟨r, rfl⟩)
        · exact ⟨hstands.rd.trans hlast, (congrArg Link.cmdCount (hmoved.same .link rfl)).trans hcount, hmoved.same .cmds rfl⟩
        · have hpushed := State.pushed_moved (Within.refl 194) (ring := r) (before := before) (Moved.refl _ s4)
          exact ⟨(State.pushed_stands orderSeq_offRings (Field.key_ne rfl) hstands).rd.trans hlast,
            (congrArg Link.cmdCount ((hpushed.same .link rfl).trans (hmoved.same .link rfl))).trans hcount,
            (hpushed.same .cmds rfl).trans (hmoved.same .cmds rfl)⟩
      have hring : ∀ r : Option Nat, (match r with | some r => s4.pushed r before | none => s4) = s4 ∨
          ∃ n, (match r with | some r => s4.pushed r before | none => s4) = s4.pushed n before
        | none => .inl rfl
        | some r => .inr ⟨r, rfl⟩
      obtain ⟨hrd, hlinkc, hall⟩ := hjoins _ (hring ring)
      exact ⟨hrd, hlinkc, c, hall ▸ hin, rfl, rfl, rfl, rfl, rfl, .inl rfl⟩

/-- Settles O42: the frame is stamped on the card that has counted it. -/
theorem commandsAreStamped : Obligations.CommandsAreStamped := by
  intro s f hb hm ho hr hs hk h1 h2 t q hq
  have ht : t = s.counted.stamp f.orig f.tag f.opcode f.fields false false := State.takeCommand_stamps hb hm ho hr hs hk h1 h2
  rw [ht]
  exact s.counted.stamp_spec f.orig f.tag f.opcode f.fields hq

end Sys2Proof.Machine
end

section
/-!
The upkeep of the link: acknowledgement, replay and training (R91, R92, R106–R111).
-/
namespace Sys2Proof.Machine
open Sys2Proof.Safety

/-! Replay. -/

/-- Frames that are sent stand on the wire, one after another; what is unacknowledged stays. -/
theorem State.foldl_transmit (l : List UpFrame) (s : State) :
    (l.foldl (fun (s : State) f => s.transmit f) s).link.unacked = s.link.unacked ∧
      (l.foldl (fun (s : State) f => s.transmit f) s).wire.length = s.wire.length + l.length := by
  induction l generalizing s with
  | nil => exact ⟨rfl, rfl⟩
  | cons f l ih =>
    obtain ⟨hunacked, hwire⟩ := ih (s.transmit f)
    refine ⟨hunacked, hwire.trans ?_⟩
    have hone : (s.transmit f).wire.length = s.wire.length + 1 := List.length_append
    rw [hone, List.length_cons]
    omega

/-- The unacknowledged frames as a replay sends them again. -/
def Link.replayed (l : Link) : List UpFrame := l.unacked.map (fun (f : UpFrame) => { f with retx := true, retries := f.retries + 1 })

theorem State.replay_of_budget {s : State} (hp : s.link.phase = .up) (hu : s.link.unacked ≠ [])
    (h : ∀ f ∈ s.link.unacked, f.retries + 1 ≤ s.retryMax) :
    s.replay.link.unacked = s.link.replayed ∧ s.replay.wire.length = s.wire.length + s.link.unacked.length := by
  have hover : ¬ (s.link.unacked.any fun f => decide (s.retryMax < f.retries + 1)) = true := by
    simpa [Nat.not_lt] using h
  unfold State.replay
  rw [if_neg (by simp [hp, hu]), if_neg hover]
  extract_lets s1
  obtain ⟨hunacked, hwire⟩ := State.foldl_transmit s1.link.unacked s1
  refine ⟨(congrArg Link.unacked (State.tally_link _ _ _)).trans hunacked, ?_⟩
  refine (congrArg List.length ((State.tally_moved (Within.refl 194) (Moved.refl _ _)).same .wire rfl)).trans (hwire.trans ?_)
  exact congrArg (s.wire.length + ·) (List.length_map _)

theorem State.replay_of_overrun {s : State} (hp : s.link.phase = .up) (h : ∃ f ∈ s.link.unacked, s.retryMax < f.retries + 1) :
    s.replay = s.loseLink := by
  obtain ⟨f, hf, hlt⟩ := h
  unfold State.replay
  rw [if_neg (by simp [hp, List.ne_nil_of_mem hf]), if_pos (List.any_eq_true.mpr ⟨f, hf, decide_eq_true hlt⟩)]

/-! Training. -/

theorem getD_modify_self {α : Type} (l : List α) {i : Nat} (f : α → α) (d : α) (h : i < l.length) :
    (l.modify i f).getD i d = f (l.getD i d) := by
  simp [List.getD_eq_getElem?_getD, h]

theorem Link.train_lockRun (l : Link) : l.train.lockRun = l.lockRun := by
  unfold Link.train
  split <;> rfl

/-- A TSD block on a configured lane counts towards its lock, or clears it. -/
theorem State.takeTsd_lockRun {s : State} {lane : Nat} (b : List Nat) (slot : Bool) (hf : s.link.fast = true)
    (hp : s.link.phase ≠ .returning) (hl : lane < s.downLanes) (hlen : lane < s.link.lockRun.length) :
    (s.takeTsd lane b slot).link.lockRun.getD lane 0 = if b = tsdBlock lane then min 2 (s.link.lockRun.getD lane 0 + 1) else 0 := by
  unfold State.takeTsd
  rw [if_neg (by simp [hf, hp, hl])]
  dsimp only [State.onLink]
  rw [Link.train_lockRun, getD_modify_self _ _ _ hlen]
  by_cases hb : b = tsdBlock lane
  · simp [hb]
  · simp [hb]

theorem State.takeTse_of_not {s : State} {l : List (List Nat)} {slot : Bool}
    (h : s.link.phase ≠ .training ∨ s.link.aligned = false ∨ slot = false ∨ l ≠ (rangeFrom 0 s.downLanes).map tseBlock) :
    s.takeTse l slot = s := by
  unfold State.takeTse State.tseGood
  rw [if_neg]
  rcases h with h | h | h | h <;> simp [h]

/-- The link as the TSE brings it UP. -/
def Link.trained (l : Link) : Link := { l with phase := .up, firstCtl := true, linkctlDue := true, idleHc := 0 }

theorem State.answerTse_link (s : State) : s.answerTse.link = s.link := by
  unfold State.answerTse
  have h : ∀ (l : List Nat) (s : State), (l.foldl (fun (s : State) l => s.emit (.block l (tseBlock l))) s).link = s.link := by
    intro l
    induction l with
    | nil => exact fun _ => rfl
    | cons a l ih => exact fun s => ih _
  exact h _ s

/-- The TSE of an aligned link in training brings it UP, restarted where training began from FAST_WAIT or LOST. -/
theorem State.takeTse_link {s : State} (hp : s.link.phase = .training) (ha : s.link.aligned = true) :
    let t := s.takeTse ((rangeFrom 0 s.downLanes).map tseBlock) true
    t.link.phase = .up ∧ t.link.firstCtl = true ∧ (s.link.trainedFrom ≠ .up → t.link.rxExpected = 0 ∧ t.link.cmdCount = 0) := by
  unfold State.takeTse State.tseGood
  rw [if_pos (by simp [hp, ha])]
  extract_lets s1 s2 t
  have h2 : s2.link = s.link.trained := (State.raise_link _ _ _).trans (congrArg Link.trained s.answerTse_link)
  dsimp only [t]
  split
  · rename_i hup
    rw [h2] at hup ⊢
    exact ⟨rfl, rfl, fun hne => absurd (beq_iff_eq.mp hup) hne⟩
  · refine ⟨?_, ?_, fun _ => ⟨rfl, rfl⟩⟩
    · exact (congrArg Link.phase h2).trans rfl
    · exact (congrArg Link.firstCtl h2).trans rfl

/-- Settles O43: the rows of acknowledgement and replay, then those of training. -/
theorem linkUpkeep : Obligations.LinkUpkeep := by
  refine ⟨fun s idle b hh hb => ⟨_, moves_done (execLinkctl_of_hears b hh hb)⟩, fun s hk hp => ⟨fun a => ⟨_, moves_done ?_⟩,
    fun hu => ⟨⟨_, moves_done ?_⟩, State.replay_of_budget hp hu, State.replay_of_overrun hp⟩, fun ha => ⟨_, moves_done ?_⟩⟩,
    fun s hk => ⟨fun lane b slot => ⟨_, moves_done (if_pos hk)⟩, fun lane b slot hf hp hl hlen => State.takeTsd_lockRun b slot hf hp hl hlen,
      fun hp ha => ?_, fun l slot h => ⟨_, moves_done ?_⟩⟩⟩
  · exact if_pos (by simp [hk, hp])
  · exact if_pos (by simp [hk, hp, hu])
  · exact if_pos (by simp [hk, hp, ha])
  · obtain ⟨hup, hfirst, hrestart⟩ := State.takeTse_link hp ha
    have hends := (s.takeTse ((rangeFrom 0 s.downLanes).map tseBlock) true).settle_ends_self
    refine ⟨_, if_pos hk, (phase_of_ends hends).trans hup, (congrArg Link.firstCtl hends.link :).trans hfirst, fun hne => ?_⟩
    obtain ⟨hrx, hcount⟩ := hrestart hne
    exact ⟨(congrArg Link.rxExpected hends.link :).trans hrx, (congrArg Link.cmdCount hends.link :).trans hcount⟩
  · exact (if_pos hk).trans (congrArg State.done (State.takeTse_of_not h))

end Sys2Proof.Machine
end

section
/-!
The return to ID mode, the frames of ID mode and progress (R71–R78, R94, R129–R131).
-/
namespace Sys2Proof.Machine
open Sys2Proof.Safety

/-! A link in RETURNING sends nothing more. -/

/-- A link that returns to ID mode with no frame queued and none unacknowledged. -/
def Drained (s : State) : Prop := s.link.phase = .returning ∧ s.link.txQueue = [] ∧ s.link.unacked = []

theorem Drained.of_link {s t : State} (h : Drained s) (hl : t.link = s.link) : Drained t := by
  unfold Drained
  rw [hl]
  exact h

theorem foldl_drained {α : Type} {f : State → α → State} (hf : ∀ s a, Drained s → Drained (f s a)) {s : State} (l : List α)
    (h : Drained s) : Drained (l.foldl f s) := by
  induction l generalizing s with
  | nil => exact h
  | cons a l ih => exact ih (hf s a h)

section
variable {s : State} (h : Drained s)
include h

/-- In RETURNING a completion owes no frame. -/
theorem Drained.owe (c : Cmd) : Drained (s.owe c) := by
  unfold State.owe
  rw [if_pos (by simp [h.1])]
  exact h

theorem Drained.answerAborts (c : Cmd) : Drained (s.answerAborts c) := by
  unfold State.answerAborts
  refine foldl_drained (fun s a h => ?_) _ h
  split
  · split
    · exact h
    · refine Drained.owe ?_ _
      exact ⟨h.1, congrArg (List.filter _) h.2.1, h.2.2⟩
  · exact h

theorem Drained.leave (q : Nat) : Drained (s.leave q) := by
  unfold State.leave
  split
  · exact h
  · rename_i c _
    extract_lets l s1 s2
    have h2 : Drained s2 := by
      dsimp only [s2]
      split
      · exact ⟨h.1, h.2.1, h.2.2⟩
      · exact ⟨h.1, h.2.1, h.2.2⟩
    exact h2.answerAborts c

theorem Drained.complete (q status result data dataLen : Nat) : Drained (s.complete q status result data dataLen) := by
  unfold State.complete
  split
  · exact h
  · rename_i c _
    split
    · exact h
    · extract_lets s1 n r1 c1 s2 s3 r4
      have h1 : Drained s1 := h.of_link (s.spendNonce_link c)
      split
      · refine Drained.leave ?_ q
        exact ⟨h1.1, h1.2.1, h1.2.2⟩
      · refine Drained.owe ?_ _
        exact ⟨h1.1, congrArg (List.filter _) h1.2.1, h1.2.2⟩

theorem Drained.endLink (q : Nat) : Drained (s.endLink q) := by
  have hw : Drained (s.withdraw q) := h
  have hc := hw.complete q stAbortedLink 0 0 0
  unfold State.endLink State.endCmd State.sweepEngines
  refine Drained.of_link ?_ (State.tally_link _ _ _)
  split
  · exact hc.of_link rfl
  · exact hc.of_link rfl

end

/-- The link-loss rule in RETURNING leaves no frame. -/
theorem State.linkLoss_drained {s : State} (hp : s.link.phase = .returning) : Drained s.linkLoss := by
  have hlink := s.lossReopened_link
  have hreopened : Drained s.lossReopened := by
    unfold Drained
    rw [hlink]
    exact ⟨hp, rfl, rfl⟩
  have hqueued : s.lossQueued = s.lossReopened := if_pos (by simp [hreopened.1])
  rw [s.linkLoss_eq, hqueued]
  have hend : ∀ (s : State) (c : Cmd), Drained s → Drained (s.endLink c.q) := fun _ c h => h.endLink c.q
  exact foldl_drained hend _ hreopened

/-! The return to ID mode. -/

/-- The link as the return begins. -/
def Link.returning (l : Link) : Link := { l with phase := .returning, aligned := false, lockRun := [0, 0, 0, 0], owed := [], held := [] }

theorem State.beginReturn_drained {s : State} (hf : s.link.fast = true)
    (hp : s.link.phase = .up ∨ s.link.phase = .training ∨ s.link.phase = .lost) : Drained s.beginReturn := by
  unfold State.beginReturn
  rw [if_pos (by rcases hp with h | h | h <;> simp [hf, h])]
  refine State.linkLoss_drained ?_
  rw [State.disarm_link, State.tally_link]
  rfl

/-- The link in ID mode on the first edge on which nothing is In flight: ready where the card is. -/
theorem State.endReturn_eq {s : State} (hp : s.link.phase = .returning) (hc : s.cmds = []) :
    s.endReturn.link.fast = false ∧
      s.endReturn.link.phase = (if s.power.armed = true ∧ s.power.startup = .ready then .idReady else .idNotReady) ∧
      ∀ c ∈ s.endReturn.flash.chans, c.reconf = true := by
  unfold State.endReturn
  rw [if_pos (by simp [hp, hc])]
  extract_lets s0 s1
  have hlink : (s1.raise Evt.LINK.RETURNED_ID).newFrequency.link = Link.reset := State.raise_link s1 _ _
  have hpower : (s1.raise Evt.LINK.RETURNED_ID).newFrequency.power = s.power := State.raise_power s1 _ _
  have hchans : ∀ c ∈ (s1.raise Evt.LINK.RETURNED_ID).newFrequency.flash.chans, c.reconf = true := by
    intro c hc
    obtain ⟨x, -, rfl⟩ := List.mem_map.mp hc
    rfl
  unfold State.presentReady
  rw [hpower]
  by_cases hready : s.power.armed = true ∧ s.power.startup = .ready
  · rw [if_pos (by rw [hlink]; simp [hready, Link.reset]), if_pos hready]
    exact ⟨(congrArg Link.fast hlink).trans rfl, rfl, hchans⟩
  · rw [if_neg (by rw [hlink]; simpa [Link.reset] using hready), if_neg hready]
    exact ⟨(congrArg Link.fast hlink).trans rfl, (congrArg Link.phase hlink).trans rfl, hchans⟩

/-! Frames of ID mode. -/

theorem State.idJudged_mine (s : State) (f : CmdIn) : s.idJudged.mine f = s.mine f := by
  unfold State.mine State.rd
  rw [s.idJudged_eq.2.1]

theorem State.idJudged_repeats (s : State) (o t op : Nat) : s.idJudged.link.repeats o t op = s.link.repeats o t op := by
  unfold Link.repeats
  rw [s.idJudged_eq.2.2.2.1]

theorem State.answerAgain_cmds (s : State) : s.answerAgain.cmds = s.cmds := by
  unfold State.answerAgain
  split <;> rfl

/-- A frame of ID mode that a check refuses, or that repeats the command whose response is kept, adds no command. -/
theorem State.takeIdFrame_cmds {s : State} {b : List Nat} (hf : s.link.fast = false)
    (h : idCrcGood b = false ∨ ((idCmdOf b).bcast = false ∧ s.mine (idCmdOf b) = false) ∨ (idCmdOf b).orig = 0xFF ∨ s.cmds ≠ [] ∨
      s.link.repeats (idCmdOf b).orig (idCmdOf b).tag (idCmdOf b).opcode = true) : (s.takeIdFrame b).cmds = s.cmds := by
  have hcmds := s.idJudged_eq.1
  rw [State.takeIdFrame_eq hf]
  rcases h with h | ⟨hb, hm⟩ | h | h | h
  · rw [if_pos (by rw [h]; decide)]
    exact s.cancelSwitch_eq.1
  all_goals
    by_cases hcrc : (!idCrcGood b) = true
    · rw [if_pos hcrc]
      exact s.cancelSwitch_eq.1
    rw [if_neg hcrc]
  · rw [s.idJudged_mine, hb, hm, if_pos (by decide)]
    exact hcmds
  all_goals
    by_cases hmine : (!(idCmdOf b).bcast && !s.idJudged.mine (idCmdOf b)) = true
    · rw [if_pos hmine]
      exact hcmds
    rw [if_neg hmine]
    by_cases hdrop : (!s.idJudged.cmds.isEmpty || !s.idJudged.ready) = true
    · rw [if_pos hdrop]
      exact hcmds
    rw [if_neg hdrop]
    by_cases hbound : s.idJudged.sleepBound = true
    · rw [if_pos hbound]
      exact hcmds
    rw [if_neg hbound]
  · rw [if_pos (Or.inl h)]
    exact hcmds
  · rw [hcmds] at hdrop
    exact absurd (by simp [h]) hdrop
  · rw [s.idJudged_repeats, h]
    split
    · exact hcmds
    · split
      · exact hcmds
      · exact (State.answerAgain_cmds _).trans hcmds

/-- A frame that repeats the command whose response is kept is answered with it (R77). -/
theorem State.takeIdFrame_repeats {s : State} {b : List Nat} {r : IdResponse} (hf : s.link.fast = false)
    (hr : s.link.idResponse = some r) (hcrc : idCrcGood b = true) (hb : (idCmdOf b).bcast = false) (hm : s.mine (idCmdOf b) = true)
    (hc : s.cmds = []) (hready : s.ready = true) (hs : s.sleepBound = false) (ho : (idCmdOf b).orig ≠ 0xFF) (hlen : idLen b ≤ 192)
    (h1 : r.orig = (idCmdOf b).orig) (h2 : r.tag = (idCmdOf b).tag) (h3 : r.opcode = (idCmdOf b).opcode) :
    (s.takeIdFrame b).wire = s.wire ++ [.response r.bytes] := by
  obtain ⟨hcmds, -, hwire, hresp, hshelf⟩ := s.idJudged_eq
  have hbound : s.idJudged.sleepBound = false := by
    unfold State.sleepBound at hs ⊢
    rwa [hshelf]
  have hrepeats : s.link.repeats (idCmdOf b).orig (idCmdOf b).tag (idCmdOf b).opcode = true := by
    simp [Link.repeats, hr, h1, h2, h3]
  rw [State.takeIdFrame_eq hf, if_neg (by rw [hcrc]; decide), s.idJudged_mine, if_neg (by rw [hb, hm]; decide),
    if_neg (by rw [hcmds, State.idJudged_ready hf, hc, hready]; decide), if_neg (by rw [hbound]; decide), if_neg (by omega),
    if_neg (by simp [hb]), s.idJudged_repeats, if_pos hrepeats]
  unfold State.answerAgain
  rw [hresp, hr]
  exact congrArg (· ++ [Sent.response r.bytes]) hwire

/-! Progress. -/

/-- The card as a command's count stands one edge before the next multiple of the interval. -/
def State.progressBefore (s : State) (q : Nat) : State :=
  s.setCmd q (fun c => { c with progress := (c.progress / s.progressInterval + 1) * s.progressInterval - 1 })

theorem State.progressBefore_cmd? {s : State} {q : Nat} {c : Cmd} (h : s.cmd? q = some c) : (s.progressBefore q).cmd? q =
    some { c with progress := (c.progress / s.progressInterval + 1) * s.progressInterval - 1 } := by
  have hq := State.cmd?_q h
  unfold State.cmd? at h ⊢
  unfold State.progressBefore State.setCmd
  refine (find?_mapIf (f := fun (c : Cmd) =>
    { c with progress := (c.progress / s.progressInterval + 1) * s.progressInterval - 1 }) (fun _ => rfl) _).trans ?_
  rw [h]
  simp [hq]

theorem State.progressInterval_pos (s : State) : 0 < s.progressInterval := Nat.two_pow_pos _

/-- At a multiple of the interval one PROGRESS frame is queued on an UP link that has none. -/
theorem State.progressEdge_queues {s : State} {q : Nat} {c : Cmd} (h : s.cmd? q = some c) (hd : c.done? = false)
    (hp : s.link.phase = .up) (hq : s.link.txQueue = []) :
    ((s.progressBefore q).progressEdge q).link.txQueue = [upFrame s c .progress q 0 0] := by
  have hpos := s.progressInterval_pos
  have hmult : ((c.progress / s.progressInterval + 1) * s.progressInterval - 1 + 1) % s.progressInterval = 0 := by
    have hle : 1 ≤ (c.progress / s.progressInterval + 1) * s.progressInterval := Nat.mul_pos (Nat.succ_pos _) hpos
    rw [Nat.sub_add_cancel hle, Nat.mul_mod_left]
  unfold State.progressEdge
  rw [State.progressBefore_cmd? h]
  dsimp only
  refine (congrArg (fun x : State => x.link.txQueue) (if_pos ⟨hmult, ?_, ?_, ?_⟩)).trans ?_
  · change insertControl (upFrame _ _ _ _ _ _) s.link.txQueue = _
    rw [hq]
    rfl
  · simpa [Cmd.done?] using hd
  · change (s.link.phase == .up || s.link.phase == .training) = true
    simp [hp]
  · change (!s.link.txQueue.any _) = true
    rw [hq]
    rfl

/-- Settles O44: the return drains the link, a frame of ID mode goes by its checks, and a due count queues its frame. -/
theorem idMode : Obligations.IdMode := by
  refine ⟨⟨fun s hk hf hp => ?_, fun s hk hp hc => ?_, fun s hk hp hc => ⟨_, moves_done ?_⟩⟩,
    fun s b hk => ⟨_, moves_done (if_pos hk)⟩, fun s b hf h => State.takeIdFrame_cmds hf h,
    fun s b r hf hr hcrc hb hm hc hready hs ho hlen h1 h2 h3 => State.takeIdFrame_repeats hf hr hcrc hb hm hc hready hs ho hlen h1 h2 h3,
    fun s hk hf => ⟨_, moves_done (if_pos (by simp [hk, hf]))⟩,
    fun q s c hk hc => ⟨_, _, moves_done (if_pos hk), State.progressEdge_queues hc⟩⟩
  · obtain ⟨hphase, hqueue, hunacked⟩ := State.beginReturn_drained hf hp
    exact ⟨_, moves_done (if_pos hk), (phase_of_ends (State.settle_ends_self _)).trans hphase, hqueue, hunacked⟩
  · obtain ⟨hfast, hphase, hchans⟩ := State.endReturn_eq hp hc
    have hends := s.endReturn.settle_ends_self
    refine ⟨_, if_pos hk, (fast_of_ends hends).trans hfast, (phase_of_ends hends).trans hphase, fun c hc => hchans c ?_⟩
    rwa [flash_of_ends hends] at hc
  · refine (if_pos hk).trans (congrArg State.done ?_)
    unfold State.endReturn
    rw [if_neg (by simp [hc])]

end Sys2Proof.Machine
end

section
/-!
The decoder, staging reservations, ATTN_FETCH, SELFTEST and ABORT (R31, R78, R120, R127, R128, R193–R195, R205, R206, R211).
-/
namespace Sys2Proof.Machine
open Sys2Proof.Safety

/-! Commands and descriptors after an update. -/

theorem find?_mapIf_const {α : Type} {p : α → Bool} {a b : α} {l : List α} (h : l.find? p = some a) (hb : p b = true) :
    (mapIf p (fun _ => b) l).find? p = some b := by
  induction l with
  | nil => cases h
  | cons x l ih =>
    rw [mapIf, List.find?_cons]
    by_cases hx : p x = true
    · rw [if_pos hx, hb]
    · have hx' : p x = false := by simpa using hx
      rw [if_neg hx, hx']
      rw [List.find?_cons, hx'] at h
      exact ih h

/-- A command that is put in another's place under its number is found there. -/
theorem State.cmd?_setCmd_const {s : State} {q : Nat} {c d : Cmd} (h : s.cmd? q = some c) (hd : d.q = q) :
    (s.setCmd q (fun _ => d)).cmd? q = some d :=
  find?_mapIf_const h (beq_iff_eq.mpr hd)

theorem State.cmd?_setCmd {s : State} {r : Nat} {f : Cmd → Cmd} (hf : ∀ c, (f c).q = c.q) (q : Nat) :
    (s.setCmd r f).cmd? q = (s.cmd? q).map (fun c => if c.q = r then f c else c) := by
  have hp : ∀ c : Cmd, ((f c).q == q) = (c.q == q) := fun c => by rw [hf]
  refine (find?_mapIf (p := fun c : Cmd => c.q == q) hp s.cmds).trans ?_
  simp only [beq_iff_eq]
  rfl

theorem State.cmd?_setCmd_self {s : State} {q : Nat} {f : Cmd → Cmd} (hf : ∀ c, (f c).q = c.q) {c : Cmd} (h : s.cmd? q = some c) :
    (s.setCmd q f).cmd? q = some (f c) := by
  rw [State.cmd?_setCmd hf, h, Option.map_some, if_pos (State.cmd?_q h)]

theorem State.cmd?_setCmd_ne {s : State} {q r : Nat} {f : Cmd → Cmd} (hf : ∀ c, (f c).q = c.q) {c : Cmd} (h : s.cmd? q = some c)
    (hne : q ≠ r) : (s.setCmd r f).cmd? q = some c := by
  rw [State.cmd?_setCmd hf, h, Option.map_some, if_neg (by rw [State.cmd?_q h]; exact hne)]

theorem State.desc?_setDesc_self {s : State} {q : Nat} {f : Desc → Desc} (hf : ∀ d, (f d).q = d.q) {d : Desc} (h : s.desc? q = some d) :
    (s.setDesc q f).desc? q = some (f d) := by
  have hp : ∀ d : Desc, ((f d).q == q) = (d.q == q) := fun d => by rw [hf]
  refine (find?_mapIf (p := fun d : Desc => d.q == q) hp s.descs).trans ?_
  have hfind : s.descs.find? (fun d => d.q == q) = some d := h
  have hq : d.q = q := beq_iff_eq.mp (List.find?_some hfind :)
  rw [hfind, Option.map_some, if_pos (by rw [hq, beq_self_eq_true])]

/-- A command that a withdrawal ends has its status fixed at the end of the step. -/
theorem State.endCmd_fixed {c : Cmd} {s : State} {q status result : Nat} (h : s.cmd? q = some c) (ho : c.done? = false) :
    Fixed (s.endCmd q status result).settle c status (completionFields c status result) :=
  (State.settle_held (State.endCmd_fixes h ho)).fixed

/-! The decoder. -/

theorem isRegOp_of_gateD {o : Nat} (h : gateD o = true) : isRegOp o = false := by
  have hread : o ≠ opRegread := by rintro rfl; revert h; decide
  have hwrite : o ≠ opRegwrite := by rintro rfl; revert h; decide
  simp [isRegOp, hread, hwrite]

/-- Settles O36: the popped command is checked as it is decoded; gate D is the first check, the service of ID mode the next. -/
theorem decoderRows : Obligations.DecoderRows := by
  refine ⟨fun s c hup hpop hcmd => ?_, fun s h => ?_, fun s c hg hd => ?_, fun s c hr hg hi hs => ?_⟩
  · intro d b
    have hexec : exec .commandDecode s = (s.decode c).done := by
      change execCommandDecode s = _
      rw [execCommandDecode, if_pos hup, hpop]
    have hb : b.cmd? c.q = some d := State.cmd?_setCmd_const hcmd rfl
    refine ⟨fun hst => ⟨_, hexec.trans (congrArg State.done (if_pos hst)), State.complete_fixed (c := d) (data := 0) hb rfl⟩,
      fun hst => ⟨_, moves_done (hexec.trans (congrArg State.done (if_neg (not_not_intro hst))))⟩⟩
  · change execCommandDecode s = _
    unfold execCommandDecode
    rcases h with h | h
    · rw [if_neg (by simp [h])]
    · rw [h]
      exact ite_self _
  · have hchecks : s.decodeChecks c = s.checks c := if_neg (by rw [isRegOp_of_gateD hg]; decide)
    exact hchecks.trans (if_pos (by simp [hg, hd]))
  · have hchecks : s.decodeChecks c = s.checks c := if_neg (by rw [hr]; decide)
    refine hchecks.trans ((if_neg ?_).trans (if_pos (by simp [hi, hs])))
    rcases hg with h | h <;> simp [h]

/-! Staging. -/

/-- The command of the next reservation waits for it with a descriptor, and its status is not fixed. -/
theorem State.nextStage_waits {s : State} {c : Cmd} (h : s.nextStage = some c) :
    c.done? = false ∧ ∃ d, s.desc? c.q = some d := by
  have hp := List.find?_some h
  simp only [Bool.and_eq_true] at hp
  obtain ⟨⟨hwait, hdone⟩, -⟩ := hp
  refine ⟨by simpa using hdone, ?_⟩
  cases hd : s.desc? c.q with
  | none => rw [hd] at hwait; cases hwait
  | some d => exact ⟨d, rfl⟩

theorem execStagingReserved_of_room {s : State} {c : Cmd} (hk : s.clocked = true) (hn : s.nextStage = some c)
    (hroom : s.staged + c.stageNeed ≤ 1024) : exec .stagingReserved s = (s.reserve c).done := by
  change execStagingReserved s = _
  rw [execStagingReserved, if_pos hk, hn]
  exact if_pos hroom

/-! ATTN_FETCH. -/

/-- The data frame of an ATTN_FETCH with the entries `l`. -/
def State.fetchFrame (s : State) (c : Cmd) (l : List AttnEntry) : UpFrame :=
  upFrame s c .dataUp 0 (ceilDiv (16 * l.length) 64)
    (sumBy (fun e => (e.2 : AttnEntry).bytes * 2 ^ (128 * e.1)) ((rangeFrom 0 l.length).zip l))

/-- The card that sends them: marked on their rings, the command waiting for the acknowledgement. -/
def State.fetching (s : State) (q : Nat) (c : Cmd) (l : List AttnEntry) : State :=
  (({ s with attn := markSending c.rings l.length s.attn } : State).setCmd q (fun c => { c with phase := .upData, upSent := true })).enqueue
    (s.fetchFrame c l)

theorem attnFetch_sends {q : Nat} {s : State} {c : Cmd} (hw : AtWork s q c opFetch .decoded)
    (h : s.oldest c.rings (c.field 0 8) ≠ []) : Moves (.attnFetch q) s (s.fetching q c (s.oldest c.rings (c.field 0 8)))
      (s.fetching q c (s.oldest c.rings (c.field 0 8))).settle := by
  refine moves_of hw rfl ?_
  dsimp only
  rw [if_neg (by simpa using h)]
  rfl

theorem State.fetching_moved (s : State) (q : Nat) (c : Cmd) (l : List AttnEntry) :
    Moved (partsOf [.link, .cmds, .attn]) s (s.fetching q c l) :=
  State.enqueue_moved (by exact rfl) (State.setCmd_moved (by exact rfl) (Moved.set_attn (by exact rfl) (Moved.refl _ s)))

/-- Settles O37: the reservation by its room and by an ABORT, the fetch by what is on the rings, the self-test by its conflicts. -/
theorem queueServices : Obligations.QueueServices := by
  refine ⟨fun s c hk hn => ⟨fun hroom habort hcmd => ?_, fun hroom habort => ?_, fun hfull => ?_⟩, fun q s c hw => ?_,
    fun q f s c hw => ⟨fun h => ⟨_, finishes_of hw (by decide) rfl (if_pos ?_) hw.1⟩, fun hone hscope => ?_⟩⟩
  · have hexec := execStagingReserved_of_room hk hn hroom
    rw [State.reserve, if_pos (by simpa using habort)] at hexec
    exact ⟨_, hexec, State.endCmd_fixed (result := 0) hcmd (State.nextStage_waits hn).1⟩
  · obtain ⟨-, d, hd⟩ := State.nextStage_waits hn
    refine ⟨_, moves_done (execStagingReserved_of_room hk hn hroom), ?_⟩
    rw [State.reserve, if_neg (by simp [habort])]
    have hdesc := State.desc?_setDesc_self (f := fun d => { d with st := .data, before := .data, reserved := c.stageNeed }) (fun _ => rfl) hd
    exact ⟨_, hdesc, rfl, rfl⟩
  · change execStagingReserved s = _
    rw [execStagingReserved, if_pos hk, hn]
    exact if_neg (by omega)
  · intro l
    refine ⟨fun hl => ⟨_, finishes_of hw (by decide) rfl (if_pos ?_) hw.1⟩, fun hl => ?_⟩
    · simpa using hl
    · refine ⟨_, _, s.fetchFrame c l, attnFetch_sends hw hl, rfl, rfl, State.cmd?_q hw.1, rfl, rfl, ?_⟩
      exact (s.fetching_moved q c l).agree.only fun _ => partsOf_testBit_of_not_mem
  · rcases h with h | ⟨h1 | h1, h2⟩
    · rw [h]
      rfl
    · simp [h1, h2]
    · simp [h1, h2]
  · intro x hx
    refine ⟨_, finishes_of hw (by decide) rfl (if_neg ?_) hx⟩
    rw [hone]
    rcases hscope with ⟨h1, h5⟩ | h
    · simp [h1, h5]
    · simp [h]

/-! ABORT. -/

/-- The target of an ABORT with the ABORT noted. -/
def State.abortNoted (s : State) (q : Nat) (g : Cmd) : State :=
  (s.setCmd q (fun c => { c with phase := .waiting })).setCmd g.q (fun g => { g with abortedBy := g.abortedBy ++ [q] })

theorem execAbort_of_target {q : Nat} {s : State} {c g : Cmd} (hw : AtWork s q c opAbort .decoded) (hg : s.abortTarget c = some g)
    (h : g.orig = c.orig ∨ s.isAdmin c.orig = true) : exec (.abort q) s =
      (if g.phase == .queued then (s.abortNoted q g).endCmd g.q stAborted else s.abortNoted q g).done := by
  rw [exec_onCmd hw rfl]
  dsimp only
  rw [hg]
  dsimp only
  rw [if_neg (by rcases h with h | h <;> simp [h])]
  rfl

theorem execAbortTakesEffect_of {q : Nat} {s : State} {c : Cmd} (hk : s.clocked = true) (hc : s.cmd? q = some c)
    (ha : c.abortedBy ≠ []) (hab : s.abortable c = true) : exec (.abortTakesEffect q) s = (s.abortNow c).done := by
  change execAbortTakesEffect q s = _
  rw [execAbortTakesEffect, hc]
  exact if_pos (by simp [hk, ha, hab])

theorem State.abortable_open {s : State} {c : Cmd} (h : s.abortable c = true) : c.done? = false := by
  cases hd : c.done? with
  | false => rfl
  | true =>
    unfold State.abortable at h
    simp [hd] at h

theorem State.addJob_jobs (s : State) (b : Bearer) (w : JobWork) (l : List Nat) :
    ((s.addJob b w l).flash.jobs.any fun j => j.work == w) = true := by
  unfold State.addJob
  split
  · assumption
  · simp [State.onFlash]

/-- A TRIM of which ranges have taken effect awaits its trim record with the status ABORTED (R253). -/
theorem State.abortNow_trim {s : State} {q : Nat} {c : Cmd} (hc : s.cmd? q = some c) (ho : c.opcode = opTrim) (hd : 0 < c.done)
    (hp : c.phase ≠ .recording) (hopen : c.done? = false) :
    ((s.abortNow c).flash.jobs.any fun j => j.work == .trimRecord q stAborted) = true := by
  have hq := State.cmd?_q hc
  unfold State.abortNow State.endTrim
  rw [if_neg (by rw [ho]; decide), hq, hc]
  dsimp only
  rw [if_pos ⟨ho, hd⟩, if_neg (by simp [hp, hopen])]
  exact State.addJob_jobs _ _ _ _

/-- Settles O38: the ABORT by its target, and the target at its boundary. -/
theorem abortRows : Obligations.AbortRows := by
  refine ⟨fun q s c hw => ⟨fun hnone => ⟨_, finishes_of hw (by decide) rfl ?_ hw.1⟩, fun g hg hne hadmin =>
    ⟨_, finishes_of hw (by decide) rfl ?_ hw.1⟩, fun g hg h hp hcmd hne => ?_, fun g hg h hp => ⟨_, moves_done ?_⟩⟩,
    fun q s c hk hc ha hab => ⟨fun ho => ?_, fun ho hdone => ?_, fun ho hd hp => ?_⟩, fun q s c hc hab => ?_⟩
  · dsimp only
    rw [hnone]
  · dsimp only
    rw [hg]
    exact if_pos (by simp [hadmin, Ne.symm hne])
  · have hexec := execAbort_of_target hw hg h
    rw [if_pos (by rw [hp]; rfl)] at hexec
    have hself : (s.abortNoted q g).cmd? g.q = some { g with abortedBy := g.abortedBy ++ [q] } :=
      State.cmd?_setCmd_self (f := fun g : Cmd => { g with abortedBy := g.abortedBy ++ [q] }) (fun _ => rfl)
        (State.cmd?_setCmd_ne (f := fun c : Cmd => { c with phase := .waiting }) (fun _ => rfl) hcmd hne)
    exact ⟨_, hexec, State.endCmd_fixed (c := { g with abortedBy := g.abortedBy ++ [q] }) (result := 0) hself (by simp [Cmd.done?, hp])⟩
  · rw [execAbort_of_target hw hg h, if_neg (by simpa using hp)]
    rfl
  · have hexec := execAbortTakesEffect_of hk hc ha hab
    rw [State.abortNow, if_pos ho, State.cmd?_q hc] at hexec
    exact ⟨_, hexec, State.endCmd_fixed hc (State.abortable_open hab)⟩
  · have hexec := execAbortTakesEffect_of hk hc ha hab
    rw [State.abortNow, if_neg ho, State.cmd?_q hc, State.endTrim, hc] at hexec
    dsimp only at hexec
    rw [if_neg (by omega)] at hexec
    exact ⟨_, hexec, State.endCmd_fixed (result := 0) hc (State.abortable_open hab)⟩
  · exact ⟨_, _, moves_done (execAbortTakesEffect_of hk hc ha hab), State.abortNow_trim hc ho hd hp (State.abortable_open hab)⟩
  · change execAbortTakesEffect q s = _
    rw [execAbortTakesEffect, hc]
    exact if_neg (by simp [hab])

end Sys2Proof.Machine
end

section
/-!
What a written register word stores, and the writes of the common page header (R46, R51, R63, R209, R371, R379).
-/
namespace Sys2Proof.Machine
open Sys2Proof.Safety

/-- A header register of index 4, 5 or 7 is none that the end of a step writes. -/
theorem endKey_of_header {f : Field} (h : f.index % 32 = 4 ∨ f.index % 32 = 5 ∨ f.index % 32 = 7) : endKey f.key = false := by
  refine Field.endKey_of_offEnd ?_
  unfold Field.offEnd
  rcases h with h | h | h <;> simp [h]

/-- Attention posted for enables that rose writes the registers of the end of a step alone. -/
theorem State.postEnables_tail (s0 s : State) (page bank : Nat) : Tail s (State.postEnables s0 s page bank) := by
  unfold State.postEnables
  refine foldl_tail (foldl_tail (Tail.refl s) fun s i h => ?_) fun s i h => ?_
  · split
    · exact State.post_tail h
    · exact h
  · split
    · exact State.post_tail h
    · exact h

section
variable {s : State} {page bank : Nat}

theorem State.freshParity_rd (s : State) (page bank index : Nat) (f : Field) : (s.freshParity page bank index).rd f = s.rd f := rfl

/-- A header register reads after the step what the write left. -/
theorem State.landHeader_rd (hr : s.reaches page bank = true) (index v : Nat) {f : Field}
    (hf : f.index % 32 = 4 ∨ f.index % 32 = 5 ∨ f.index % 32 = 7) :
    (s.landHeader page bank index v 0).settle.rd f = (s.writeHeader page bank index v 0).rd f := by
  have hk := endKey_of_header hf
  rw [State.settle_rd _ hk, State.landHeader, if_pos hr]
  unfold State.rd regRead
  rw [(s.postEnables_tail _ page bank).regs _ hk]

theorem State.writeHeader_enable (v met : Nat) :
    (s.writeHeader page bank 4 v met).rd (faultEnable page (bankOf page bank)) = (v &&& Reg.faultMask page) :=
  (s.freshParity page (bankOf page bank) 4).rd_wr_self (faultEnable page (bankOf page bank)) v

theorem State.writeHeader_action (v met : Nat) :
    (s.writeHeader page bank 5 v met).rd (faultAction page (bankOf page bank)) = (v &&& actionMask page) :=
  (s.freshParity page (bankOf page bank) 5).rd_wr_self (faultAction page (bankOf page bank)) v

theorem State.writeHeader_attnEnable (v met : Nat) :
    (s.writeHeader page bank 7 v met).rd (attnEnable page (bankOf page bank)) = (v &&& Reg.attnMask page) :=
  (s.freshParity page (bankOf page bank) 7).rd_wr_self (attnEnable page (bankOf page bank)) v

theorem State.writeHeader_sticky (v met : Nat) : (s.writeHeader page bank 3 v met).rd (faultSticky page (bankOf page bank)) =
    (clearBits (s.rd (faultSticky page (bankOf page bank))) (clearBits v met) &&& (Reg.faultMask page ||| 2 ^ 31)) :=
  (s.freshParity page (bankOf page bank) 3).rd_wr_self (faultSticky page (bankOf page bank)) _

end

/-- The count of a watermark's crossings has 8 bits. -/
theorem clearCrossings_rd {w : Watermark} (s : State) (h : w.crossings.mask = ones 8) (met : Bool) :
    (s.clearCrossings w met).rd w.crossings = if met then min 1 (s.rd w.crossings) else 0 := by
  refine s.rd_wr_of_lt h ?_
  split
  · exact Nat.lt_of_le_of_lt (Nat.min_le_left _ _) (by decide)
  · decide

theorem sqMark_mask (r : Nat) : (sqMark r).crossings.mask = ones 8 := by
  unfold sqMark
  split <;> rfl

theorem aqMark_mask (r : Nat) : (aqMark r).crossings.mask = ones 8 := by
  unfold aqMark
  split <;> rfl

/-- A stored field by its access code. -/
theorem State.writeField_cases (s : State) {f : Field} (w : Nat) (hl : f.live = false) :
    (f.acc = .rw → f.page ≠ 0x24 ∨ f.index ≠ 14 ∨ s.faultsOnly = false →
      s.writeField f w = s.wr f (clampField f (bitsOf w f.lo f.width))) ∧
    (f.acc = .rw → f.page = 0x24 → f.index = 14 → s.faultsOnly = true → s.writeField f w = s) ∧
    (f.acc = .w1c → s.writeField f w = s.wr f (clearBits (s.rd f) (bitsOf w f.lo f.width))) ∧
    (f.acc = .ro → s.writeField f w = s) := by
  unfold State.writeField
  refine ⟨fun ha h => ?_, fun ha hp hi hf => ?_, fun ha => ?_, fun ha => ?_⟩
  · rw [ha]
    refine if_neg ?_
    rcases h with h | h | h <;> simp [hl, h]
  · rw [ha]
    exact if_pos (by simp [hp, hi, hf])
  · rw [ha]
    exact if_neg (by simp [hl])
  · rw [ha]

/-- Settles O54: the field by its access code, the header registers by their index. -/
theorem registerWrites : Obligations.RegisterWrites := by
  refine ⟨fun s f w hl => s.writeField_cases w hl, fun page bank v met s hk hb hr => ⟨⟨_, moves_done ?_, ?_⟩, ⟨_, moves_done ?_, ?_⟩,
    ⟨_, moves_done ?_, ?_⟩, ⟨_, moves_done ?_⟩, State.writeHeader_sticky v met⟩,
    fun page bank v met s hk hr => ⟨⟨_, moves_done ?_⟩, ⟨_, moves_done ?_⟩⟩,
    fun r m met s hk hr => ⟨⟨_, moves_done (if_pos hk)⟩, fun w b hw => clearCrossings_rd s ?_ b⟩⟩
  · exact if_pos (by simp [hk])
  · exact (State.landHeader_rd hr 4 v (.inl rfl)).trans (State.writeHeader_enable v 0)
  · exact if_pos (by simp [hk])
  · exact (State.landHeader_rd hr 5 v (.inr (.inl rfl))).trans (State.writeHeader_action v 0)
  · exact if_pos (by simp [hk])
  · exact (State.landHeader_rd hr 7 v (.inr (.inr rfl))).trans (State.writeHeader_attnEnable v 0)
  · exact if_pos (by simp [hk])
  · exact (if_pos (by simp [hk])).trans (congrArg State.done (if_neg (by rw [hr]; decide)))
  · exact (if_pos (by simp [hk])).trans (congrArg State.done (if_neg (by rw [hr]; decide)))
  · rcases hw with rfl | rfl
    · exact sqMark_mask r
    · exact aqMark_mask r

end Sys2Proof.Machine
end

section
/-!
REGWRITE: where the landing of a write ends another command of ID mode, the response that the card keeps is that command's, and the
status of the REGWRITE stands nowhere any more.
-/
namespace Sys2Proof.Machine
open Sys2Proof.Safety

/-- A NOP of ID mode on the ring of Slice 0. -/
def endedNop : Cmd := newCmd 1 1 1 opNop 0 false true (some 0) []

/-- A REGWRITE of ID mode, stamped after it, that writes SOFT_RST of bank 0 of the SLICE page. -/
def softResetWrite : Cmd := { newCmd 2 1 2 opRegwrite (6 * 32 + 1 + 2 ^ 16) false true none [1] with phase := .ready }

/-- A card in ID mode on which both are In flight, with Slice 0 ACTIVE and owned by their Originator. -/
def twoInIdMode : State :=
  { State.reset with
    power := { Power.reset with startup := .ready, armed := true }
    link := { Link.reset with phase := .idReady }
    cmds := [endedNop, softResetWrite]
    slices := { Slice.free with st := .active, owner := some 1 } :: List.replicate 63 Slice.free }

theorem softResetWrite_atWork : AtWork twoInIdMode 2 softResetWrite opRegwrite .ready := ⟨rfl, rfl, rfl, rfl⟩

/-- The conditions of the landing hold: nothing holds the write, its value is in range, it stores no configuration and lowers no
capacity, and no command is to answer an ABORT of it. -/
theorem softResetWrite_lands : (twoInIdMode.regBank softResetWrite).getD 0 = 0 ∧ twoInIdMode.regHeld softResetWrite 0 = false ∧
    twoInIdMode.valuesBad softResetWrite 0 = false ∧ twoInIdMode.storeHeld softResetWrite = false ∧
    (softResetWrite.covers 9 || softResetWrite.covers 10) = false ∧
    ∀ e ∈ twoInIdMode.cmds, (e.q = 2 → e = softResetWrite) ∧ 2 ∉ e.abortedBy := by
  refine ⟨rfl, rfl, rfl, rfl, rfl, ?_⟩
  decide

/-- At the end of the step nothing is In flight, unacknowledged or posted, and the kept response is the NOP's. -/
theorem softResetWrite_landed : let t := (twoInIdMode.landWrite softResetWrite 0 []).settle
    t.cmds = [] ∧ t.link.unacked = [] ∧ t.attn = [] ∧ t.link.idResponse.map (fun a => a.opcode) = some opNop := ⟨rfl, rfl, rfl, rfl⟩

/-- So the status of the REGWRITE is fixed nowhere. -/
theorem softResetWrite_not_fixed (st r : Nat) : ¬ Fixed (twoInIdMode.landWrite softResetWrite 0 []).settle softResetWrite st r := by
  obtain ⟨hcmds, hunacked, hattn, hresp⟩ := softResetWrite_landed
  rintro (⟨d, hd, -⟩ | ⟨f, hf, -⟩ | ⟨a, ha, -, -, hop, -⟩ | ⟨e, he, -⟩)
  · rw [hcmds] at hd
    cases hd
  · rw [hunacked] at hf
    cases hf
  · rw [ha, Option.map_some, hop] at hresp
    exact absurd hresp (by decide)
  · rw [hattn] at he
    cases he

/-- Refutes O53: a REGWRITE of ID mode that lands SOFT_RST of a Slice ends an earlier command of ID mode on that Slice's ring (R56,
R179), whose response replaces that of the REGWRITE. The clause asks for the fixed status in every state, also in one with two commands
of ID mode In flight, which R72 does not let arise. -/
theorem not_registerCommands : ¬ Obligations.RegisterCommands := by
  intro h
  obtain ⟨-, -, hwrite, -⟩ := h
  obtain ⟨hbank, hheld, hbad, hstore, hcap, hcmds⟩ := softResetWrite_lands
  obtain ⟨-, -, -, -, hlands⟩ := hwrite 2 0 [] twoInIdMode softResetWrite softResetWrite_atWork hbank
  obtain ⟨t, ⟨-, rfl, -⟩, hfixed⟩ := hlands hheld hbad hstore fun ⟨_, hcovers, _⟩ => by
    simp [Bool.or_eq_false_iff.mp hcap] at hcovers
  exact softResetWrite_not_fixed _ _ (hfixed hcmds)

end Sys2Proof.Machine
end

section
/-!
The temperature sensor (R268, R423, R427): the extremes that a conversion leaves on the POWER page.
-/
namespace Sys2Proof.Machine
open Sys2Proof.Safety

/-- An extreme of the sensor after a conversion that reads `now`: the reading itself after a CLR, else `pick` of it and the one before. -/
def State.tempExtreme (s : State) (pick : Int → Int → Int) (v : Nat) (f : Field) : Int :=
  if s.temp.fresh then clampTemp (signed10 v) else pick (clampTemp (signed10 v)) (signed10 (s.rd f))

/-- The extremes of a conversion, written to MIN and MAX. -/
def State.tempRanged (s : State) (v : Nat) : State :=
  (({ s with temp := s.tempNext v } : State).wr Reg.POWER.TEMP_RANGE.MIN
      (encode10 (s.tempExtreme (fun a b => min a b) v Reg.POWER.TEMP_RANGE.MIN))).wr
    Reg.POWER.TEMP_RANGE.MAX (encode10 (s.tempExtreme (fun a b => max a b) v Reg.POWER.TEMP_RANGE.MAX))

theorem State.takeTemp_ranged (s : State) (v : Nat) :
    let y := if (s.tempNext v).alarm && !s.temp.alarm then (s.tempRanged v).raise Evt.POWER.TEMP_ALARM else s.tempRanged v
    s.takeTemp v = (if (s.tempNext v).alarm then y.relatchAlarm else y).tempFlags := rfl

/-- What a conversion wrote to a register of the sensor stands to the end of the step. -/
theorem tempConversion_rd (s : State) (v : Nat) {f : Field} (hp : OnPower f.key) (he : f.offEnd = true) :
    (s.takeTemp v).flashSettle.settle.rd f = (s.tempRanged v).rd f := by
  have hstands := hp.settle (hp.flashSettle (Stands.refl f.key (s.takeTemp v)))
  rw [hstands.rd, s.takeTemp_ranged v]
  unfold State.rd
  rw [(State.tempFlags_relatchAlarm_moved _ _).regs_eq rfl]
  split
  · exact State.rd_raise _ _ _ he
  · rfl

theorem encode10_lt (x : Int) : encode10 x < 2 ^ 10 := by
  unfold encode10
  omega

theorem signed10_range (v : Nat) : -512 ≤ signed10 v ∧ signed10 v < 512 := by
  unfold signed10
  split <;> omega

theorem clampTemp_range (x : Int) : -120 ≤ clampTemp x ∧ clampTemp x ≤ 270 := by
  unfold clampTemp
  omega

/-- The extreme that a conversion leaves lies between its reading and the extreme before, so ten bits hold it. -/
theorem State.tempExtreme_encode (s : State) {pick : Int → Int → Int} (hpick : ∀ a b, pick a b = a ∨ pick a b = b) (v : Nat) (f : Field) :
    signed10 (encode10 (s.tempExtreme pick v f)) = s.tempExtreme pick v f := by
  have hnow := clampTemp_range (signed10 v)
  have hold := signed10_range (s.rd f)
  have hrange : -512 ≤ s.tempExtreme pick v f ∧ s.tempExtreme pick v f < 512 := by
    unfold State.tempExtreme
    split
    · omega
    · rcases hpick (clampTemp (signed10 v)) (signed10 (s.rd f)) with h | h <;> omega
  exact signed10_encode10 hrange.1 hrange.2

theorem State.tempRanged_min (s : State) (v : Nat) : signed10 ((s.tempRanged v).rd Reg.POWER.TEMP_RANGE.MIN) =
    s.tempExtreme (fun a b => min a b) v Reg.POWER.TEMP_RANGE.MIN := by
  rw [State.tempRanged, State.rd_wr_other _ _ rfl,
    State.rd_wr_of_lt (f := Reg.POWER.TEMP_RANGE.MIN) (w := 10) _ rfl (encode10_lt _)]
  exact s.tempExtreme_encode (fun a b => by omega) v _

theorem State.tempRanged_max (s : State) (v : Nat) : signed10 ((s.tempRanged v).rd Reg.POWER.TEMP_RANGE.MAX) =
    s.tempExtreme (fun a b => max a b) v Reg.POWER.TEMP_RANGE.MAX := by
  rw [State.tempRanged, State.rd_wr_of_lt (f := Reg.POWER.TEMP_RANGE.MAX) (w := 10) _ rfl (encode10_lt _)]
  exact s.tempExtreme_encode (fun a b => by omega) v _

/-- Settles O28: a conversion leaves `State.tempNext` in the sensor and `State.tempExtreme` in MIN and MAX, which nothing of the rest
of the step writes. -/
theorem temperatureRows : Obligations.TemperatureRows := by
  refine ⟨fun s v hc => ?_, fun s hc => ⟨_, moves_done (if_pos hc)⟩, fun s hc => ⟨_, moves_done (if_pos hc)⟩⟩
  have htemp : (s.takeTemp v).flashSettle.settle.temp = s.tempNext v := (State.flashSettle_settle_temp _).trans (s.takeTemp_temp v)
  refine ⟨_, (tempConversion_moves hc v).1, ?_, ?_, ?_, ?_, ?_⟩
  · rw [htemp]; rfl
  · rw [htemp]; rfl
  · rw [htemp]
    exact signed10_encode10_clampTemp _
  · rw [tempConversion_rd s v ⟨rfl, by decide⟩ rfl]
    exact s.tempRanged_min v
  · rw [tempConversion_rd s v ⟨rfl, by decide⟩ rfl]
    exact s.tempRanged_max v

end Sys2Proof.Machine
end

section
/-!
The Crust's cells bit by bit, and starts from the power-on detector (R139, R318–R320, R412, R418–R420).
-/
namespace Sys2Proof.Machine
open Sys2Proof.Safety

/-! Bits of words. -/

theorem testBit_clearBits (x m i : Nat) : (clearBits x m).testBit i = (x.testBit i && !m.testBit i) := by
  unfold clearBits
  rw [Nat.testBit_xor, Nat.testBit_and]
  cases x.testBit i <;> cases m.testBit i <;> rfl

theorem bitAt_clearBits (x m i : Nat) : bitAt (clearBits x m) i = (bitAt x i && !bitAt m i) := by
  simp only [bitAt_eq_testBit, testBit_clearBits]

theorem bitAt_or (x y i : Nat) : bitAt (x ||| y) i = (bitAt x i || bitAt y i) := by
  simp only [bitAt_eq_testBit, Nat.testBit_or]

theorem bitAt_two_pow (b i : Nat) : bitAt (2 ^ b) i = decide (b = i) := by
  rw [bitAt_eq_testBit, Nat.testBit_two_pow]

/-- The bits that a cell holds of a word. -/
theorem bitAt_mod (x : Nat) {i : Nat} (h : i < 16) : bitAt (x % 65536) i = bitAt x i := by
  rw [bitAt_eq_testBit, bitAt_eq_testBit, show (65536 : Nat) = 2 ^ 16 from rfl, Nat.testBit_mod_two_pow, decide_eq_true h, Bool.true_and]

/-! Cells. -/

section
variable {s : State} (hv : s.power.vbak = true)
include hv

theorem State.cellBit_self (n : Nat) {b i : Nat} (v : Bool) (hi : i < 16) :
    bitAt ((s.cellBit n b v).cell n) i = if b = i then v else bitAt (s.cell n) i := by
  rw [State.cellBit, State.cell_setCell _ _ _ _ hv, if_pos rfl, bitAt_mod _ hi]
  cases v
  · rw [if_neg Bool.false_ne_true, bitAt_clearBits, bitAt_two_pow]
    split <;> simp [*]
  · rw [if_pos rfl, bitAt_or, bitAt_two_pow]
    split <;> simp [*]

theorem State.cell_cellBit_ne {n m : Nat} (b : Nat) (v : Bool) (h : m ≠ n) : (s.cellBit n b v).cell m = s.cell m := by
  rw [State.cellBit, State.cell_setCell _ _ _ _ hv, if_neg h]

end

/-- Without VBAK no cell changes. -/
theorem State.setCell_of_absent {s : State} (hv : s.power.vbak = false) (n v : Nat) : s.setCell n v = s :=
  if_neg (by rw [hv]; decide)

theorem State.cell_setCell_ne (s : State) {n m : Nat} (v : Nat) (h : m ≠ n) : (s.setCell n v).cell m = s.cell m := by
  cases hv : s.power.vbak with
  | true => rw [State.cell_setCell _ _ _ _ hv, if_neg h]
  | false => rw [State.setCell_of_absent hv]

@[simp] theorem State.cellBit_power (s : State) (n b : Nat) (v : Bool) : (s.cellBit n b v).power = s.power := State.setCell_power ..

@[simp] theorem State.latchWake_power (s : State) (k : Nat) : (s.latchWake k).power = s.power := by
  simp [State.latchWake]

@[simp] theorem State.writeAlert_power (s : State) (k : Nat) : (s.writeAlert k).power = s.power := by
  simp [State.writeAlert]

@[simp] theorem State.raiseCell_power (s : State) (n : Nat) : (s.raiseCell n).power = s.power := State.setCell_power ..

theorem State.raiseCell_cell_ne (s : State) {n m : Nat} (h : m ≠ n) : (s.raiseCell n).cell m = s.cell m := s.cell_setCell_ne _ h

/-- The latch of ALERT stands in cells 0 and 25. -/
theorem State.writeAlert_cell_ne {s : State} (hv : s.power.vbak = true) {m : Nat} (k : Nat) (h0 : m ≠ 0) (h25 : m ≠ 25) :
    (s.writeAlert k).cell m = s.cell m :=
  (State.cell_cellBit_ne (s := s.setCell 25 k) (by simpa using hv) 2 _ h0).trans (s.cell_setCell_ne _ h25)

/-- The bits of cell 0 but that of the latch. -/
theorem State.writeAlert_bit {s : State} (hv : s.power.vbak = true) (k : Nat) {i : Nat} (hi : i < 16) (h2 : i ≠ 2) :
    bitAt ((s.writeAlert k).cell 0) i = bitAt (s.cell 0) i := by
  refine (State.cellBit_self (s := s.setCell 25 k) (by simpa using hv) 0 _ hi).trans ?_
  rw [if_neg (fun e => h2 e.symm), State.cell_setCell_ne _ _ (by decide)]

/-! Wake causes (R418). -/

/-- Cell 24 with a further cause. -/
def wakeWord (v k : Nat) : Nat := (if v % 32 = 0 then clearBits v 0x700 ||| (k <<< 8) else v) ||| 2 ^ k

section
variable {s : State} (hv : s.power.vbak = true) {k : Nat}
include hv

theorem State.latchWake_cause : (s.latchWake k).cell 24 = wakeWord (s.cell 24) k % 65536 := by
  refine (State.cell_cellBit_ne (by simpa using hv) 1 true (by decide)).trans ?_
  rw [State.cell_setCell _ _ _ _ hv, if_pos rfl]
  rfl

theorem State.latchWake_cell_ne {m : Nat} (h0 : m ≠ 0) (h24 : m ≠ 24) : (s.latchWake k).cell m = s.cell m :=
  (State.cell_cellBit_ne (by simpa using hv) 1 true h0).trans (s.cell_setCell_ne _ h24)

theorem State.latchWake_bit {i : Nat} (hi : i < 16) :
    bitAt ((s.latchWake k).cell 0) i = if 1 = i then true else bitAt (s.cell 0) i := by
  refine (State.cellBit_self (by simpa using hv) 0 true hi).trans ?_
  rw [State.cell_setCell_ne _ _ (by decide)]

theorem State.latchWake_pending : (s.latchWake k).wakePending = true := State.latchWake_bit hv (by decide)

end

theorem bitAt_of_mod_eq_zero {v i : Nat} (h : v % 32 = 0) (hi : i < 5) : bitAt v i = false := by
  have hb : bitAt (v % 2 ^ 5) i = bitAt v i := by
    rw [bitAt_eq_testBit, bitAt_eq_testBit, Nat.testBit_mod_two_pow, decide_eq_true hi, Bool.true_and]
  rw [← hb, show v % 2 ^ 5 = 0 from h]
  simp [bitAt]

/-- The causes of a word with a further cause: those before it and that one. -/
theorem wakeWord_bit (v : Nat) {k i : Nat} (hi : i < 5) : bitAt (wakeWord v k) i = (bitAt v i || decide (k = i)) := by
  unfold wakeWord
  rw [bitAt_or, bitAt_two_pow]
  split
  case isTrue h =>
    have hshift : bitAt (k <<< 8) i = false := by
      rw [bitAt_eq_testBit, Nat.testBit_shiftLeft, decide_eq_false (by omega), Bool.false_and]
    rw [bitAt_or, bitAt_clearBits, bitAt_of_mod_eq_zero h hi, hshift]
    rfl
  case isFalse => rfl

theorem testBit_bitsOf (v lo w i : Nat) : (bitsOf v lo w).testBit i = (decide (i < w) && v.testBit (lo + i)) := by
  rw [bitsOf, Nat.testBit_mod_two_pow, Nat.testBit_shiftRight]

/-- The code of the first cause is written with the first cause alone. -/
theorem wakeWord_first (v : Nat) {k : Nat} (hk : k < 5) :
    bitsOf (wakeWord v k % 65536) 8 3 = if v % 32 = 0 then k else bitsOf v 8 3 := by
  have hhigh (i : Nat) (hi : i < 3) : (wakeWord v k % 65536).testBit (8 + i) = if v % 32 = 0 then k.testBit i else v.testBit (8 + i) := by
    have hmask : Nat.testBit 0x700 (8 + i) = true := by
      have : i = 0 ∨ i = 1 ∨ i = 2 := by omega
      rcases this with rfl | rfl | rfl <;> rfl
    rw [show (65536 : Nat) = 2 ^ 16 from rfl, Nat.testBit_mod_two_pow, decide_eq_true (by omega), Bool.true_and, wakeWord, Nat.testBit_or,
      Nat.testBit_two_pow, decide_eq_false (by omega), Bool.or_false]
    split
    · rw [Nat.testBit_or, testBit_clearBits, hmask, Nat.testBit_shiftLeft]
      simp
    · rfl
  refine Nat.eq_of_testBit_eq fun i => ?_
  rw [testBit_bitsOf]
  by_cases hi : i < 3
  · rw [decide_eq_true hi, Bool.true_and, hhigh i hi]
    split
    · rfl
    · rw [testBit_bitsOf, decide_eq_true hi, Bool.true_and]
  · rw [decide_eq_false hi, Bool.false_and]
    split
    · have hlt : k < 2 ^ i := Nat.lt_of_lt_of_le (show k < 2 ^ 3 by omega) (Nat.pow_le_pow_right (by decide) (by omega))
      rw [Nat.testBit_lt_two_pow hlt]
    · rw [testBit_bitsOf, decide_eq_false hi, Bool.false_and]

end Sys2Proof.Machine
end

section
/-!
Starts from the power-on detector, supplies and removal (R301–R324, R412, R443–R446).
-/
namespace Sys2Proof.Machine
open Sys2Proof.Safety

/-! A start from the power-on detector in three steps: the Crust, what loses its supply or is sensed anew, the cause of the reset. -/

/-- The counts of the Crust at a start: pending carries completed, the reset counted where the start is one. -/
def State.crustStarted (s : State) (source : Option Nat) : State :=
  let x := (s.completeCarry resetCells).completeCarry removalCells
  match source with
  | some c => x.countReset c
  | none => x

/-- The card with what a start clears and senses. -/
def State.sensed (s : State) (wake crustRestart : Bool) : State :=
  let s := s.coreOff.dropVolatile
  { s with
    regs := regClear s.regs clearedByPowerOn
    fuses := { s.fuses with mapSensed := s.fuses.map, keysSensed := s.fuses.keys, sealSensed := s.fuses.sealBlown }
    tap := Tap.reset
    power := { s.power with st := .active, armed := false, brownArmed := true, fromWake := wake,
                            crustRestart := crustRestart, vholdOk := false, removal := none, testMode := false } }

/-- The cause of a start that is a reset. -/
def State.causedBy (s : State) (source : Option Nat) : State :=
  match source with
  | some c => s.setCause 3 c
  | none => s

/-- The event of a completed carry and the end of the edge. -/
def State.carryEnd (s : State) (carry : Bool) : State := (if carry then s.raise Evt.RESET.CARRY_COMPLETED else s).endEdge

theorem State.powerOnStart_eq (s : State) (source : Option Nat) (wake crustRestart : Bool) :
    s.powerOnStart source wake crustRestart =
      (((s.crustStarted source).sensed wake crustRestart).causedBy source).carryEnd s.carryPending := by
  cases source <;> rfl

/-- The cause of the reset and the event of a carry move registers and attention alone. -/
theorem State.causedBy_carryEnd_moved (s : State) (source : Option Nat) (carry : Bool) :
    Moved 194 s ((s.causedBy source).carryEnd carry) := by
  have hcause : Moved 194 s (s.causedBy source) := by
    cases source with
    | none => exact Moved.refl 194 s
    | some c => exact State.setCause_moved (by unfold Within; decide) (Moved.refl _ s)
  refine State.endEdge_moved (by unfold Within; decide) ?_
  exact Moved.ite (State.raise_moved (Within.refl 194) hcause) hcause

theorem State.carryEnd_rd (s : State) (carry : Bool) {f : Field} (h : f.offEnd = true) : (s.carryEnd carry).rd f = s.rd f := by
  cases carry with
  | false => rfl
  | true => exact State.rd_raise s Evt.RESET.CARRY_COMPLETED 0 h

theorem State.setCause_level (s : State) {level source : Nat} (hl : level < 4) : (s.setCause level source).rd Reg.RESET.CAUSE.LEVEL = level :=
  (State.rd_wr_other _ _ rfl).trans (State.rd_wr_of_lt (f := Reg.RESET.CAUSE.LEVEL) (w := 2) (v := level) _ rfl hl)

theorem State.setCause_source (s : State) (level source : Nat) : (s.setCause level source).rd Reg.RESET.CAUSE.SOURCE = source % 8 :=
  (State.rd_wr_self _ Reg.RESET.CAUSE.SOURCE source).trans (Nat.and_two_pow_sub_one_eq_mod source 3)

theorem State.cutFuse_busy (s : State) : s.cutFuse.fuses.busy = none := by
  unfold State.cutFuse
  split
  · assumption
  · rfl

/-- The parts that a start takes over from before it. -/
theorem State.dropVolatile_coreOff_moved (s : State) : Moved 6234100 s s.coreOff.dropVolatile :=
  State.dropVolatile_moved (by unfold Within; decide) (State.coreOff_moved (by unfold Within; decide) (Moved.refl _ s))

theorem State.crustStarted_moved {T : Nat} (hT : Within 8192 T) (s : State) (source : Option Nat) : Moved T s (s.crustStarted source) := by
  have hx := State.completeCarry_moved (c := removalCells) hT (State.completeCarry_moved (c := resetCells) hT (Moved.refl T s))
  cases source with
  | none => exact hx
  | some c => exact State.countReset_moved hT hx

section
variable (s : State) (source : Option Nat) (wake crustRestart : Bool)

/-- A part that neither the cause of the reset nor the event of a carry writes is as the start left it. -/
theorem State.powerOnStart_same {p : Part} (h : (194).testBit (partBit p) = false) :
    p.Same ((s.crustStarted source).sensed wake crustRestart) (s.powerOnStart source wake crustRestart) := by
  rw [State.powerOnStart_eq]
  exact (State.causedBy_carryEnd_moved _ _ _).same p h

theorem State.powerOnStart_power : (s.powerOnStart source wake crustRestart).power =
    { s.power with
      st := .active, startup := .held, resetReq := none, drain := 0, recovered := false, armed := false, brownArmed := true,
      fromWake := wake, crustRestart := crustRestart, vholdOk := false, removal := none, testMode := false } := by
  have hcore : (s.crustStarted source).coreOff.power = s.power := ((State.coreOff_moved (T := 5316608) (by unfold Within; decide)
    (s.crustStarted_moved (by unfold Within; decide) source)).same .power rfl :)
  rw [State.powerOnStart_same s source wake crustRestart (p := .power) rfl, ← hcore]
  rfl

theorem State.powerOnStart_crust : (s.powerOnStart source wake crustRestart).crust = (s.crustStarted source).crust :=
  (State.powerOnStart_same s source wake crustRestart (p := .crust) rfl).trans
    ((s.crustStarted source).dropVolatile_coreOff_moved.same .crust rfl)

end

/-! Cells that a start leaves alone. -/

/-- Is a cell none of the counts of the Crust that a start completes? -/
def offCounts (m : Nat) : Bool := m == 0 || decide (15 ≤ m)

theorem State.completeCarry_cell (s : State) {c : Count48} (hc : c = resetCells ∨ c = removalCells) {m : Nat} (hm : offCounts m = true) :
    (s.completeCarry c).cell m = s.cell m := by
  have hne : m ≠ c.low ∧ m ≠ c.mid ∧ m ≠ c.high ∧ m ≠ c.cp := by
    have : m = 0 ∨ 15 ≤ m := by simpa [offCounts] using hm
    rcases hc with rfl | rfl <;> simp only [resetCells, removalCells] <;> omega
  have hwrite (x : State) (p : Prop) [Decidable p] (n v : Nat) (h : m ≠ n) : (if p then x.setCell n v else x).cell m = x.cell m := by
    split
    · exact x.cell_setCell_ne v h
    · rfl
  obtain ⟨hlow, hmid, hhigh, hcp⟩ := hne
  unfold State.completeCarry
  extract_lets cp v1 v2 v3
  split
  · exact (State.cell_setCell_ne _ _ hcp).trans ((hwrite _ _ _ _ hhigh).trans ((hwrite _ _ _ _ hmid).trans (hwrite _ _ _ _ hlow)))
  · rfl

/-- A start that counts no reset leaves the cells of the latches and of the removal record alone. -/
theorem State.powerOnStart_cell (s : State) (wake crustRestart : Bool) {m : Nat} (hm : offCounts m = true) :
    (s.powerOnStart none wake crustRestart).cell m = s.cell m := by
  have hcrust : (s.powerOnStart none wake crustRestart).cell m = (s.crustStarted none).cell m := by
    rw [State.cell, State.powerOnStart_crust]
    rfl
  exact hcrust.trans ((State.completeCarry_cell _ (.inr rfl) hm).trans (State.completeCarry_cell _ (.inl rfl) hm))

/-! Supplies. -/

/-- A report and the end of the step. -/
theorem State.report_ends (s : State) (src : Nat × Nat) : Ends s (s.report src).settle :=
  State.settle_ends (State.report_tail (Tail.refl s)) (State.report_moved (T := endParts) (by unfold Within; decide) (Moved.refl _ s)).agree

/-- The card as VHOLD_OK falls. -/
def State.drooped (s : State) : State := { s with power := { s.power with vholdOk := false } }

theorem State.drooped_only (s : State) : Only [.power] s s.drooped := by
  intro p hp
  cases p <;> simp_all [State.drooped, Part.Same]

theorem execHoldDroop_power (s : State) : ∃ t, exec .holdDroop s = .next t ∧ t.power = { s.power with vholdOk := false } ∧
    (s.clocked = false ∨ s.power.vholdOk = false → Only [.power] s t) := by
  have hexec : exec .holdDroop s = if s.clocked && s.power.vholdOk then (s.drooped.report Src.REMOVAL.HOLD_DROOP).done
      else .next s.drooped := rfl
  by_cases h : (s.clocked && s.power.vholdOk) = true
  · rw [if_pos h] at hexec
    refine ⟨_, hexec, power_of_ends (s.drooped.report_ends _), fun hno => absurd h ?_⟩
    rcases hno with hk | hk <;> simp [hk]
  · rw [if_neg h] at hexec
    exact ⟨_, hexec, rfl, fun _ => s.drooped_only⟩

theorem execVccLoss_off {s : State} (h : s.power.st ≠ .off) : ∃ t, exec .vccLoss s = .next t ∧ t.power.st = .off ∧ t.power.vholdOk = false ∧
    t.power.armed = false ∧ t.power.removal = none ∧ t.fuses.busy = none ∧ t.charges = false ∧ t.alertShown = none ∧
    Only [.power, .fuses, .draws] s t := by
  have hexec : exec .vccLoss s = .next { s.cutFuse with
      power := { s.cutFuse.power with st := .off, armed := false, brownArmed := false, vholdOk := false, removal := none } } :=
    if_neg (by simpa using h)
  have hmoved := State.cutFuse_moved (T := partsOf [.power, .fuses, .draws]) (by unfold Within; decide) (Moved.refl _ s)
  exact ⟨_, hexec, rfl, rfl, rfl, rfl, s.cutFuse_busy, rfl, rfl,
    (Moved.set_power (by unfold Within; decide) hmoved).agree.only fun _ => partsOf_testBit_of_not_mem⟩

theorem State.writeAlert_wakePending {s : State} (hv : s.power.vbak = true) (k : Nat) : (s.writeAlert k).wakePending = s.wakePending :=
  State.writeAlert_bit hv k (by decide) (by decide)

/-- The Crust as VBAK comes back: CRUST_LOST set, CRUST_RESTART latched, every other cell cleared (R319). -/
def State.crustReturned (s : State) : State :=
  ({ s with power := { s.power with vbak := true }, crust := [(16, 0x8000)] } : State).latchWake 4

theorem State.crustReturned_cells (s : State) : s.crustReturned.power = { s.power with vbak := true } ∧ s.crustReturned.cell 16 = 2 ^ 15 ∧
    bitAt (s.crustReturned.cell 24) 4 = true ∧ s.crustReturned.wakePending = true := by
  refine ⟨State.latchWake_power _ _, State.latchWake_cell_ne rfl (by decide) (by decide), ?_, State.latchWake_pending rfl⟩
  rw [State.crustReturned, State.latchWake_cause rfl, bitAt_mod _ (by decide), wakeWord_bit _ (by decide)]
  exact Bool.or_true _

theorem execCrustPowerOn_returns {s : State} (h : s.power.vbak = false) : ∃ t, exec .crustPowerOn s = .next t ∧ t.power.vbak = true ∧
    t.cell 16 = 2 ^ 15 ∧ bitAt (t.cell 24) 4 = true ∧ t.wakePending = true ∧
    (s.power.st = .sleep → t.power.st = .active ∧ t.power.startup = .held ∧ t.power.crustRestart = true) := by
  obtain ⟨hpower, h16, h24, hpend⟩ := s.crustReturned_cells
  have hv : s.crustReturned.power.vbak = true := by rw [hpower]
  have hst : s.crustReturned.power.st = s.power.st := by rw [hpower]
  have hexec : exec .crustPowerOn s = if s.crustReturned.power.st == .sleep then
      .next ((s.crustReturned.writeAlert 4).powerOnStart none true true)
    else .next (if s.crustReturned.clocked then s.crustReturned.writeAlert s.crustReturned.alertAsserting else s.crustReturned) :=
    if_neg (by rw [h]; decide)
  by_cases hs : s.power.st = .sleep
  · rw [if_pos (by rw [hst, hs]; rfl)] at hexec
    have hp := State.powerOnStart_power (s.crustReturned.writeAlert 4) none true true
    refine ⟨_, hexec, ?_, ?_, ?_, ?_, fun _ => ?_⟩
    · rw [hp, State.writeAlert_power]
      exact hv
    · rw [State.powerOnStart_cell _ _ _ rfl, State.writeAlert_cell_ne hv 4 (by decide) (by decide), h16]
    · rw [State.powerOnStart_cell _ _ _ rfl, State.writeAlert_cell_ne hv 4 (by decide) (by decide), h24]
    · rw [State.wakePending, State.powerOnStart_cell _ _ _ rfl]
      exact (State.writeAlert_wakePending hv 4).trans hpend
    · rw [hp]
      exact ⟨rfl, rfl, rfl⟩
  · rw [if_neg (by rw [hst]; simpa using hs)] at hexec
    refine ⟨_, hexec, ?_, ?_, ?_, ?_, fun hs' => absurd hs' hs⟩
    · split
      · rw [State.writeAlert_power, hv]
      · exact hv
    · split
      · rw [State.writeAlert_cell_ne hv _ (by decide) (by decide), h16]
      · exact h16
    · split
      · rw [State.writeAlert_cell_ne hv _ (by decide) (by decide), h24]
      · exact h24
    · split
      · rw [State.writeAlert_wakePending hv, hpend]
      · exact hpend

/-- A cell that the end of a step does not write. -/
theorem State.settle_cell (s : State) {m : Nat} (h0 : m ≠ 0) (h24 : m ≠ 24) (h25 : m ≠ 25) : s.settle.cell m = s.cell m :=
  (State.settle_ends_self s).cells m h0 h24 h25

/-- Settles O27: the power state and the cells after each supply row. -/
theorem supplyRows : Obligations.SupplyRows := by
  refine ⟨execHoldDroop_power, fun s h => if_pos (by simp [h]), fun s h => execVccLoss_off h,
    fun s => ⟨_, rfl, rfl, fun h => ?_, fun h => ?_⟩, fun s => by simp [State.charges], fun s h => execCrustPowerOn_returns h,
    fun s hk hv => ⟨_, if_pos hk, ?_, fun j hj => ?_⟩⟩
  · simp [State.alertShown, h]
  · simp [State.alertShown, h]
  · rw [State.settle_cell _ (by decide) (by decide) (by decide), State.cellBit_self hv 16 false (by decide), if_pos rfl]
  · rw [State.settle_cell _ (by decide) (by decide) (by decide), State.cellBit_self hv 16 false (by omega), if_neg (by omega)]

end Sys2Proof.Machine
end

section
/-!
Removal (R301–R309, R324, R440) and start-up (R320, R335, R353, R361, R364, R477).
-/
namespace Sys2Proof.Machine
open Sys2Proof.Safety

theorem State.setCell_vbak (s : State) (n v : Nat) : (s.setCell n v).power.vbak = s.power.vbak := by rw [State.setCell_power]

/-! A start from the power-on detector, on the parts that it clears. -/

section
variable (s : State) (source : Option Nat) (wake crustRestart : Bool)

theorem State.powerOnStart_cmds : (s.powerOnStart source wake crustRestart).cmds = [] :=
  State.powerOnStart_same s source wake crustRestart (p := .cmds) rfl

theorem State.powerOnStart_link : (s.powerOnStart source wake crustRestart).link = Link.reset :=
  State.powerOnStart_same s source wake crustRestart (p := .link) rfl

theorem State.powerOnStart_fuses : (s.powerOnStart source wake crustRestart).fuses =
    ((s.crustStarted source).sensed wake crustRestart).fuses :=
  State.powerOnStart_same s source wake crustRestart (p := .fuses) rfl

end

theorem State.powerOnStart_level (s : State) (c : Nat) (wake crustRestart : Bool) :
    (s.powerOnStart (some c) wake crustRestart).rd Reg.RESET.CAUSE.LEVEL = 3 := by
  rw [State.powerOnStart_eq, State.carryEnd_rd _ _ rfl]
  exact State.setCause_level _ (by decide)

theorem State.powerOnStart_source (s : State) (c : Nat) (wake crustRestart : Bool) :
    (s.powerOnStart (some c) wake crustRestart).rd Reg.RESET.CAUSE.SOURCE = c % 8 := by
  rw [State.powerOnStart_eq, State.carryEnd_rd _ _ rfl]
  exact State.setCause_source _ _ _

/-! Removal. -/

/-- What step 0 records of a removal (R302–R305). -/
def State.removalOf (s : State) (det brown : Bool) : Removal :=
  { detN := det, brownOut := brown, channels := sumBy (fun n => if s.opRunning n then 2 ^ n else 0) (rangeFrom 0 16),
    writes := s.cmds.any (fun c => c.opcode == opWrite), programs := s.programRunning }

/-- The card frozen by a removal. -/
def State.frozen (s : State) (r : Removal) : State :=
  let s := s.cellBit 16 8 true
  { s with power := { s.power with st := .removing, removal := some r } }

theorem State.frozen_only (s : State) (r : Removal) : Only [.power, .crust] s (s.frozen r) :=
  (Moved.set_power (by unfold Within; decide)
    (State.cellBit_moved (T := partsOf [.power, .crust]) (by unfold Within; decide) (Moved.refl _ s))).agree.only fun _ =>
      partsOf_testBit_of_not_mem

theorem holdswActiveLow_of_fuses {s t : State} (h : t.fuses = s.fuses) : t.holdswActiveLow = s.holdswActiveLow := by
  unfold State.holdswActiveLow State.resetState State.fuseCode
  rw [h]

theorem removalTrigger_freezes {s : State} {d b : Bool} (hst : s.power.st = .active)
    (harm : ((d && s.power.armed) || (b && s.power.brownArmed)) = true) :
    exec (.removalTrigger d b) s = .next (s.frozen (s.removalOf (d && s.power.armed) (b && s.power.brownArmed))) :=
  if_pos (by rw [hst, harm]; rfl)

theorem State.frozen_holdsw (s : State) (r : Removal) : (s.frozen r).holdsw = if s.holdswActiveLow then .low else .high := by
  have hlow : (s.frozen r).holdswActiveLow = s.holdswActiveLow := holdswActiveLow_of_fuses (State.setCell_fuses ..)
  change (if !(s.frozen r).holdswActiveLow then _ else _) = _
  rw [hlow]
  cases s.holdswActiveLow <;> rfl

/-! The record of a removal. -/

theorem State.increment48_moved_self (s : State) (c : Count48) : Moved 8192 s (s.increment48 c) :=
  State.increment48_moved (Within.refl 8192) (Moved.refl _ s)

theorem bit01_le (b : Bool) : bit01 b ≤ 1 := by cases b <;> decide

theorem phaseCode_lt (r : Removal) (rb : Bool) : phaseCode r rb < 65536 := by
  have hd := bit01_le r.detN
  have hb := bit01_le r.brownOut
  have ht := bit01_le rb
  have hw := bit01_le r.writes
  have hp := bit01_le r.programs
  unfold phaseCode
  omega

/-- The cells of the count are those that the increment left. -/
theorem State.recordRemoval_count (s : State) (r : Removal) (rb : Bool) :
    (s.recordRemoval r rb).count48 removalCells = (s.increment48 removalCells).count48 removalCells := by
  have hcell {m : Nat} (h15 : m ≠ 15) (h16 : m ≠ 16) (h17 : m ≠ 17) (h18 : m ≠ 18) :
      (s.recordRemoval r rb).cell m = (s.increment48 removalCells).cell m :=
    (State.cell_setCell_ne _ _ h16).trans ((State.cell_setCell_ne _ _ h18).trans ((State.cell_setCell_ne _ _ h17).trans
      (State.cell_setCell_ne _ _ h15)))
  unfold State.count48
  rw [hcell (m := removalCells.low) (by decide) (by decide) (by decide) (by decide),
    hcell (m := removalCells.mid) (by decide) (by decide) (by decide) (by decide),
    hcell (m := removalCells.high) (by decide) (by decide) (by decide) (by decide)]

section
variable {s : State} (hv : s.power.vbak = true) (r : Removal) (rb : Bool)
include hv

theorem State.increment48_vbak (c : Count48) : (s.increment48 c).power.vbak = true := by
  rw [((s.increment48_moved_self c).same .power rfl :), hv]

theorem State.recordRemoval_phase : (s.recordRemoval r rb).cell 17 = phaseCode r rb := by
  refine (State.cell_setCell_ne _ _ (by decide)).trans ((State.cell_setCell_ne _ _ (by decide)).trans ?_)
  rw [State.cell_setCell _ _ _ _ (by rw [State.setCell_vbak]; exact State.increment48_vbak hv _), if_pos rfl,
    Nat.mod_eq_of_lt (phaseCode_lt r rb)]

theorem State.recordRemoval_channels : (s.recordRemoval r rb).cell 18 = r.channels % 65536 := by
  refine (State.cell_setCell_ne _ _ (by decide)).trans ?_
  rw [State.cell_setCell _ _ _ _ (by simpa using State.increment48_vbak hv _), if_pos rfl]

theorem State.recordRemoval_done : bitAt ((s.recordRemoval r rb).cell 16) 9 = true := by
  unfold State.recordRemoval
  extract_lets x c y z d
  have hz : z.power.vbak = true := by simpa [z, y, x] using State.increment48_vbak hv _
  have hd : bitAt d 9 = true := by
    rw [bitAt_or]
    exact Bool.or_true _
  rw [State.cell_setCell _ _ _ _ hz, if_pos rfl, bitAt_mod _ (by decide)]
  split
  · rw [bitAt_or, bitAt_clearBits, hd]
    rfl
  · exact hd

end

/-- Settles O26: the frozen card, the record of step 6 and the start after a removal. -/
theorem removalRows : Obligations.RemovalRows := by
  refine ⟨fun s d b hst harm => ?_, fun s d b harm => ?_, fun s r rb hwf hst hr => ?_, fun s hst => ?_⟩
  · refine ⟨_, _, removalTrigger_freezes hst harm, rfl, rfl, rfl, rfl, rfl, rfl, s.frozen_holdsw _, rfl, fun hv => ?_, s.frozen_only _⟩
    exact (State.cellBit_self hv 16 true (by decide)).trans (if_pos rfl)
  · exact if_neg (by rw [harm]; simp)
  · have hexec : exec (.removalRbWaitEnd rb) s = .next { s.recordRemoval r (!rb) with
        power := { (s.recordRemoval r (!rb)).power with st := .removed, removal := none } } := by
      change execRemovalRbWaitEnd rb s = _
      simp only [execRemovalRbWaitEnd, hst, hr]
    refine ⟨_, hexec, rfl, ?_, ?_, fun hv hcp => ⟨?_, State.recordRemoval_phase hv r _, State.recordRemoval_channels hv r _,
      State.recordRemoval_done hv r _⟩⟩
    · exact (Moved.set_power (by unfold Within; decide) (State.recordRemoval_moved (T := partsOf [.power, .crust])
        (by unfold Within; decide) (Moved.refl _ s))).agree.only fun _ => partsOf_testBit_of_not_mem
    · have hlow := holdswActiveLow_of_fuses ((State.recordRemoval_moved (Within.refl 8192) (r := r) (rbTimeout := !rb) (Moved.refl _ s)).same .fuses rfl)
      change (if (s.recordRemoval r (!rb)).holdswActiveLow then BallLevel.high else .low) = _
      rw [hlow]
    · refine (s.recordRemoval_count r (!rb)).trans ?_
      exact (countsRiseByOne s removalCells (.inr rfl) hwf hv hcp).1
  · refine ⟨_, if_pos (by rw [hst]; rfl), ?_, ?_, State.powerOnStart_cmds .., State.powerOnStart_level .., State.powerOnStart_source ..⟩
    all_goals rw [State.powerOnStart_power]

end Sys2Proof.Machine
end

section
/-!
Start-up: the release of the reset, the option loader, the image that starts and readiness (R320, R335, R353, R361, R364, R396, R477).
-/
namespace Sys2Proof.Machine
open Sys2Proof.Safety

/-! What starts leaves the stage of start-up alone; it asks for a reset at most. -/

theorem Moved.startup {T : Nat} {b t : State} (h : Moved T b t) (hT : T.testBit 12 = false) : t.power.startup = b.power.startup :=
  congrArg Power.startup (h.same .power hT)

theorem State.startMain_startup (s : State) (slot : Nat) (probation fallback fromCell : Bool) (unreadable : List Nat) :
    (s.startMain slot probation fallback fromCell unreadable).power.startup = s.power.startup := by
  unfold State.startMain
  extract_lets v0 sl mcSlot r v4 mc mcImage mcIf safeIf run started v11 kept reason v14 v15 v16 v17
  have hv4 : Moved 404478 s v4 := State.loadMc_moved (by unfold Within; decide)
    (State.formatFlash_moved (by unfold Within; decide) (Moved.refl _ s))
  have hstarted : ∀ x, Moved 404478 s x → Moved 404478 s (started x) := by
    intro x hx
    have himage := State.imageRegs_moved (T := 404478) (mainVer := sl.version) (expectIf := sl.mcIf)
      (mcVer := if safeIf then 0 else mcImage.version) (mcIf := if safeIf then 0 else mcIf) (by unfold Within; decide)
      (Moved.set_fw (v := { x.fw with run := some run }) (by unfold Within; decide) hx)
    exact Moved.ite (State.raise_moved (by unfold Within; decide) himage) himage
  have hreject : Moved 404478 s v14 := State.rejectSlot_moved (by unfold Within; decide) hv4
  have hproved (x : State) (hx : Moved 404478 s x) :
      (((started x).markProbation slot mc).raise Evt.FIRMWARE.PROBATION_STARTED).power.startup = s.power.startup :=
    (State.raise_moved (by unfold Within; decide) (State.markProbation_moved (by unfold Within; decide) (hstarted x hx))).startup rfl
  split
  · exact (State.enterMinimal_moved (by unfold Within; decide) (State.rejectSlot_moved (by unfold Within; decide) hv4)).startup rfl
  · split
    · exact (hstarted _ (Moved.set_fw (by unfold Within; decide) hv4)).startup rfl
    · split
      · exact hproved _ hv4
      · split
        · exact hreject.startup rfl
        · exact hproved _ (Moved.set_fw (by unfold Within; decide) hv4)

theorem State.tryCandidates_startup (unreadable : List Nat) (n : Nat) (l : List (Nat × Bool × Bool)) (s : State) :
    (State.tryCandidates unreadable n l s).power.startup = s.power.startup := by
  induction l generalizing n s with
  | nil => rfl
  | cons e l ih =>
    obtain ⟨slot, prob, fromCell⟩ := e
    rw [State.tryCandidates]
    split
    · exact ih _ _
    · extract_lets reason x
      split
      · refine (State.startMain_startup ..).trans ?_
        dsimp only [x]
        split
        · rfl
        · rw [State.setCell_power]
      · exact (ih _ _).trans ((State.rejectSlot_moved (Within.refl 139458) (Moved.refl _ s)).startup rfl)

theorem State.bootSelect_startup (s : State) (cold : Bool) (unreadable : List Nat) :
    (s.bootSelect cold unreadable).power.startup = s.power.startup := by
  unfold State.bootSelect
  refine (State.tryCandidates_startup ..).trans ?_
  split
  · rw [State.setCell_power, State.setCell_power]
    rfl
  · rfl

theorem State.identify_startup (s : State) (env : RecoveryIn) : (s.identify env).power.startup = s.power.startup :=
  (State.identify_moved (Within.refl 264702) (Moved.refl _ s)).startup rfl

/-! The option loader. -/

/-- The copy that the option loader takes: the valid one of higher sequence, or the defaults. -/
def OptionStore.chosen (o : OptionStore) : Store :=
  if copyValid o.copyA then (if copyValid o.copyB ∧ copySeq o.copyA < copySeq o.copyB then o.copyB else o.copyA)
  else if copyValid o.copyB then o.copyB else optDefaults

/-- The options of `m` in force: the copy and the Administrator that it names. -/
def Serves (m : Store) (t : State) : Prop := t.opt.inForce = m ∧ t.admin = storeRead m 10 % 256

theorem State.applyOptions_serves (s : State) (m : Store) (copy : Nat) (defaults otherValid : Bool) :
    Serves m (s.applyOptions m copy defaults otherValid) := by
  refine ⟨rfl, ?_⟩
  have hself := State.rd_wr_self (((({ s with opt := { s.opt with inForce := m } } : State).wr Reg.OPTION.IN_FORCE.COPY copy).wr
    Reg.OPTION.IN_FORCE.DEFAULTS (bit01 defaults))) Reg.OPTION.IN_FORCE.ADMIN_ORIG (storeRead m 10)
  refine Eq.trans ?_ (hself.trans (Nat.and_two_pow_sub_one_eq_mod _ 8))
  refine (State.rd_wr_other _ _ rfl).trans ((State.rd_wr_other _ _ rfl).trans ((State.rd_wr_other _ _ rfl).trans (State.rd_wr_other _ _ rfl)))

theorem Tail.rd {b t : State} (h : Tail b t) {f : Field} (hf : f.offEnd = true) : t.rd f = b.rd f := by
  unfold State.rd regRead
  rw [h.regs _ (Field.endKey_of_offEnd hf)]

theorem Serves.report {m : Store} {s : State} (h : Serves m s) (src : Nat × Nat) : Serves m (s.report src) := by
  obtain ⟨hin, hadmin⟩ := h
  have hopt : (s.report src).opt = s.opt := (State.report_moved (Within.refl 262654) (Moved.refl _ s)).same .opt rfl
  have hrd : (s.report src).admin = s.admin := (State.report_tail (Tail.refl s)).rd rfl
  exact ⟨hopt ▸ hin, hrd.trans hadmin⟩

theorem State.optionLoader_serves (s : State) : Serves s.opt.chosen s.optionLoader := by
  have hloads : s.optionLoader = match copyValid s.opt.copyA, copyValid s.opt.copyB with
      | true, true => if copySeq s.opt.copyB > copySeq s.opt.copyA then s.applyOptions s.opt.copyB 1 false true
        else s.applyOptions s.opt.copyA 0 false true
      | true, false => (s.applyOptions s.opt.copyA 0 false false).report Src.OPTION.COPY_BAD
      | false, true => (s.applyOptions s.opt.copyB 1 false false).report Src.OPTION.COPY_BAD
      | false, false => (s.applyOptions optDefaults 0 true false).report Src.OPTION.STORE_LOST := rfl
  rw [hloads, OptionStore.chosen]
  cases copyValid s.opt.copyA <;> cases copyValid s.opt.copyB
  case false.false => exact (State.applyOptions_serves ..).report _
  case false.true => exact (State.applyOptions_serves ..).report _
  case true.false => exact (State.applyOptions_serves ..).report _
  case true.true =>
    by_cases hseq : copySeq s.opt.copyA < copySeq s.opt.copyB
    · simp only [gt_iff_lt, hseq, and_self, if_true]
      exact State.applyOptions_serves ..
    · simp only [gt_iff_lt, hseq, and_false, if_true, if_false]
      exact State.applyOptions_serves ..

/-! The release of the reset. -/

/-- The card as its HCLK domain releases: TEST_EN sampled, a reserved Fuse map code reported. -/
def State.unheld (s : State) (testEn : Bool) : State :=
  let s := { s with power := { s.power with startup := .loaded, testEn := testEn, testMode := testEn && !s.fuses.sealSensed } }
  if s.fuses.mapSensed.any (fun e => !fusePermitted e.1 e.2) then s.report Src.OPTION.FUSE_CODE else s

theorem State.release_eq (s : State) (testEn : Bool) : s.release testEn =
    (s.unheld testEn).optionLoader.writeAlert (s.unheld testEn).optionLoader.alertAsserting := rfl

theorem State.unheld_moved (s : State) (testEn : Bool) : Moved 262654
    { s with power := { s.power with startup := .loaded, testEn := testEn, testMode := testEn && !s.fuses.sealSensed } }
    (s.unheld testEn) :=
  Moved.ite (State.report_moved (Within.refl 262654) (Moved.refl _ _)) (Moved.refl _ _)

theorem State.release_power (s : State) (testEn : Bool) : (s.release testEn).power =
    { s.power with startup := .loaded, testEn := testEn, testMode := testEn && !s.fuses.sealSensed } := by
  rw [State.release_eq, State.writeAlert_power,
    ((State.optionLoader_moved (Within.refl 330238) (Moved.refl _ (s.unheld testEn))).same .power rfl :)]
  exact (s.unheld_moved testEn).same .power rfl

theorem State.release_serves (s : State) (testEn : Bool) : Serves s.opt.chosen (s.release testEn) := by
  have hopt : (s.unheld testEn).opt = s.opt := (s.unheld_moved testEn).same .opt rfl
  have hserves := (s.unheld testEn).optionLoader_serves
  rw [hopt] at hserves
  obtain ⟨hin, hadmin⟩ := hserves
  have hmoved := State.writeAlert_moved (causes := (s.unheld testEn).optionLoader.alertAsserting) (Within.refl 270336)
    (Moved.refl _ (s.unheld testEn).optionLoader)
  refine ⟨?_, ?_⟩
  · rw [State.release_eq, (hmoved.same .opt rfl :)]
    exact hin
  · rw [← hadmin, State.release_eq]
    unfold State.admin State.rd
    rw [(hmoved.same .regs rfl :)]

/-! Readiness. -/

theorem State.presentReady_power (s : State) : s.presentReady.power = s.power :=
  (State.presentReady_moved (Within.refl 4) (Moved.refl _ s)).same .power rfl

theorem State.presentReady_phase {s : State} (h : s.power.armed = true) : s.presentReady.link.phase =
    if s.power.startup = .ready ∧ s.link.phase = .idNotReady then .idReady else s.link.phase := by
  unfold State.presentReady
  by_cases hr : s.power.startup = .ready ∧ s.link.phase = .idNotReady
  · rw [if_pos hr, if_pos (by simp [h, hr])]
  · rw [if_neg hr, if_neg (by simpa [h] using hr)]

theorem State.coreOff_fuses (s : State) : s.coreOff.fuses = s.cutFuse.fuses := rfl

theorem State.dropVolatile_fuses (s : State) : s.dropVolatile.fuses = s.fuses :=
  (State.dropVolatile_moved (Within.refl 925684) (Moved.refl _ s)).same .fuses rfl

/-- The fuses are sensed as they stand, with no pulses under way. -/
theorem State.sensed_fuses (s : State) (wake crustRestart : Bool) : let f := (s.sensed wake crustRestart).fuses
    f.mapSensed = f.map ∧ f.keysSensed = f.keys ∧ f.sealSensed = f.sealBlown ∧ f.busy = none :=
  ⟨rfl, rfl, rfl, by
    change s.coreOff.dropVolatile.fuses.busy = none
    rw [State.dropVolatile_fuses, State.coreOff_fuses, State.cutFuse_busy]⟩

/-- Settles O24: power-on, the release with the option loader, recovery over the image that starts, and the arming of the trigger. -/
theorem startUp : Obligations.StartUp := by
  refine ⟨fun s hst => ?_, fun s e hst hheld => ?_, fun s env hst hload hreq => ?_, fun s hk => ?_⟩
  · obtain ⟨hmap, hkeys, hseal, hbusy⟩ := (s.crustStarted (some 0)).sensed_fuses false false
    refine ⟨_, if_pos (by rw [hst]; rfl), ?_, ?_, ?_, State.powerOnStart_cmds .., State.powerOnStart_link ..,
      State.powerOnStart_level .., State.powerOnStart_source .., ?_, ?_, ?_, ?_⟩
    iterate 3 rw [State.powerOnStart_power]
    all_goals rw [State.powerOnStart_fuses]
    · exact hmap
    · exact hkeys
    · exact hseal
    · exact hbusy
  · obtain ⟨hin, hadmin⟩ := s.release_serves e
    refine ⟨_, if_pos (by rw [hst, hheld]; rfl), ?_, ?_, ?_, hin, ?_⟩
    · rw [State.release_power]
    · rw [State.release_power]
    · rw [State.ftm, State.release_power]
    · rw [hadmin, hin]
  · intro b
    have hstart : b.power.startup = .loaded := ((State.bootSelect_startup ..).trans (s.identify_startup env)).trans hload
    have hexec : exec (.powerUpRecovery env) s = if b.power.resetReq.isSome then b.done
        else if !b.minimal && !b.power.vholdOk then .next s
        else ({ b.recover env with power := { (b.recover env).power with startup := .ready } } : State).presentReady.done :=
      if_pos (by rw [hst, hload, hreq]; rfl)
    refine ⟨fun hr => ?_, fun hr hgo => ?_, fun hr hm hv => ?_⟩
    · rw [if_pos (by simpa [Option.isSome_iff_ne_none] using hr)] at hexec
      exact ⟨_, moves_done hexec, (congrArg Power.startup (power_of_ends b.settle_ends_self)).trans hstart⟩
    · rw [if_neg (by simp [hr]), if_neg (by rcases hgo with h | h <;> simp [h])] at hexec
      refine ⟨_, hexec, ?_⟩
      rw [power_of_ends (State.settle_ends_self _), State.presentReady_power]
    · rw [hexec, if_neg (by simp [hr]), if_pos (by simp [hm, hv])]
  · refine ⟨_, if_pos hk, ?_, ?_⟩
    · rw [power_of_ends (State.settle_ends_self _), State.presentReady_power]
    · rw [phase_of_ends (State.settle_ends_self _), State.presentReady_phase rfl]

end Sys2Proof.Machine
end

section
/-!
Block reset, isolation and enable (R48–R50): the control and status words of a page's header under the closing of its wrapper.
-/
namespace Sys2Proof.Machine
open Sys2Proof.Safety

/-- Does a key belong to the control word or the status word of a page's header? -/
def HeaderCtl (k : Nat) : Prop := keyIndex k = 1 ∨ keyIndex k = 2

theorem Stands.leaveBus {k : Nat} {b s : State} {d : Nat} (hs : Stands k b s) : Stands k b (s.leaveBus d) :=
  hs.of_moved (State.leaveBus_moved (Within.refl 2048) (Moved.refl _ _)) rfl

section
variable {k : Nat} (hk : HeaderCtl k) {b s : State}
include hk

theorem HeaderCtl.endKey : endKey k = false := by
  unfold Sys2Proof.Safety.endKey
  rcases hk with h | h <;> simp [h]

theorem HeaderCtl.ne_key {f : Field} (hf : (f.index % 32 == 1 || f.index % 32 == 2) = false) : f.key ≠ k := by
  refine Field.key_ne_of_index fun h => ?_
  rcases hk with e | e <;> simp [h, e] at hf

theorem HeaderCtl.raise {ev : Nat × Nat} {bank : Nat} (hs : Stands k b s) : Stands k b (s.raise ev bank) := Stands.raise hk.endKey hs

theorem HeaderCtl.tally {f : Field} {n : Nat} (hf : (f.index % 32 == 1 || f.index % 32 == 2) = false) (hs : Stands k b s) :
    Stands k b (s.tally f n) := by
  unfold State.tally
  extract_lets v0
  have hv0 : Stands k b v0 := State.bump_stands (hk.ne_key hf) hs
  exact Stands.ite (hk.raise hv0) hv0

theorem HeaderCtl.countGrant {who d waited : Nat} (hs : Stands k b s) : Stands k b (s.countGrant who d waited) := by
  unfold State.countGrant
  split
  · exact hs
  · extract_lets v0 v1 v2
    have hv2 : Stands k b v2 := hs
    exact Stands.ite (hk.raise hv2) hv2

theorem HeaderCtl.makeWay {d : Nat} (hs : Stands k b s) : Stands k b (s.makeWay d) := by
  unfold State.makeWay
  split
  · exact hs
  · extract_lets v0 v1 v2
    exact Stands.leaveBus (Stands.ite (hk.tally rfl hs) hs)

theorem HeaderCtl.grantUrgent {d : Nat} (hs : Stands k b s) : Stands k b (s.grantUrgent d) := by
  unfold State.grantUrgent
  split
  · exact hs
  · split
    · exact hs
    · exact Stands.ite hs (hk.countGrant hs)

theorem HeaderCtl.urgentAdmitted {d : Nat} (hs : Stands k b s) : Stands k b (s.urgentAdmitted d) := by
  unfold State.urgentAdmitted
  split
  · exact hs
  · extract_lets v0
    have hv0 : Stands k b v0 := hs
    exact Stands.ite (Stands.ite (hk.grantUrgent (hk.makeWay hs)) (Stands.ite (Stands.leaveBus hv0) hv0)) hs

theorem HeaderCtl.admitReq {d : Nat} {r : Req} (hs : Stands k b s) : Stands k b (s.admitReq d r) := by
  unfold State.admitReq State.admitUrgent
  refine Stands.ite ?_ hs
  split
  · exact hs
  · exact Stands.ite (hk.urgentAdmitted hs) hs

theorem HeaderCtl.present {d : Nat} {r : Req} (hs : Stands k b s) : Stands k b (s.present d r) := by
  unfold State.present
  split
  · exact hs
  · exact Stands.ite hs (Stands.ite hs (hk.admitReq hs))

theorem HeaderCtl.cutSteps {p : Req → Bool} (hs : Stands k b s) : Stands k b (s.cutSteps p) := by
  unfold State.cutSteps
  refine foldl_stands hs fun s d hs => ?_
  split
  · exact hs
  · split
    case h_1 =>
      extract_lets v0 v1
      have hv0 : Stands k b v0 := Stands.ite hs (Stands.leaveBus hs)
      exact Stands.ite hs (hk.present hv0)
    all_goals exact hs

theorem HeaderCtl.cutOff {d : Nat} (hs : Stands k b s) : Stands k b (s.cutOff d) := by
  unfold State.cutOff
  split
  · exact hs
  · extract_lets v0 v1
    have hv1 : Stands k b v1 := Stands.leaveBus hs
    refine Stands.ite ?_ hs
    split
    · exact hk.present hv1
    · exact Stands.ite hv1 hv1
    all_goals exact hv1

theorem HeaderCtl.closeWrapper {page : Nat} (hs : Stands k b s) : Stands k b (s.closeWrapper page) := by
  unfold State.closeWrapper
  exact Stands.ite hs (Stands.ite hs (Stands.ite (hk.cutSteps hs) (Stands.ite (hk.cutSteps hs) (Stands.ite hs
    (Stands.ite (foldl_stands hs fun _ _ h => hk.cutOff h) hs)))))

end

theorem Stands.openWrapper {k : Nat} {b s : State} {page : Nat} (hs : Stands k b s) : Stands k b (s.openWrapper page) := by
  unfold State.openWrapper
  exact Stands.ite hs hs

/-- A control or status bit of a header reads at the end of the step as the row left it. -/
theorem header_rd_done {s t : State} {f : Field} (hf : HeaderCtl f.key) (h : Stands f.key s t) (page bank index : Nat) :
    (t.freshParity page bank index).settle.rd f = s.rd f :=
  (State.settle_rd _ hf.endKey).trans h.rd

theorem HeaderCtl.of_field {f : Field} (h : f.index % 32 = 1 ∨ f.index % 32 = 2) : HeaderCtl f.key := by
  unfold HeaderCtl
  rw [Field.keyIndex_key]
  exact h

theorem State.rd_wr_bit (s : State) {f : Field} (h : f.mask = 1) {v : Nat} (hv : v ≤ 1) : (s.wr f v).rd f = v := by
  rw [State.rd_wr_self, h]
  have : v = 0 ∨ v = 1 := by omega
  rcases this with rfl | rfl <;> rfl

/-- The page's B fields cleared behind the closed wrapper, and RESET_ACTIVE not set yet (R49). -/
def State.blockCleared (s : State) (page : Nat) : State :=
  let s := s.closeWrapper page
  let s : State := { s with regs := regClear s.regs (clearedByPage page) }
  let s := if page = 0x0A then { s with flash := { s.flash with arb := [] } } else s
  if 0x10 ≤ page ∧ page ≤ 0x1F then
    { s with flash := { s.flash with chans := mapIf (fun c => c.id == page - 0x10) (fun c => { c with reconf := true }) s.flash.chans } }
  else s

theorem State.softReset_begins {s : State} {page : Nat} (hp : softResets page = true) (ha : s.chanAbsent page = false)
    (hr : s.rd (resetActive page 0) = 0) : s.softReset page = (s.blockCleared page).wr (resetActive page 0) 1 :=
  if_neg (by simp [hp, ha, State.bit, hr])

theorem State.blockCleared_regs (s : State) (page : Nat) :
    (s.blockCleared page).regs = regClear (s.closeWrapper page).regs (clearedByPage page) := by
  have hif (x : State) (p : Prop) [Decidable p] (fl : Flash) : (if p then { x with flash := fl } else x).regs = x.regs := by
    split <;> rfl
  exact (hif _ _ _).trans (hif _ _ _)

theorem keyLevel_key (f : Field) : keyLevel f.key = levelCode f.level := by
  unfold keyLevel Field.key
  omega

theorem not_clearedByPage_resetActive (page bank p : Nat) : clearedByPage p (resetActive page bank).key = false := by
  have hlevel : keyLevel (resetActive page bank).key ≤ 2 := by
    rw [keyLevel_key]
    unfold resetActive hdrField
    dsimp only
    split <;> decide
  exact decide_eq_false fun h => by omega

theorem blockSoftReset_clears {s : State} {page : Nat} (hk : s.clocked = true) (hp : softResets page = true)
    (ha : s.chanAbsent page = false) (hr : s.rd (resetActive page 0) = 0) : ∃ t, exec (.blockSoftReset page) s = .next t ∧
      t.rd (resetActive page 0) = 1 ∧ (∀ f : Field, clearedByPage page f.key = true → endKey f.key = false → t.rd f = f.reset) := by
  refine ⟨_, if_pos hk, ?_, fun f hf he => ?_⟩
  · rw [header_rd_done (HeaderCtl.of_field (.inr rfl)) (Stands.refl _ _), State.softReset_begins hp ha hr]
    exact State.rd_wr_bit _ rfl (by decide)
  · have hne : f.key ≠ (resetActive page 0).key := fun e => by
      rw [e, not_clearedByPage_resetActive] at hf
      exact Bool.false_ne_true hf
    rw [State.settle_rd _ he, State.freshParity_rd, State.softReset_begins hp ha hr]
    exact (State.rd_wr_ne _ _ _ _ hne).trans (State.rd_of_cleared (s.blockCleared_regs page) hf)

theorem State.softReset_stands {s : State} {page : Nat}
    (h : softResets page = false ∨ s.chanAbsent page = true ∨ s.rd (resetActive page 0) = 1) : s.softReset page = s :=
  if_pos (by rcases h with h | h | h <;> simp [h, State.bit])

/-! The end of a block's soft reset. -/

theorem State.softResetEnd_ends {s : State} {page : Nat} (hr : s.rd (resetActive page 0) = 1)
    (hidle : page < 0x10 ∨ 0x1F < page ∨ s.channelIdle (page - 0x10) = true) : s.softResetEnd page =
      if (s.wr (resetActive page 0) 0).bit (isolateBit page 0) then (s.wr (resetActive page 0) 0).wr (isolatedBit page 0) 1
      else (s.wr (resetActive page 0) 0).openWrapper page :=
  if_pos (by rcases hidle with h | h | h <;> simp [State.bit, hr, h])

theorem blockSoftResetEnd_ends {s : State} {page : Nat} (hk : s.clocked = true) (hr : s.rd (resetActive page 0) = 1)
    (hidle : page < 0x10 ∨ 0x1F < page ∨ s.channelIdle (page - 0x10) = true) : ∃ t, exec (.blockSoftResetEnd page) s = .next t ∧
      t.rd (resetActive page 0) = 0 ∧ (s.rd (isolateBit page 0) = 1 → t.rd (isolatedBit page 0) = 1) := by
  have hzero := (s.rd_wr_bit (f := resetActive page 0) rfl (v := 0) (by decide))
  refine ⟨_, if_pos hk, ?_, fun hi => ?_⟩
  · rw [State.settle_rd _ (HeaderCtl.of_field (.inr rfl)).endKey, State.softResetEnd_ends hr hidle]
    split
    · rw [State.rd_wr_ne _ _ _ _ (Field.key_ne (by simp [isolatedBit, resetActive, hdrField]))]
      exact hzero
    · exact (Stands.openWrapper (Stands.refl _ _)).rd.trans hzero
  · have hiso : (s.wr (resetActive page 0) 0).bit (isolateBit page 0) = true := by
      unfold State.bit
      rw [State.rd_wr_ne _ _ _ _ (Field.key_ne (by simp [isolateBit, resetActive, hdrField])), hi]
      rfl
    rw [State.settle_rd _ (HeaderCtl.of_field (.inr rfl)).endKey, State.softResetEnd_ends hr hidle, if_pos hiso]
    exact State.rd_wr_bit _ rfl (by decide)

theorem State.softResetEnd_stands {s : State} {page : Nat}
    (h : s.rd (resetActive page 0) = 0 ∨ (0x10 ≤ page ∧ page ≤ 0x1F ∧ s.channelIdle (page - 0x10) = false)) : s.softResetEnd page = s := by
  refine if_neg ?_
  rcases h with h | ⟨hlo, hhi, hidle⟩
  · simp [State.bit, h]
  · simp [hidle, Nat.not_lt.mpr hlo, Nat.not_lt.mpr hhi]

/-! ISOLATE and ENABLE. -/

/-- ISOLATE and ISOLATED as a write of ISOLATE leaves them. -/
def State.isolateSet (s : State) (page : Nat) (on : Bool) : State := (s.wr (isolateBit page 0) (bit01 on)).wr (isolatedBit page 0) (bit01 on)

theorem State.isolateSet_rd (s : State) (page : Nat) (on : Bool) :
    (s.isolateSet page on).rd (isolateBit page 0) = bit01 on ∧ (s.isolateSet page on).rd (isolatedBit page 0) = bit01 on :=
  ⟨(State.rd_wr_ne _ _ _ _ (Field.key_ne (by simp [isolateBit, isolatedBit, hdrField]))).trans (State.rd_wr_bit _ rfl (bit01_le on)),
    State.rd_wr_bit _ rfl (bit01_le on)⟩

/-- The wrapper closes or opens behind the two bits, which it leaves alone. -/
theorem State.isolate_stands {s : State} {page : Nat} (hp : pageClass page = .engine) (ha : s.chanAbsent page = false) (on : Bool) {k : Nat}
    (hk : HeaderCtl k) : Stands k (s.isolateSet page on) (s.isolate page on) := by
  have hset : s.isolate page on = if on then (s.isolateSet page on).closeWrapper page
      else if (s.isolateSet page on).bit (resetActive page 0) then s.isolateSet page on else (s.isolateSet page on).openWrapper page :=
    if_neg (by simp [hp, ha])
  rw [hset]
  exact Stands.ite (hk.closeWrapper (Stands.refl _ _)) (Stands.ite (Stands.refl _ _) (Stands.openWrapper (Stands.refl _ _)))

theorem State.isolate_refused {s : State} {page : Nat} (h : pageClass page ≠ .engine ∨ s.chanAbsent page = true) (on : Bool) :
    s.isolate page on = s ∧ s.enable page on = s :=
  ⟨if_pos (by rcases h with h | h <;> simp [h]), if_pos (by rcases h with h | h <;> simp [h])⟩

/-- Settles O25: what each row writes to the control and status words of the header stands to the end of the step. -/
theorem blockRows : Obligations.BlockRows := by
  refine fun s hk => ⟨fun page hp ha hr => blockSoftReset_clears hk hp ha hr, fun page h => ?_,
    fun page hr hidle => blockSoftResetEnd_ends hk hr hidle, fun page h => ?_, fun page on hp ha => ?_, fun page on hp ha => ?_,
    fun page on h => ?_⟩
  · have hexec : exec (.blockSoftReset page) s = ((s.softReset page).freshParity page 0 1).done := if_pos hk
    rw [State.softReset_stands h] at hexec
    exact ⟨_, moves_done hexec⟩
  · have hexec : exec (.blockSoftResetEnd page) s = (s.softResetEnd page).done := if_pos hk
    rw [State.softResetEnd_stands h] at hexec
    exact ⟨_, moves_done hexec⟩
  · obtain ⟨hiso, hisod⟩ := s.isolateSet_rd page on
    have hctl : HeaderCtl (isolateBit page 0).key := HeaderCtl.of_field (.inl rfl)
    have hstat : HeaderCtl (isolatedBit page 0).key := HeaderCtl.of_field (.inr rfl)
    exact ⟨_, if_pos hk, (header_rd_done hctl (State.isolate_stands hp ha on hctl) page 0 1).trans hiso,
      (header_rd_done hstat (State.isolate_stands hp ha on hstat) page 0 1).trans hisod⟩
  · have hset : s.enable page on = s.wr (enableBit page 0) (bit01 on) := if_neg (by simp [hp, ha])
    have hexec : exec (.blockEnable page on) s = ((s.enable page on).freshParity page 0 1).done := if_pos hk
    rw [hset] at hexec
    refine ⟨_, moves_done hexec, ?_⟩
    rw [header_rd_done (HeaderCtl.of_field (.inl rfl)) (Stands.refl _ _)]
    exact State.rd_wr_bit _ rfl (bit01_le on)
  · obtain ⟨hiso, hen⟩ := State.isolate_refused h on
    have hiexec : exec (.blockIsolate page on) s = ((s.isolate page on).freshParity page 0 1).done := if_pos hk
    have heexec : exec (.blockEnable page on) s = ((s.enable page on).freshParity page 0 1).done := if_pos hk
    rw [hiso] at hiexec
    rw [hen] at heexec
    exact ⟨⟨_, moves_done hiexec⟩, ⟨_, moves_done heexec⟩⟩

end Sys2Proof.Machine
end

section
/-!
RESET, system resets and core resets (R351–R358, R368, R377, R396–R402).
-/
namespace Sys2Proof.Machine
open Sys2Proof.Safety

/-! RESET. -/

/-- The request that a further one leaves (R355). -/
theorem State.requestReset_req (s : State) (system : Bool) (source : Nat) (sender : Option Nat) :
    ∃ r, (s.requestReset system source sender).power.resetReq = some r ∧ (s.power.resetReq = none → r.system = system) ∧
      (∀ r0, s.power.resetReq = some r0 → r.system = (r0.system || system)) ∧ r.source = source := by
  refine ⟨_, rfl, fun h => ?_, fun r0 h => ?_, ?_⟩
  · simp only [h]
  · simp only [h]
  · cases s.power.resetReq <;> rfl

theorem reset_requests {q : Nat} {s : State} {c : Cmd} (hw : AtWork s q c opReset .decoded) (ho : s.openMode = true) :
    ∃ t r, exec (.reset q) s = .next t ∧ Fixed t c stOk (completionFields c stOk 0) ∧
       t.power.resetReq = some r ∧ (s.power.resetReq = none → r.system = (c.field 0 8 == 1)) ∧
       (∀ r0, s.power.resetReq = some r0 → r.system = (r0.system || c.field 0 8 == 1)) ∧
       r.source = (if c.field 0 8 = 1 then 3 else 4) := by
  let system := c.field 0 8 == 1
  let x := s.requestReset system (if system then 3 else 4) (if system then some q else none)
  have hexec : exec (.reset q) s = .next (x.complete q stOk).settle := by
    rw [exec_onCmd hw rfl, if_neg (by simp [ho])]
  have hpower : (x.complete q stOk).settle.power = x.power := power_of_ends (x.complete_ends q stOk 0 0 0)
  obtain ⟨r, hr, hnone, hsome, hsource⟩ := s.requestReset_req system (if system then 3 else 4) (if system then some q else none)
  refine ⟨_, r, hexec, State.complete_fixed (data := 0) (s := x) hw.1 (isOpen_of_atWork hw (by decide)), hpower ▸ hr, hnone, hsome, ?_⟩
  rw [hsource]
  simp [system]

/-! A system reset. -/

/-- The card with what a system reset clears. -/
def State.systemCleared (s : State) : State :=
  let debug := s.esc.hdrBad.filter (fun e => e.1 == 0x27)
  let s := s.dropVolatile
  let s : State := { s with esc := { s.esc with hdrBad := debug } }
  let o := match s.opt.commit with
    | some (true, m) => { s.opt with copyB := m }
    | some (false, m) => { s.opt with copyA := m }
    | none => s.opt
  { s with
    regs := regClear s.regs clearedBySystem
    opt := { o with commit := none, staging := [], inForce := [] }
    power := { s.power with fromWake := false, crustRestart := false, testMode := false } }

/-- The cause of the Safe state as `DEBUG.PREV_SAFE` takes it (R377). -/
def State.safeCause (s : State) : Nat :=
  s.rd Reg.ESCALATE.SAFE_CAUSE.KIND + 2 ^ 8 * s.rd Reg.ESCALATE.SAFE_CAUSE.PAGE +
    2 ^ 16 * s.rd Reg.ESCALATE.SAFE_CAUSE.BANK + 2 ^ 24 * s.rd Reg.ESCALATE.SAFE_CAUSE.BIT

/-- The causes that a system reset writes on the cleared card. -/
def State.systemCaused (s : State) (cause source : Nat) : State := (s.wr Reg.DEBUG.PREV_SAFE.CAUSE cause).setCause 2 source

theorem State.systemReset_eq (s : State) (source : Nat) : s.systemReset source =
    ((s.crustStarted (some source)).systemCleared.systemCaused (s.crustStarted (some source)).safeCause source).carryEnd s.carryPending := rfl

theorem State.systemCaused_moved (s : State) (cause source : Nat) : Moved 2 s (s.systemCaused cause source) :=
  State.setCause_moved (Within.refl 2) (State.wr_moved (Within.refl 2) (Moved.refl _ s))

theorem State.systemCaused_carryEnd_moved (s : State) (cause source : Nat) (carry : Bool) :
    Moved 194 s ((s.systemCaused cause source).carryEnd carry) := by
  have hcause : Moved 194 s (s.systemCaused cause source) :=
    State.setCause_moved (by unfold Within; decide) (State.wr_moved (by unfold Within; decide) (Moved.refl _ s))
  refine State.endEdge_moved (by unfold Within; decide) ?_
  exact Moved.ite (State.raise_moved (Within.refl 194) hcause) hcause

theorem State.dropVolatile_regs (s : State) : s.dropVolatile.regs = s.regs :=
  (State.dropVolatile_moved (Within.refl 925684) (Moved.refl _ s)).same .regs rfl

theorem State.crustStarted_regs (s : State) (source : Option Nat) : (s.crustStarted source).regs = s.regs :=
  (s.crustStarted_moved (Within.refl 8192) source).same .regs rfl

theorem State.systemCleared_regs (s : State) : s.systemCleared.regs = regClear s.regs clearedBySystem := by
  change regClear s.dropVolatile.regs clearedBySystem = _
  rw [State.dropVolatile_regs]

theorem Stands.endEdge {k : Nat} {b s : State} (h : Stands k b s) : Stands k b s.endEdge := h

/-- The causes stand on registers that a system reset does not clear. -/
theorem State.systemCaused_stands {k : Nat} (hc : clearedBySystem k = true) (s : State) (cause source : Nat) :
    Stands k s (s.systemCaused cause source) := by
  have hne (f : Field) (hf : clearedBySystem f.key = false) : f.key ≠ k := fun e => by
    rw [e, hc] at hf
    exact Bool.false_ne_true hf.symm
  exact State.wr_stands (hne _ (by decide)) (State.wr_stands (hne _ (by decide)) (State.wr_stands (hne _ (by decide))
    (State.wr_stands (hne _ (by decide)) (State.wr_stands (hne _ (by decide)) (Stands.refl _ _)))))

section
variable (s : State) (source : Nat)

/-- A part that the causes and the event of a carry do not write is as the reset cleared it. -/
theorem State.systemReset_same {p : Part} (h : (194).testBit (partBit p) = false) :
    p.Same (s.crustStarted (some source)).systemCleared (s.systemReset source) :=
  State.systemReset_eq s source ▸ (State.systemCaused_carryEnd_moved _ _ _ _).same p h

/-- The register of a key that neither the causes nor the event of a carry writes. -/
theorem State.systemReset_stands {k : Nat} (hk : OffRings k) (hev : (attnSticky Evt.RESET.CARRY_COMPLETED.1 0).key ≠ k)
    (hc : clearedBySystem k = true) : Stands k (s.crustStarted (some source)).systemCleared (s.systemReset source) := by
  have hcaused := State.systemCaused_stands hc (s.crustStarted (some source)).systemCleared (s.crustStarted (some source)).safeCause source
  rw [State.systemReset_eq]
  exact Stands.endEdge (Stands.ite (State.raise_stands hk hev hcaused) hcaused)

theorem State.systemCleared_rd {f : Field} (hf : clearedBySystem f.key = true) : s.systemCleared.rd f = f.reset :=
  State.rd_of_cleared s.systemCleared_regs hf

/-- A field that a system reset does not clear. -/
theorem State.systemCleared_keeps {f : Field} (hf : clearedBySystem f.key = false) : s.systemCleared.rd f = s.rd f := by
  unfold State.rd regRead
  rw [State.systemCleared_regs, storeRead_regClear, if_neg (by simp [hf])]

theorem State.setCause_prevLevel (level : Nat) : (s.setCause level source).rd Reg.RESET.PREV_CAUSE.LEVEL = s.rd Reg.RESET.CAUSE.LEVEL % 4 :=
  (State.rd_wr_other _ _ rfl).trans ((State.rd_wr_other _ _ rfl).trans ((State.rd_wr_other _ _ rfl).trans
    ((State.rd_wr_self _ Reg.RESET.PREV_CAUSE.LEVEL _).trans (Nat.and_two_pow_sub_one_eq_mod _ 2))))

theorem State.setCause_prevSource (level : Nat) : (s.setCause level source).rd Reg.RESET.PREV_CAUSE.SOURCE = s.rd Reg.RESET.CAUSE.SOURCE % 8 :=
  (State.rd_wr_other _ _ rfl).trans ((State.rd_wr_other _ _ rfl).trans
    ((State.rd_wr_self _ Reg.RESET.PREV_CAUSE.SOURCE _).trans ((Nat.and_two_pow_sub_one_eq_mod _ 3).trans
      (congrArg (· % 8) (State.rd_wr_other _ _ rfl)))))

end

/-- What a system reset leaves (R351, R356, R368, R377). -/
theorem State.systemReset_power (s : State) (source : Nat) : (s.systemReset source).power.startup = .held ∧
    (s.systemReset source).power.resetReq = none ∧ (s.systemReset source).clocked = false := by
  have h : (s.systemReset source).power = (s.crustStarted (some source)).systemCleared.power := s.systemReset_same source (p := .power) rfl
  refine ⟨by rw [h]; rfl, by rw [h]; rfl, ?_⟩
  unfold State.clocked
  rw [h]
  exact Bool.and_false _

theorem State.systemReset_gone (s : State) (source : Nat) : let t := s.systemReset source
    t.link = Link.reset ∧ t.cmds = [] ∧ t.descs = [] ∧ ∀ i, t.slice i = Slice.free :=
  ⟨s.systemReset_same source (p := .link) rfl, s.systemReset_same source (p := .cmds) rfl, s.systemReset_same source (p := .descs) rfl,
    fun i => (State.slice_of_slices (s.systemReset_same source (p := .slices) rfl) i).trans (State.reset_slice i)⟩

theorem State.systemReset_safe (s : State) (source : Nat) : (s.systemReset source).safe = false ∧ (s.systemReset source).escPending = false := by
  have hrd (f : Field) (hp : keyPage f.key = 0x24) (hc : clearedBySystem f.key = true) : (s.systemReset source).rd f = f.reset :=
    (State.systemReset_stands s source (.inl (by rw [hp]; decide)) (Field.key_ne_of_page (by rw [hp]; decide)) hc).rd.trans
      (State.systemCleared_rd _ hc)
  exact ⟨by rw [State.safe, State.bit, hrd Reg.ESCALATE.STATE.SAFE (by decide) (by decide)]; rfl,
    by rw [State.escPending, State.bit, hrd Reg.ESCALATE.STATE.PENDING (by decide) (by decide)]; rfl⟩

theorem State.systemReset_cause (s : State) (source : Nat) : let t := s.systemReset source
    t.rd Reg.RESET.CAUSE.LEVEL = 2 ∧ t.rd Reg.RESET.CAUSE.SOURCE = source % 8 ∧
     t.rd Reg.RESET.PREV_CAUSE.LEVEL = s.rd Reg.RESET.CAUSE.LEVEL % 4 ∧ t.rd Reg.RESET.PREV_CAUSE.SOURCE = s.rd Reg.RESET.CAUSE.SOURCE % 8 := by
  have hbefore {f : Field} (hd : (f.page % 64 == 0x27 % 64 && f.index % 32 == Reg.DEBUG.PREV_SAFE.CAUSE.index % 32 &&
      f.lo % 32 == Reg.DEBUG.PREV_SAFE.CAUSE.lo % 32) = false) (hf : clearedBySystem f.key = false) :
      ((s.crustStarted (some source)).systemCleared.wr Reg.DEBUG.PREV_SAFE.CAUSE (s.crustStarted (some source)).safeCause).rd f = s.rd f := by
    rw [State.rd_wr_ne _ _ _ _ (Field.key_ne hd), State.systemCleared_keeps _ hf]
    unfold State.rd
    rw [State.crustStarted_regs]
  dsimp only
  rw [State.systemReset_eq]
  refine ⟨?_, ?_, ?_, ?_⟩
  · exact (State.carryEnd_rd _ _ rfl).trans (State.setCause_level _ (by decide))
  · exact (State.carryEnd_rd _ _ rfl).trans (State.setCause_source _ _ _)
  · refine (State.carryEnd_rd _ _ rfl).trans ((State.setCause_prevLevel _ _ _).trans ?_)
    rw [hbefore (f := Reg.RESET.CAUSE.LEVEL) rfl (by decide)]
  · refine (State.carryEnd_rd _ _ rfl).trans ((State.setCause_prevSource _ _ _).trans ?_)
    rw [hbefore (f := Reg.RESET.CAUSE.SOURCE) rfl (by decide)]

theorem State.endEdge_attn_nil {s : State} (h : s.attn = []) : s.endEdge.attn = [] := by
  unfold State.endEdge
  rw [h]
  rfl

/-- Without a carry pending a system reset writes nothing but the causes on the cleared registers, and posts nothing. -/
theorem State.systemReset_quiet {s : State} (hc : s.carryPending = false) (source : Nat) : let t := s.systemReset source
    (∀ f : Field, clearedBySystem f.key = true → t.rd f = f.reset) ∧ t.attn = [] := by
  have heq : s.systemReset source = ((s.crustStarted (some source)).systemCleared.systemCaused
      (s.crustStarted (some source)).safeCause source).endEdge := by
    rw [State.systemReset_eq, hc]
    rfl
  refine ⟨fun f hf => ?_, by rw [heq]; exact State.endEdge_attn_nil (State.systemCaused_moved _ _ _ |>.same .attn rfl)⟩
  rw [heq]
  exact (State.systemCaused_stands hf _ _ _).endEdge.rd.trans (State.systemCleared_rd _ hf)

theorem State.systemReset_only (s : State) (source : Nat) :
    Only (stepParts ++ [.origs, .slices, .shelf, .flash, .power, .opt, .fw, .temp]) s (s.systemReset source) :=
  (State.systemReset_moved (T := partsOf (stepParts ++ [.origs, .slices, .shelf, .flash, .power, .opt, .fw, .temp])) (by exact rfl)
    (Moved.refl _ s)).agree.only fun _ => partsOf_testBit_of_not_mem

/-- Settles O22: RESET by mode and LEVEL, and what a system reset leaves, by whichever row it comes. -/
theorem resets : Obligations.Resets := by
  refine ⟨fun q s c hw => ⟨fun ho => ?_, fun ho => reset_requests hw ho⟩, ?_⟩
  · exact ⟨_, finishes_of hw (by decide) rfl (if_pos (by simp [ho])) hw.1⟩
  · intro after
    have hafter (s : State) (source : Nat) : after s (s.systemReset source) source := by
      obtain ⟨hstart, hreq, hclock⟩ := s.systemReset_power source
      obtain ⟨hlink, hcmds, hdescs, hslices⟩ := s.systemReset_gone source
      obtain ⟨hsafe, hesc⟩ := s.systemReset_safe source
      obtain ⟨hlevel, hsource, hplevel, hpsource⟩ := s.systemReset_cause source
      exact ⟨hstart, hreq, hclock, hlink, hcmds, hdescs, s.systemReset_origs source, hslices, hsafe, hesc, hlevel, hsource, hplevel,
        hpsource, fun hc => State.systemReset_quiet hc source, s.systemReset_only source⟩
    refine ⟨fun s hk => ⟨_, if_pos hk, hafter s 2⟩, fun s r hk hr hsys hsent => ?_, fun s hk => if_neg (by simp [hk])⟩
    refine ⟨s.systemReset r.source, ?_, hafter s r.source⟩
    change execLinkSystemReset s = _
    unfold execLinkSystemReset
    rw [hr]
    refine if_pos ?_
    cases hq : r.sender with
    | none => simp [hk, hsys]
    | some q =>
      obtain ⟨hcmd, hfree⟩ := hsent q hq
      simp only [hk, hsys, hcmd, Option.isNone_none, Bool.true_and, List.all_eq_true, bne_iff_ne]
      exact hfree

end Sys2Proof.Machine
end

section
/-!
Core resets (R354, R396–R402).
-/
namespace Sys2Proof.Machine
open Sys2Proof.Safety

/-! The halt. -/

/-- The halted core: C fields, nonces and the round gone, every channel marked; the Crust and the cause are yet to come. -/
def State.halted (s : State) : State :=
  let s := s.wr Reg.RESET.DRAIN.CCLK (min s.power.drain (ones 32))
  let s : State := { s with
    regs := regClear s.regs clearedByCore
    origs := s.origs.map (fun (o : Orig) => { o with nonce := none })
    shelf := { s.shelf with armedBy := none }
    power := { s.power with startup := .halted, resetReq := none, drain := 0 } }
  (s.wr Reg.SHELF.SLEEP_STAT.STATE 0).markReconf

theorem State.coreHalt_eq (s : State) (source : Nat) : s.coreHalt source = (s.halted.countReset source).setCause 1 source := rfl

theorem State.countReset_regs (s : State) (source : Nat) : (s.countReset source).regs = s.regs :=
  (State.countReset_moved (Within.refl 8192) (Moved.refl _ s)).same .regs rfl

theorem State.coreHalt_same (s : State) (source : Nat) {p : Part} (h : (8194).testBit (partBit p) = false) :
    p.Same s.halted (s.coreHalt source) :=
  State.coreHalt_eq s source ▸ (State.setCause_moved (T := 8194) (by unfold Within; decide)
    (State.countReset_moved (by unfold Within; decide) (Moved.refl _ s.halted))).same p h

/-- The cause of the reset stands on the registers of level C. -/
theorem State.coreHalt_stands {k : Nat} (hk : clearedByCore k = true) (s : State) (source : Nat) : Stands k s.halted (s.coreHalt source) := by
  have hne (f : Field) (hf : clearedByCore f.key = false) : f.key ≠ k := fun e => by
    rw [e, hk] at hf
    exact Bool.false_ne_true hf.symm
  have hcount : Stands k s.halted (s.halted.countReset source) :=
    (Stands.refl _ _).of_moved (State.countReset_moved (Within.refl 8192) (Moved.refl _ _)) rfl
  rw [State.coreHalt_eq]
  exact State.wr_stands (hne _ (by decide)) (State.wr_stands (hne _ (by decide)) (State.wr_stands (hne _ (by decide))
    (State.wr_stands (hne _ (by decide)) hcount)))

theorem State.halted_regs (s : State) : s.halted.regs = regWrite
    (regClear (s.wr Reg.RESET.DRAIN.CCLK (min s.power.drain (ones 32))).regs clearedByCore) Reg.SHELF.SLEEP_STAT.STATE 0 := rfl

theorem State.halted_cleared (s : State) {f : Field} (hf : clearedByCore f.key = true) : s.halted.rd f = f.reset := by
  have hne : Reg.SHELF.SLEEP_STAT.STATE.key ≠ f.key := fun e => by
    rw [← e] at hf
    exact absurd hf (by decide)
  unfold State.rd
  rw [State.halted_regs, regRead_write_ne _ _ hne.symm]
  unfold regRead
  rw [storeRead_regClear, if_pos hf, Nat.zero_xor]

theorem State.coreHalt_idle (s : State) (source : Nat) : (s.coreHalt source).rd Reg.SHELF.SLEEP_STAT.STATE = 0 := by
  have hcount : (s.halted.countReset source).rd Reg.SHELF.SLEEP_STAT.STATE = s.halted.rd Reg.SHELF.SLEEP_STAT.STATE := by
    unfold State.rd
    rw [State.countReset_regs]
  rw [State.coreHalt_eq]
  refine (State.rd_wr_other _ _ rfl).trans ((State.rd_wr_other _ _ rfl).trans ((State.rd_wr_other _ _ rfl).trans
    ((State.rd_wr_other _ _ rfl).trans (hcount.trans ?_))))
  exact State.rd_wr_of_lt (f := Reg.SHELF.SLEEP_STAT.STATE) (w := 2) (v := 0) _ rfl (by decide)

theorem State.markReconf_chans (s : State) : ∀ c ∈ s.markReconf.flash.chans, c.reconf = true := by
  intro c hc
  obtain ⟨d, -, rfl⟩ := List.mem_map.1 hc
  rfl

theorem coreResetHalt_halts {s : State} {r : ResetReq} (hk : s.clocked = true) (hr : s.power.resetReq = some r) (hsys : r.system = false)
    (hd : s.drained = true) : exec .coreResetHalt s = .next (s.coreHalt r.source).settle := by
  change execCoreResetHalt s = _
  unfold execCoreResetHalt
  rw [hr]
  exact if_pos (by simp [hk, hsys, hd])

/-! The restart. -/

/-- The card as the image that starts serves: with recovery in full where it has not recovered, else with the settings loaded again. -/
def State.restarted (s : State) (env : RecoveryIn) : State :=
  if !s.power.recovered then s.recover env else if s.minimal then s else s.loadSettings

theorem execCoreResetRestart_eq {s : State} (env : RecoveryIn) (hk : s.clocked = true) (hst : s.power.startup = .halted)
    (hr : s.power.resetReq = none) : exec (.coreResetRestart env) s =
      let b := s.bootSelect false env.unreadable
      if b.power.resetReq.isSome then b.done
      else if !b.power.recovered && !b.minimal && !b.power.vholdOk then .next s
      else (({ b.restarted env with power := { (b.restarted env).power with startup := .ready } } : State).raise
        Evt.RESET.CORE_RESTARTED).presentReady.done :=
  if_pos (by rw [hk, hst, hr]; rfl)

/-- Settles O23: the halt once the drain has ended, and the three outcomes of the boot selection. -/
theorem coreResets : Obligations.CoreResets := by
  refine ⟨fun s r hk hr hsys hd => ?_, fun s hd => ?_, fun s env hk hst hr => ?_⟩
  · have hends := (s.coreHalt r.source).settle_ends_self
    have hpower : (s.coreHalt r.source).settle.power = s.halted.power := (power_of_ends hends).trans (s.coreHalt_same r.source (p := .power) rfl)
    refine ⟨_, coreResetHalt_halts hk hr hsys hd, by rw [hpower]; rfl, by rw [hpower]; rfl, ?_, ?_, ?_, fun f hf he => ?_, ?_, ?_⟩
    · exact (State.rd_settle _ rfl).trans (State.setCause_level _ (by decide))
    · exact (State.rd_settle _ rfl).trans (State.setCause_source _ _ _)
    · exact (State.rd_settle _ rfl).trans (s.coreHalt_idle _)
    · exact (State.settle_rd _ he).trans ((State.coreHalt_stands hf s r.source).rd.trans (s.halted_cleared hf))
    · rw [State.settle_origs, State.coreHalt_origs]
      intro o ho
      obtain ⟨p, -, rfl⟩ := List.mem_map.1 ho
      rfl
    · rw [flash_of_ends hends, (s.coreHalt_same r.source (p := .flash) rfl :)]
      exact State.markReconf_chans _
  · change execCoreResetHalt s = _
    unfold execCoreResetHalt
    split
    · exact if_neg (by simp [hd])
    · rfl
  · intro b
    have hexec := execCoreResetRestart_eq env hk hst hr
    have hstart : b.power.startup = .halted := (State.bootSelect_startup ..).trans hst
    refine ⟨fun hreq => ?_, fun hreq hgo => ?_, fun hreq hrec hmin hv => ?_⟩
    · have hb : exec (.coreResetRestart env) s = b.done := hexec.trans (if_pos (by simpa [Option.isSome_iff_ne_none] using hreq))
      have hpower := power_of_ends b.settle_ends_self
      exact ⟨_, moves_done hb, (congrArg Power.startup hpower).trans hstart, congrArg Power.resetReq hpower⟩
    · refine ⟨_, hexec.trans ((if_neg (by simp [b, hreq])).trans (if_neg ?_)), ?_⟩
      · rcases hgo with h | h | h <;> simp [h, b]
      · rw [power_of_ends (State.settle_ends_self _), State.presentReady_power, State.raise_power]
    · exact hexec.trans ((if_neg (by simp [b, hreq])).trans (if_pos (by simp [b, hrec, hmin, hv])))

end Sys2Proof.Machine
end

section
/-!
Wakes and the entry to SLEEP (R96, R139, R154, R310, R373, R379, R413–R420).
-/
namespace Sys2Proof.Machine
open Sys2Proof.Safety

/-! What of the escalation's state the end of a step leaves alone: header parity, a foreign driver's levels, the ignored WAKE mask. -/

/-- Header parity, the levels of a foreign driver at ALERT and the ignored mask bit stand. -/
def EscKept (b t : State) : Prop :=
  t.esc.hdrBad = b.esc.hdrBad ∧ t.esc.pads = b.esc.pads ∧ t.esc.ignoreMask = b.esc.ignoreMask

theorem EscKept.refl (s : State) : EscKept s s := ⟨rfl, rfl, rfl⟩

theorem EscKept.of_esc {b s t : State} (h : EscKept b s) (he : t.esc = s.esc) : EscKept b t := by
  unfold EscKept
  rw [he]
  exact h

theorem EscKept.of_moved {b s t : State} {T : Nat} (h : EscKept b s) (hm : Moved T s t) (hT : T.testBit 18 = false) : EscKept b t :=
  h.of_esc (hm.esc_eq hT)

/-- Whatever else is written to the escalation's state, it stands where those three do. -/
theorem EscKept.set {b s : State} (h : EscKept b s) {e : Escalation} (he : e.hdrBad = s.esc.hdrBad ∧ e.pads = s.esc.pads ∧
    e.ignoreMask = s.esc.ignoreMask) : EscKept b { s with esc := e } :=
  ⟨he.1.trans h.1, he.2.1.trans h.2.1, he.2.2.trans h.2.2⟩

theorem EscKept.ite {b s t : State} {p : Prop} [Decidable p] (h : EscKept b s) (k : EscKept b t) : EscKept b (if p then s else t) := by
  split
  · exact h
  · exact k

section
variable {b s : State} (h : EscKept b s)
include h

theorem EscKept.raise (ev : Nat × Nat) (bank : Nat) : EscKept b (s.raise ev bank) :=
  h.of_moved (State.raise_moved (Within.refl 194) (Moved.refl _ _)) rfl

theorem EscKept.enterSafe (kind : Nat) (x : Source) : EscKept b (s.enterSafe kind x) := by
  unfold State.enterSafe
  split
  · exact h
  · extract_lets v0 v1 v2 v3 v4 v5 v6 v7
    have hv1 : EscKept b v1 := h.of_esc rfl
    have hv3 : EscKept b v3 := hv1.set ⟨rfl, rfl, rfl⟩
    have hv8 : EscKept b (v7.bump Reg.DEBUG.COUNTS.SAFE_ENTRIES) := hv3.of_esc rfl
    exact hv8.of_moved (State.endDataPhases_moved (Within.refl 318) (Moved.refl _ _)) rfl

theorem EscKept.report (src : Nat × Nat) (bank : Nat) (force : Bool) : EscKept b (s.report src bank force) := by
  unfold State.report
  extract_lets v0 v1 v2 v3 v4
  have hv3 : EscKept b v3 := h.of_esc rfl
  have hv4 : EscKept b v4 := EscKept.ite (EscKept.ite (hv3.of_moved (State.post_moved (Within.refl 194) (Moved.refl _ _)) rfl) hv3) h
  exact EscKept.ite (hv4.enterSafe _ _) hv4

theorem EscKept.headerParity (page bank : Nat) : EscKept b (s.headerParity page bank) := by
  unfold State.headerParity
  extract_lets x f
  have hsticky : EscKept b (s.wr f (s.rd f ||| 2 ^ 31)) := h.of_esc rfl
  exact hsticky.enterSafe _ _

theorem EscKept.headerCheck : EscKept b s.headerCheck := by
  have hfold (l : List (Nat × Nat × Nat)) (s : State) (h : EscKept b s) :
      EscKept b (l.foldl (fun s e => s.headerParity e.1 e.2.1) s) := by
    induction l generalizing s with
    | nil => exact h
    | cons e l ih => exact ih _ (h.headerParity _ _)
  exact hfold _ s h

theorem EscKept.escEval : EscKept b s.escEval := by
  unfold State.escEval
  split
  · exact h
  · split
    · exact h.enterSafe _ _
    · split
      · extract_lets v0 v1 v2
        have hopened : EscKept b { v0 with esc := { v1 with count := 0 } } := h.set ⟨rfl, rfl, rfl⟩
        have hv2 : EscKept b v2 := EscKept.ite h (hopened.raise _ _)
        exact EscKept.ite (hv2.enterSafe _ _) hv2
      · have hclosed : EscKept b { (s.wr Reg.ESCALATE.STATE.PENDING 0) with esc := { s.esc with count := 0 } } := h.set ⟨rfl, rfl, rfl⟩
        exact EscKept.ite ((hclosed.raise _ _).of_esc rfl) h

theorem EscKept.writeAlert (causes : Nat) : EscKept b (s.writeAlert causes) := by
  unfold State.writeAlert
  have hcells : EscKept b ((s.setCell 25 causes).cellBit 0 2 (causes != 0)) :=
    h.of_esc (by rw [State.cellBit, State.setCell_esc, State.setCell_esc])
  exact hcells.set ⟨rfl, rfl, rfl⟩

theorem EscKept.settle : EscKept b s.settle := by
  unfold State.settle State.alertUpdate
  have hlatched : EscKept b s.headerCheck.relatchAlarm :=
    h.headerCheck.of_moved (State.relatchAlarm_moved (Within.refl 8192) (Moved.refl _ _)) rfl
  have hjudged : EscKept b s.headerCheck.relatchAlarm.escEval.endEdge := hlatched.escEval.of_esc rfl
  have hpumped : EscKept b s.headerCheck.relatchAlarm.escEval.endEdge.pump :=
    hjudged.of_moved (State.pump_moved (Within.refl 222) (Moved.refl _ _)) rfl
  have hsent : EscKept b s.headerCheck.relatchAlarm.escEval.endEdge.pump.endEdge := hpumped.of_esc rfl
  exact EscKept.ite (EscKept.ite (hsent.writeAlert _) hsent) h

end

/-! Wakes. -/

/-- Every cause, a forced one among them, is latched beside those before it; the first one's code stands (R418). -/
theorem State.latchWake_latches {s : State} {k : Nat} (hv : s.power.vbak = true) (hk : k < 5) :
    bitAt ((s.latchWake k).cell 24) k = true ∧ (s.latchWake k).wakePending = true ∧
     (∀ j, j < 5 → bitAt (s.cell 24) j = true → bitAt ((s.latchWake k).cell 24) j = true) ∧
     (s.cell 24 % 32 = 0 → bitsOf ((s.latchWake k).cell 24) 8 3 = k) ∧
     (s.cell 24 % 32 ≠ 0 → bitsOf ((s.latchWake k).cell 24) 8 3 = bitsOf (s.cell 24) 8 3) := by
  have hbit {j : Nat} (hj : j < 5) : bitAt ((s.latchWake k).cell 24) j = (bitAt (s.cell 24) j || decide (k = j)) := by
    rw [State.latchWake_cause hv, bitAt_mod _ (by omega), wakeWord_bit _ hj]
  have hfirst : bitsOf ((s.latchWake k).cell 24) 8 3 = if s.cell 24 % 32 = 0 then k else bitsOf (s.cell 24) 8 3 := by
    rw [State.latchWake_cause hv, wakeWord_first _ hk]
  refine ⟨by simp [hbit hk], State.latchWake_pending hv, fun j hj h => by simp [hbit hj, h], fun h => ?_, fun h => ?_⟩
  · rw [hfirst, if_pos h]
  · rw [hfirst, if_neg h]

/-- The card as the WAKE pattern starts it: HOST_WAKE latched, shown and counted, SLEEPING clear. -/
def State.woken (s : State) : State := (((s.latchWake 0).writeAlert 4).raiseCell 27).cellBit 0 0 false

theorem State.woken_moved {T : Nat} (hT : Within 270336 T) (s : State) : Moved T s s.woken :=
  State.cellBit_moved (hT.mono rfl) (State.raiseCell_moved (hT.mono rfl) (State.writeAlert_moved hT
    (State.latchWake_moved (hT.mono rfl) (Moved.refl T s))))

theorem State.woken_latches {s : State} (hv : s.power.vbak = true) :
    bitAt (s.woken.cell 24) 0 = true ∧ s.woken.wakePending = true ∧ bitAt (s.woken.cell 0) 0 = false := by
  have hlatch : (s.latchWake 0).power.vbak = true := by simpa using hv
  have halert : (((s.latchWake 0).writeAlert 4).raiseCell 27).power.vbak = true := by simpa using hv
  obtain ⟨hcause, hpending, -⟩ := State.latchWake_latches (k := 0) hv (by decide)
  refine ⟨?_, ?_, ?_⟩
  · rw [State.woken, State.cell_cellBit_ne halert 0 false (by decide), State.raiseCell_cell_ne _ (by decide),
      State.writeAlert_cell_ne hlatch 4 (by decide) (by decide), hcause]
  · rw [State.wakePending, State.woken, State.cellBit_self halert 0 false (by decide), if_neg (by decide),
      State.raiseCell_cell_ne _ (by decide)]
    exact (State.writeAlert_wakePending hlatch 4).trans hpending
  · rw [State.woken, State.cellBit_self halert 0 false (by decide), if_pos rfl]

/-- A part of the stored records over a start from SLEEP. -/
theorem wakePattern_same (s : State) {p : Part} (h1 : (194).testBit (partBit p) = false) (h2 : (270336).testBit (partBit p) = false)
    (h3 : (6242292).testBit (partBit p) = false) (hs : ∀ x : State, p.Same (x.coreOff.dropVolatile) (x.sensed true false)) :
    p.Same s (s.woken.powerOnStart none true false) := by
  refine Part.same_trans ((s.woken_moved (Within.refl _)).same p h2) (Part.same_trans ?_ (State.powerOnStart_same _ none true false h1))
  refine Part.same_trans ?_ (hs _)
  exact (State.dropVolatile_moved (T := 6242292) (by unfold Within; decide) (State.coreOff_moved (by unfold Within; decide)
    (State.crustStarted_moved (by unfold Within; decide) s.woken none))).same p h3

/-- The causes left and WAKE_PENDING after a W1C. -/
theorem State.clearWake_clears {s : State} (hv : s.power.vbak = true) (m : Nat) :
    (∀ j, j < 5 → bitAt ((s.clearWake m).cell 24) j = (bitAt (s.cell 24) j && !bitAt m j)) ∧
      (s.clearWake m).wakePending = (s.wakePending && (s.clearWake m).cell 24 % 32 != 0) := by
  have hv1 : (s.setCell 24 (clearBits (s.cell 24) (m % 32))).power.vbak = true := by simpa using hv
  have hcell : (s.clearWake m).cell 24 = clearBits (s.cell 24) (m % 32) % 65536 := by
    unfold State.clearWake
    extract_lets x
    have hx : x.cell 24 = clearBits (s.cell 24) (m % 32) % 65536 := (State.cell_setCell s _ _ _ hv).trans (if_pos rfl)
    split
    · exact (State.cell_cellBit_ne hv1 1 false (by decide)).trans hx
    · exact hx
  refine ⟨fun j hj => ?_, ?_⟩
  · have hmask : bitAt (m % 32) j = bitAt m j := by
      rw [bitAt_eq_testBit, bitAt_eq_testBit, show (32 : Nat) = 2 ^ 5 from rfl, Nat.testBit_mod_two_pow, decide_eq_true hj, Bool.true_and]
    rw [hcell, bitAt_mod _ (by omega), bitAt_clearBits, hmask]
  · rw [hcell]
    unfold State.clearWake
    extract_lets x
    have hx : x.cell 24 = clearBits (s.cell 24) (m % 32) % 65536 := (State.cell_setCell s _ _ _ hv).trans (if_pos rfl)
    have hzero : x.cell 0 = s.cell 0 := s.cell_setCell_ne _ (by decide)
    rw [hx]
    split
    · rename_i h
      rw [State.wakePending, State.cellBit_self hv1 0 false (by decide), if_pos rfl, h]
      exact (Bool.and_false _).symm
    · rename_i h
      rw [State.wakePending, State.wakePending, hzero, (bne_iff_ne.2 h : (_ != _) = true), Bool.and_true]

/-- Settles O21: the latches of cells 0 and 24 under each row, and the start that the WAKE pattern makes. -/
theorem wake : Obligations.Wake := by
  refine ⟨fun s k _ hv hk => State.latchWake_latches hv hk, fun s hst => ?_, fun s hst => if_neg (by simpa using hst),
    fun s hk => ⟨_, moves_done (if_pos hk)⟩, fun s m met hk hv => ?_⟩
  · have hpower := State.powerOnStart_power s.woken none true false
    refine ⟨s.woken.powerOnStart none true false, if_pos (by rw [hst]; rfl), ?_, ?_, ?_, State.powerOnStart_cmds .., State.powerOnStart_origs ..,
      wakePattern_same s (p := .sleepA) rfl rfl rfl fun _ => rfl, wakePattern_same s (p := .sleepB) rfl rfl rfl fun _ => rfl, fun hv => ?_⟩
    · rw [hpower]
    · rw [hpower]
    · rw [hpower]
    · rw [State.wakePending, State.powerOnStart_cell _ _ _ rfl, State.powerOnStart_cell _ _ _ rfl]
      exact State.woken_latches hv
  · obtain ⟨hbits, hpending⟩ := State.clearWake_clears hv (clearBits m met)
    refine ⟨_, moves_done (if_pos hk), fun j hj => ?_, hpending⟩
    rw [hbits j hj, bitAt_clearBits]
    cases bitAt m j <;> cases bitAt met j <;> rfl

end Sys2Proof.Machine
end

section
/-!
SLEEP_COMMIT and the entry to SLEEP (R139, R154, R310, R373, R379, R413–R416).
-/
namespace Sys2Proof.Machine
open Sys2Proof.Safety

/-! SLEEP_COMMIT. -/

/-- The card IDLE again, with its round and the commit gone. -/
def State.commitFailed (s : State) : State :=
  let s := s.wr Reg.SHELF.SLEEP_STAT.STATE 0
  { s with shelf := { s.shelf with committing := none, armedBy := none } }

/-- The card committed to SLEEP, which ignores the mask of WAKE. -/
def State.commitTaken (s : State) : State :=
  let s : State := { s with shelf := { s.shelf with committing := none, committed := true } }
  { s with esc := { s.esc with ignoreMask := true } }

theorem sleepCommitComplete_fails {q : Nat} {s : State} {c : Cmd} (hw : AtWork s q c opCommit .waiting)
    (he : (s.earlier q).all (fun d => d.done?) = true) (hf : s.faultPending = true) :
    ∃ t, exec (.sleepCommitComplete q) s = .next t ∧ t.shelf.committing = none ∧ t.shelf.committed = s.shelf.committed ∧
      t.rd Reg.SHELF.SLEEP_STAT.STATE = 0 ∧ Fixed t c stFaultPending (completionFields c stFaultPending 0) := by
  have hexec : exec (.sleepCommitComplete q) s = .next (s.commitFailed.complete q stFaultPending).settle := by
    rw [exec_onCmd hw rfl, if_neg (by simp [he]), if_pos hf]
    rfl
  have hends := s.commitFailed.complete_ends q stFaultPending 0 0 0
  refine ⟨_, hexec, by rw [shelf_of_ends hends]; rfl, by rw [shelf_of_ends hends]; rfl, ?_,
    State.complete_fixed (s := s.commitFailed) (data := 0) hw.1 (isOpen_of_atWork hw (by decide))⟩
  rw [rd_over_ends hends rfl]
  exact State.rd_wr_of_lt (f := Reg.SHELF.SLEEP_STAT.STATE) (w := 2) (v := 0) _ rfl (by decide)

theorem sleepCommitComplete_takes {q : Nat} {s : State} {c : Cmd} (hw : AtWork s q c opCommit .waiting)
    (he : (s.earlier q).all (fun d => d.done?) = true) (hf : s.faultPending = false) :
    ∃ t, exec (.sleepCommitComplete q) s = .next t ∧ t.shelf.committing = none ∧ t.shelf.committed = true ∧ t.esc.ignoreMask = true ∧
      Fixed t c stOk (completionFields c stOk 0) := by
  have hexec : exec (.sleepCommitComplete q) s = .next (s.commitTaken.complete q stOk).settle := by
    rw [exec_onCmd hw rfl, if_neg (by simp [he]), if_neg (by simp [hf])]
    rfl
  have hends := s.commitTaken.complete_ends q stOk 0 0 0
  have hesc : EscKept s.commitTaken (s.commitTaken.complete q stOk).settle :=
    ((EscKept.refl _).of_moved (State.complete_moved (Within.refl 318) (Moved.refl _ _)) rfl).settle
  exact ⟨_, hexec, by rw [shelf_of_ends hends]; rfl, by rw [shelf_of_ends hends]; rfl, hesc.2.2,
    State.complete_fixed (s := s.commitTaken) (data := 0) hw.1 (isOpen_of_atWork hw (by decide))⟩

/-! The entry. -/

/-- The records of SLEEP on a card that has stored its maps. -/
theorem State.programRecord_records (s : State) : ∃ n m, s.programRecord.sleepA = some (s.sleepContent n) ∧
    s.programRecord.sleepB = some (s.sleepContent m) := by
  unfold State.programRecord
  split
  · exact ⟨_, _, rfl, rfl⟩
  · exact ⟨_, _, rfl, rfl⟩

theorem State.programRecord_same (s : State) {p : Part} (h : (49152).testBit (partBit p) = false) : p.Same s s.programRecord :=
  (State.programRecord_moved (Within.refl 49152) (Moved.refl _ s)).same p h

theorem State.crustForSleep_same (s : State) {p : Part} (h : (8192).testBit (partBit p) = false) : p.Same s s.crustForSleep :=
  (State.crustForSleep_moved (Within.refl 8192) (Moved.refl _ s)).same p h

/-- SLEEPING, and the Card address that the Crust keeps (R139). -/
theorem State.crustForSleep_cells {s : State} (hv : s.power.vbak = true) : bitAt (s.crustForSleep.cell 0) 0 = true ∧
    s.crustForSleep.cell 19 = (s.rd Reg.SHELF.ADDR.CARD_ADDR + 2 ^ 12 * s.rd Reg.SHELF.ADDR.ASSIGNED) % 65536 := by
  have hregs : ((s.cellBit 0 0 true).raiseCell 26).regs = s.regs := by
    rw [State.raiseCell, State.setCell_regs, State.cellBit, State.setCell_regs]
  have hrd (f : Field) : ((s.cellBit 0 0 true).raiseCell 26).rd f = s.rd f := by
    unfold State.rd
    rw [hregs]
  unfold State.crustForSleep
  extract_lets x
  have hx : x.power.vbak = true := by simpa [x] using hv
  refine ⟨?_, ?_⟩
  · rw [State.cell_setCell_ne _ _ (by decide), State.raiseCell_cell_ne _ (by decide), State.cellBit_self hv 0 true (by decide), if_pos rfl]
  · rw [State.cell_setCell _ _ _ _ hx, if_pos rfl, hrd, hrd]

/-- ALERT shows WAKE as the Crust's latch of it says. -/
theorem State.writeAlert_causes {s : State} (hv : s.power.vbak = true) {k : Nat} (hk : k < 65536) : (s.writeAlert k).cell 25 = k := by
  refine (State.cell_cellBit_ne (s := s.setCell 25 k) (by simpa using hv) 2 _ (by decide)).trans ?_
  rw [State.cell_setCell _ _ _ _ hv, if_pos rfl, Nat.mod_eq_of_lt hk]

/-- The card as it sleeps: what it stored, its records, the Crust, the latch of ALERT. -/
def State.stored (s : State) : State := s.writeBackAll.checkpointBatch

def State.asleep (s : State) : State :=
  let s := s.programRecord.crustForSleep
  let s := s.writeAlert (if s.wakePending then 4 else 0)
  { s with power := { s.power with st := .sleep, armed := false, brownArmed := false } }

theorem State.stored_same (s : State) {p : Part} (h : (2242).testBit (partBit p) = false) : p.Same s s.stored :=
  (State.checkpointBatch_moved (Within.refl 2242) (State.writeBackAll_moved (Within.refl 2242) (Moved.refl _ s))).same p h

theorem execSleepEntry_eq {s : State} (hk : s.clocked = true) (ha : s.commitAcked = true) (hd : s.diesIdle = true) (hj : s.flash.jobs = [])
    (hh : s.power.vholdOk = true) : exec .sleepEntry s = .next s.stored.asleep :=
  if_pos (by simp [hk, ha, hd, hj, hh])

/-- Registers and Originators stand over the entry. -/
theorem State.asleep_regs (s : State) : s.asleep.regs = s.regs := by
  have halert (x : State) (k : Nat) : (x.writeAlert k).regs = x.regs :=
    (State.writeAlert_moved (Within.refl 270336) (Moved.refl _ x)).same .regs rfl
  exact (halert _ _).trans (((s.programRecord.crustForSleep_same (p := .regs) rfl :)).trans (s.programRecord_same (p := .regs) rfl))

theorem State.asleep_cells {s : State} (hv : s.power.vbak = true) : bitAt (s.asleep.cell 0) 0 = true ∧
    s.asleep.cell 19 = (s.asleep.rd Reg.SHELF.ADDR.CARD_ADDR + 2 ^ 12 * s.asleep.rd Reg.SHELF.ADDR.ASSIGNED) % 65536 ∧
    s.asleep.cell 25 = (if s.asleep.wakePending then 4 else 0) := by
  have hrecord : s.programRecord.power.vbak = true := by rw [(s.programRecord_same (p := .power) rfl :), hv]
  have hcrust : s.programRecord.crustForSleep.power.vbak = true := by rw [(s.programRecord.crustForSleep_same (p := .power) rfl :), hrecord]
  obtain ⟨hsleeping, haddr⟩ := State.crustForSleep_cells hrecord
  have hrd (f : Field) : s.asleep.rd f = s.programRecord.rd f := by
    unfold State.rd
    rw [State.asleep_regs, (s.programRecord_same (p := .regs) rfl :)]
  have hcell (m : Nat) : s.asleep.cell m =
      (s.programRecord.crustForSleep.writeAlert (if s.programRecord.crustForSleep.wakePending then 4 else 0)).cell m := rfl
  refine ⟨?_, ?_, ?_⟩
  · rw [hcell, State.writeAlert_bit hcrust _ (by decide) (by decide), hsleeping]
  · rw [hcell, State.writeAlert_cell_ne hcrust _ (by decide) (by decide), haddr, hrd, hrd]
  · have hpending : s.asleep.wakePending = s.programRecord.crustForSleep.wakePending := State.writeAlert_wakePending hcrust _
    rw [hcell, hpending]
    exact State.writeAlert_causes hcrust (by split <;> decide)

theorem State.asleep_records (s : State) : ∃ n m, s.asleep.sleepA = some (s.sleepContent n) ∧ s.asleep.sleepB = some (s.sleepContent m) := by
  obtain ⟨n, m, ha, hb⟩ := s.programRecord_records
  have halert (x : State) (k : Nat) {p : Part} (h : (270336).testBit (partBit p) = false) : p.Same x (x.writeAlert k) :=
    (State.writeAlert_moved (Within.refl 270336) (Moved.refl _ x)).same p h
  refine ⟨n, m, Eq.trans ?_ ha, Eq.trans ?_ hb⟩
  · exact (halert _ _ (p := .sleepA) rfl).trans (s.programRecord.crustForSleep_same (p := .sleepA) rfl)
  · exact (halert _ _ (p := .sleepB) rfl).trans (s.programRecord.crustForSleep_same (p := .sleepB) rfl)

/-- Settles O20: SLEEP_COMMIT by the round it names and by what is pending, and what the entry stores. -/
theorem sleepCommitAndEntry : Obligations.SleepCommitAndEntry := by
  refine ⟨fun q s c hw => ⟨fun hc => ?_, fun hc => ?_⟩, fun q s c hw he => ⟨_, moves_of hw rfl (if_pos (by simp [he]))⟩,
    fun q s c hw he => ⟨sleepCommitComplete_fails hw he, sleepCommitComplete_takes hw he⟩, fun s hk ha hd hj hh hv => ?_⟩
  · exact ⟨_, moves_of hw rfl (if_pos (by simp [hc]))⟩
  · exact ⟨_, finishes_of hw (by decide) rfl (if_neg (by simpa using hc)) hw.1⟩
  · have hvs : s.stored.power.vbak = true := by rw [(s.stored_same (p := .power) rfl :), hv]
    have horigs : s.stored.origs = s.origs := s.stored_same (p := .origs) rfl
    obtain ⟨hsleeping, haddr, halert⟩ := State.asleep_cells hvs
    obtain ⟨n, m, hA, hB⟩ := s.stored.asleep_records
    refine ⟨_, execSleepEntry_eq hk ha hd hj hh, rfl, hsleeping, haddr, halert, _, _, hA, hB, rfl, rfl, ?_, rfl, rfl, rfl, ?_, rfl⟩
    · rw [← horigs]
      rfl
    · unfold State.rd
      rw [State.asleep_regs]
      rfl

end Sys2Proof.Machine
end

section
/-!
The option store's registers (R366), fuse programming (R478, R479) and the test access port (R449–R451).
-/
namespace Sys2Proof.Machine
open Sys2Proof.Safety

/-! The option store. -/

/-- The card as the write of a copy ends: the copy, which is good or left in doubt, and what the registers say of it. -/
def State.commitEnded (s : State) (good toB : Bool) (m : Store) : State :=
  let o := if good then (if toB then { s.opt with copyB := m } else { s.opt with copyA := m }) else s.opt
  (({ s with opt := { o with commit := none } } : State).wr Reg.OPTION.OTHER.VALID (bit01 good)).wr Reg.OPTION.COMMIT.RESULT (if good then 1 else 3)

theorem State.commitDone_eq {s : State} {toB : Bool} {m : Store} (hc : s.opt.commit = some (toB, m)) (good : Bool) :
    s.commitDone good = (s.commitEnded good toB m).raise Evt.OPTION.COMMIT_DONE := by
  unfold State.commitDone
  rw [hc]
  rfl

theorem State.commitEnded_rd (s : State) (good toB : Bool) (m : Store) :
    (s.commitEnded good toB m).rd Reg.OPTION.COMMIT.RESULT = (if good then 1 else 3) ∧
      (s.commitEnded good toB m).rd Reg.OPTION.OTHER.VALID = bit01 good := by
  refine ⟨State.rd_wr_of_lt (f := Reg.OPTION.COMMIT.RESULT) (w := 2) _ rfl (by split <;> decide), ?_⟩
  exact (State.rd_wr_other _ _ rfl).trans (State.rd_wr_bit (f := Reg.OPTION.OTHER.VALID) _ rfl (bit01_le good))

theorem State.commitEnded_copy (s : State) (toB : Bool) (m : Store) :
    (if toB then (s.commitEnded true toB m).opt.copyB else (s.commitEnded true toB m).opt.copyA) = m := by
  cases toB <;> rfl

/-- The registers as an accepted COMMIT.GO leaves them. -/
theorem State.commitStarted_rd (s : State) :
    ((s.wr Reg.OPTION.COMMIT.RESULT 0).wr Reg.OPTION.OTHER.VALID 0).rd Reg.OPTION.COMMIT.RESULT = 0 :=
  (State.rd_wr_other _ _ rfl).trans (State.rd_wr_of_lt (f := Reg.OPTION.COMMIT.RESULT) (w := 2) (v := 0) _ rfl (by decide))

/-- Settles O57: STAGE.LOAD, the three outcomes of COMMIT.GO and the two of its end. -/
theorem optionStoreRows : Obligations.OptionStoreRows := by
  refine fun s hk => ⟨⟨_, moves_done (if_pos hk)⟩, fun hc ha => ?_, fun hc ha => ?_, fun hc => ?_, fun good toB m hc => ?_⟩
  · have hgo : s.commitGo = (s.wr Reg.OPTION.COMMIT.RESULT 2).raise Evt.OPTION.COMMIT_DONE := by
      unfold State.commitGo
      rw [if_neg (by simp [hc]), if_neg (by simp [ha])]
    have hends := s.commitGo.settle_ends_self
    refine ⟨_, if_pos hk, ?_, ?_⟩
    · rw [rd_over_ends hends rfl, hgo, State.rd_raise _ _ _ rfl]
      exact State.rd_wr_of_lt (f := Reg.OPTION.COMMIT.RESULT) (w := 2) (v := 2) _ rfl (by decide)
    · rw [opt_of_ends hends, hgo]
      exact State.raise_same (s.wr Reg.OPTION.COMMIT.RESULT 2) Evt.OPTION.COMMIT_DONE 0 (p := .opt) rfl
  · have hends := s.commitGo.settle_ends_self
    have hgo : s.commitGo.rd Reg.OPTION.COMMIT.RESULT = 0 ∧
        s.commitGo.opt.commit = some (decide (s.rd Reg.OPTION.IN_FORCE.COPY = 0), s.opt.staging) := by
      unfold State.commitGo
      rw [if_neg (by simp [hc]), if_pos ha]
      exact ⟨s.commitStarted_rd, rfl⟩
    exact ⟨_, if_pos hk, (rd_over_ends hends rfl).trans hgo.1, (congrArg OptionStore.commit (opt_of_ends hends)).trans hgo.2⟩
  · have hgo : s.commitGo = s := if_pos (by simpa [Option.isSome_iff_ne_none] using hc)
    have hexec : exec .optionCommit s = s.commitGo.done := if_pos hk
    rw [hgo] at hexec
    exact ⟨_, moves_done hexec⟩
  · have hends := (s.commitDone good).settle_ends_self
    have hopt : (s.commitDone good).settle.opt = (s.commitEnded good toB m).opt := by
      rw [opt_of_ends hends, State.commitDone_eq hc]
      exact State.raise_same _ _ _ (p := .opt) rfl
    have hrd {f : Field} (hf : f.offEnd = true) : (s.commitDone good).settle.rd f = (s.commitEnded good toB m).rd f := by
      rw [rd_over_ends hends hf, State.commitDone_eq hc, State.rd_raise _ _ _ hf]
    obtain ⟨hresult, hvalid⟩ := s.commitEnded_rd good toB m
    refine ⟨_, if_pos hk, ?_, (hrd rfl).trans hresult, (hrd rfl).trans hvalid, fun hg => ?_⟩
    · rw [hopt]
      rfl
    · subst hg
      rw [hopt]
      exact s.commitEnded_copy toB m

/-! Fuses. -/

/-- GO on the registers of its operation, with the fields that land beside it. -/
theorem State.fuseGo_starts {x : State} {g : FuseTarget} {k : Nat} (hftm : x.ftm = true) (hbusy : x.fuses.busy = none)
    (hfast : x.link.fast = false) (hk : k = 0x5A) (hr : x.fuseReady g = true) :
    x.fuseGo g k false = { (x.wr g.result 0) with fuses := { x.fuses with busy := some g, pulse := 256 * g.bits } } := by
  unfold State.fuseGo
  simp only [hbusy, hftm, hfast, hk, hr]
  rfl

theorem State.fuseGo_rejects {x : State} {g : FuseTarget} {k : Nat} (hbusy : x.fuses.busy = none)
    (h : x.link.fast = true ∨ k ≠ 0x5A ∨ x.fuseReady g = false) : x.fuseGo g k false = x.wr g.result 2 := by
  unfold State.fuseGo
  simp only [hbusy]
  refine (if_neg Bool.false_ne_true).trans (if_pos ?_)
  rcases h with h | h | h <;> simp [h]

/-- RESULT of either register: two bits off the end of a step. -/
theorem FuseTarget.result_form (g : FuseTarget) : g.result.mask = ones 2 ∧ g.result.offEnd = true := by
  unfold FuseTarget.result
  split <;> exact ⟨rfl, rfl⟩

/-- The card as GO finds it: only the fields that landed beside GO have moved. -/
def FuseEntry (s x : State) : Prop := x.fuses = s.fuses ∧ x.power = s.power ∧ x.link = s.link

theorem FuseEntry.wr {s x : State} (h : FuseEntry s x) (f : Field) (v : Nat) : FuseEntry s (x.wr f v) := h

theorem FuseEntry.ready {s x : State} (h : FuseEntry s x) (g : FuseTarget) : x.fuseReady g = s.fuseReady g := by
  unfold State.fuseReady
  rw [h.1]

/-- Each of the four commands is a GO for its target, on the card with the fields that land beside it. -/
theorem exec_fuseGo {i : Instr} {g : FuseTarget} {k : Nat} {s : State} (hk : s.clocked = true) (hftm : s.ftm = true)
    (hi : (∃ e c, e ≤ 359 ∧ c < 8 ∧ k < 256 ∧ i = .fuseProgram e c k ∧ g = .entry e c) ∨ (k < 256 ∧ i = .testSeal k ∧ g = .seal) ∨
      (∃ n, n < 4 ∧ k < 256 ∧ i = .keyProgram n k ∧ g = .key n s.keyDigest) ∨
      (∃ n, n < 4 ∧ k < 256 ∧ i = .keyRevoke n k ∧ g = .revoke n)) :
    ∃ x, FuseEntry s x ∧ exec i s = (x.fuseGo g k false).done := by
  have hclock : (s.clocked && s.ftm) = true := by rw [hk, hftm]; rfl
  rcases hi with ⟨e, c, he, hc, hlt, rfl, rfl⟩ | ⟨hlt, rfl, rfl⟩ | ⟨n, hn, hlt, rfl, rfl⟩ | ⟨n, hn, hlt, rfl, rfl⟩
  · refine ⟨(((s.wr Reg.TEST.FUSE_PROG.ENTRY e).wr Reg.TEST.FUSE_PROG.CODE c).wr Reg.TEST.FUSE_PROG.SEAL 0).wr Reg.TEST.FUSE_PROG.CONFIRM k,
      ⟨rfl, rfl, rfl⟩, ?_⟩
    change execFuseProgram e c k s = _
    unfold execFuseProgram
    rw [if_pos (by simp [hk, hftm, he]), Nat.mod_eq_of_lt hc, Nat.mod_eq_of_lt hlt]
  · refine ⟨(s.wr Reg.TEST.FUSE_PROG.SEAL 1).wr Reg.TEST.FUSE_PROG.CONFIRM k, ⟨rfl, rfl, rfl⟩, ?_⟩
    change execTestSeal k s = _
    unfold execTestSeal
    rw [if_pos hclock, Nat.mod_eq_of_lt hlt]
  · refine ⟨s.keyFields n 0 k, ⟨rfl, rfl, rfl⟩, ?_⟩
    change execKeyProgram n k s = _
    unfold execKeyProgram
    rw [if_pos hclock, Nat.mod_eq_of_lt hn, Nat.mod_eq_of_lt hlt]
  · refine ⟨s.keyFields n 1 k, ⟨rfl, rfl, rfl⟩, ?_⟩
    change execKeyRevoke n k s = _
    unfold execKeyRevoke
    rw [if_pos hclock, Nat.mod_eq_of_lt hn, Nat.mod_eq_of_lt hlt]

/-- The card as the sense after the last pulse leaves it. -/
theorem State.fuseDone_eq {s : State} {g : FuseTarget} (hb : s.fuses.busy = some g) (good : Bool) : s.fuseDone good =
    ({ s with fuses := { s.fuses.blow g (if good then ones 257 else Config.cutPulse s.draws) with busy := none, pulse := 0 }
              draws := if good then s.draws else s.draws + 1 } : State).wr g.result (if good then 1 else 3) := by
  unfold State.fuseDone
  rw [hb]

/-- Settles O58: each GO is `State.fuseGo` for its target, refused without factory test mode; the pulses end in `State.fuseDone`. -/
theorem fuseRows : Obligations.FuseRows := by
  refine ⟨fun i g k s hk hftm hi hbusy => ?_, fun e c k s hftm => ?_, fun good g s hk hb => ?_, fun on s hk hftm => ?_⟩
  · obtain ⟨x, hx, hexec⟩ := exec_fuseGo hk hftm hi
    obtain ⟨hfuses, hpower, hlink⟩ := id hx
    have hxbusy : x.fuses.busy = none := by rw [hfuses, hbusy]
    obtain ⟨hmask, hoff⟩ := g.result_form
    refine ⟨fun hfast hconf hr => ?_, fun hno => ?_⟩
    · have hgo := State.fuseGo_starts (x := x) (g := g) (k := k) (by rw [State.ftm, hpower]; exact hftm) hxbusy (by rw [hlink, hfast]) hconf
        (by rw [hx.ready, hr])
      rw [hgo] at hexec
      have hends := State.settle_ends_self { (x.wr g.result 0) with fuses := { x.fuses with busy := some g, pulse := 256 * g.bits } }
      refine ⟨_, hexec, by rw [fuses_of_ends hends], by rw [fuses_of_ends hends], ?_, ?_, ?_⟩
      · exact (rd_over_ends hends hoff).trans (State.rd_wr_of_lt x hmask (by decide))
      · rw [fuses_of_ends hends, ← hfuses]
      · rw [fuses_of_ends hends, ← hfuses]
    · rw [State.fuseGo_rejects hxbusy (by rw [hlink, hx.ready]; exact hno)] at hexec
      have hends := (x.wr g.result 2).settle_ends_self
      exact ⟨_, hexec, (fuses_of_ends hends).trans hfuses, (rd_over_ends hends hoff).trans (State.rd_wr_of_lt x hmask (by decide))⟩
  · exact ⟨if_neg (by simp [hftm]), if_neg (by simp [hftm]), if_neg (by simp [hftm]), if_neg (by simp [hftm]), if_neg (by simp [hftm])⟩
  · obtain ⟨hmask, hoff⟩ := g.result_form
    have hends := (s.fuseDone good).settle_ends_self
    have heq := State.fuseDone_eq hb good
    refine ⟨_, if_pos hk, ?_, ?_, fun hg => ?_⟩
    · rw [fuses_of_ends hends, heq]
      rfl
    · rw [rd_over_ends hends hoff, heq]
      exact State.rd_wr_of_lt _ hmask (by split <;> decide)
    · subst hg
      rw [fuses_of_ends hends, heq]
      rfl
  · have hexec : exec (.wdStop on) s = (s.wr Reg.TEST.WD_CTRL.STOP (bit01 on)).done := if_pos (by simp [hk, hftm])
    refine ⟨_, moves_done hexec, (State.rd_settle _ rfl).trans (State.rd_wr_bit _ rfl (bit01_le on))⟩

/-! The test access port. -/

theorem State.tapSelect_only (s : State) (k : TapInstr) (captured : Nat) : Only [.tap] s (s.tapSelect k captured) := by
  unfold State.tapSelect
  intro p hp
  dsimp only
  split
  · cases p <;> rfl
  · split <;> cases p <;> simp_all [Part.Same]

/-- EXTEST, HIGHZ and CLAMP act as BYPASS outside factory test mode. -/
theorem State.tapSelect_instr {s : State} (h : s.tapPowered = true) (k : TapInstr) (captured : Nat) : (s.tapSelect k captured).tap.instr =
    (if s.ftm = false ∧ (k = .extest ∨ k = .highz ∨ k = .clamp) then .bypass else k) := by
  unfold State.tapSelect
  simp only [h]
  cases s.ftm <;> cases k <;> rfl

theorem State.tapSelect_unpowered {s : State} (h : s.tapPowered = false) (k : TapInstr) (captured : Nat) : s.tapSelect k captured = s :=
  if_pos (by simp [h])

/-- Each of the six instructions selects one on the port, with what it captures. -/
theorem exec_tapSelect {i : Instr} {k : TapInstr} {s : State} (hi : (i = .extest ∧ k = .extest) ∨ (i = .highz ∧ k = .highz) ∨
      (i = .clamp ∧ k = .clamp) ∨ (i = .idcode ∧ k = .idcode) ∨ (i = .bypass ∧ k = .bypass) ∨ (i = .trstN ∧ k = .idcode)) :
    ∃ captured, exec i s = .next (s.tapSelect k captured) := by
  rcases hi with ⟨rfl, rfl⟩ | ⟨rfl, rfl⟩ | ⟨rfl, rfl⟩ | ⟨rfl, rfl⟩ | ⟨rfl, rfl⟩ | ⟨rfl, rfl⟩
  · exact ⟨_, rfl⟩
  · exact ⟨_, rfl⟩
  · exact ⟨_, rfl⟩
  · exact ⟨_, rfl⟩
  · exact ⟨_, rfl⟩
  · refine ⟨s.idCode, ?_⟩
    change execTrstN s = _
    unfold execTrstN State.tapSelect
    cases s.tapPowered <;> rfl

/-- The three cells of ball `a`. -/
theorem testBit_ballCells (a : Nat) {e j : Nat} (hj : j < 3) : (7 * 2 ^ (3 * a)).testBit (3 * e + j) = decide (a = e) := by
  have hseven : (7 : Nat) = 2 ^ 3 - 1 := rfl
  rw [← Nat.shiftLeft_eq, Nat.testBit_shiftLeft, hseven, Nat.testBit_two_pow_sub_one, ← Bool.decide_and]
  exact decide_eq_decide.2 ⟨fun h => by omega, fun h => by omega⟩

/-- The cells of the balls from `a` on that `f` does not leave out, three to a ball, and none below those of ball `a`. -/
theorem bitAt_cells (f : Nat → Bool) (n a : Nat) {e j : Nat} (hj : j < 3) :
    (sumBy (fun e => if f e then 0 else 7 * 2 ^ (3 * e)) (rangeFrom a n)).testBit (3 * e + j) = (decide (a ≤ e ∧ e < a + n) && !f e) ∧
      2 ^ (3 * a) ∣ sumBy (fun e => if f e then 0 else 7 * 2 ^ (3 * e)) (rangeFrom a n) := by
  induction n generalizing a with
  | zero => exact ⟨by simp [rangeFrom, sumBy], by simp [rangeFrom, sumBy]⟩
  | succ n ih =>
    obtain ⟨hbit, m, hm⟩ := ih (a + 1)
    have hlt : (if f a then 0 else 7 * 2 ^ (3 * a)) < 2 ^ (3 * (a + 1)) := by
      have hpos : 0 < 2 ^ (3 * a) := Nat.two_pow_pos _
      rw [Nat.mul_add, Nat.pow_add]
      split <;> omega
    have hself : (if f a then 0 else 7 * 2 ^ (3 * a)).testBit (3 * e + j) = (decide (a = e) && !f a) := by
      cases f a with
      | true => simp
      | false => simpa using testBit_ballCells a hj
    rw [rangeFrom, sumBy]
    refine ⟨?_, ?_⟩
    · rw [hm, Nat.add_comm, Nat.two_pow_add_eq_or_of_lt hlt, Nat.testBit_or, ← hm, hbit, hself]
      by_cases he : a = e
      · subst he
        simp
      · have hrest : (a + 1 ≤ e ∧ e < a + 1 + n) ↔ (a ≤ e ∧ e < a + (n + 1)) := by omega
        rw [decide_eq_false he, Bool.false_and, Bool.or_false, decide_eq_decide.2 hrest]
    · refine Nat.dvd_add ?_ (hm ▸ Dvd.dvd.mul_right (pow_dvd_pow 2 (by omega)) m)
      split
      · exact Nat.dvd_zero _
      · exact Nat.dvd_mul_left _ _

/-- SAMPLE/PRELOAD captures the levels, and 0 for the balls of absent channels (R451). -/
theorem State.presentCells_captures (s : State) (l : Nat) {e j : Nat} (he : e < 360) (hj : j < 3) :
    bitAt ((l % 2 ^ 1080) &&& s.presentCells) (3 * e + j) = (bitAt l (3 * e + j) && !s.entryAbsent e) := by
  have hcell := (bitAt_cells s.entryAbsent 360 0 (e := e) hj).1
  rw [bitAt_eq_testBit, bitAt_eq_testBit, Nat.testBit_and, Nat.testBit_mod_two_pow, decide_eq_true (by omega), Bool.true_and,
    State.presentCells, hcell, decide_eq_true (by omega), Bool.true_and]

/-- Settles O60: the instruction selected, what is captured, and that nothing but the port changes. -/
theorem testPort : Obligations.TestPort := by
  refine ⟨fun i k s hi => ?_, fun l s => ⟨fun h => ?_, fun h => if_neg (by simp [h])⟩⟩
  · obtain ⟨captured, hexec⟩ := exec_tapSelect hi
    refine ⟨fun h => ⟨_, hexec, s.tapSelect_only k captured, State.tapSelect_instr h k captured⟩, fun h => ?_⟩
    rw [hexec, State.tapSelect_unpowered h]
  · refine ⟨_, if_pos h, fun p hp => ?_, rfl, rfl, fun e j he hj => s.presentCells_captures l he hj⟩
    cases p <;> simp_all [Part.Same]

end Sys2Proof.Machine
end

section
/-!
Fault sources that err, what their errors spoil, and injection (R45, R47, R249, R280, R370, R371, R383–R386).
-/
namespace Sys2Proof.Machine
open Sys2Proof.Safety

/-- The Safe state is in force behind its entry, whatever the cause. -/
theorem State.enterSafe_safe (s : State) (kind : Nat) (x : Source) : (s.enterSafe kind x).safe = true := by
  cases h : s.safe with
  | true => rw [State.enterSafe_of_safe h, h]
  | false =>
    have hentry : (s.safeEntry kind x).rd Reg.ESCALATE.STATE.SAFE = 1 := by
      rw [State.safeEntry, State.rd_bump_other _ _ rfl, State.rd_wr_other _ _ rfl, State.rd_wr_other _ _ rfl, State.rd_wr_other _ _ rfl,
        State.rd_wr_other _ _ rfl]
      change ((s.wr Reg.ESCALATE.STATE.SAFE 1).wr Reg.ESCALATE.STATE.PENDING 0).rd Reg.ESCALATE.STATE.SAFE = 1
      rw [State.rd_wr_other _ _ rfl, s.rd_wr_of_lt (w := 1) rfl (by decide)]
    rw [State.enterSafe_of_not_safe h, State.safe, State.bit, State.endDataPhases_rd _ rfl, hentry]
    rfl

/-! Reports. -/

/-- A report as its sticky bit and its attention leave the card, before a forced source enters the Safe state. -/
def State.reported (s : State) (src : Nat × Nat) (bank : Nat) : State :=
  let b := bankOf src.1 bank
  let f := faultSticky src.1 b
  if bitAt (s.rd (faultEnable src.1 b)) src.2 && !bitAt (s.rd f) src.2 then
    let x := s.wr f (s.rd f + 2 ^ src.2)
    if bitsOf (x.rd (faultAction src.1 b)) (2 * src.2) 2 = 1 then x.post (x.stickyEntry .fault src.1 b src.2) else x
  else s

theorem State.report_eq (s : State) (src : Nat × Nat) (bank : Nat) (force : Bool) : s.report src bank force =
    if force || Machine.forcedSource src.1 src.2 then (s.reported src bank).enterSafe 4 (src.1, bankOf src.1 bank, src.2) else s.reported src bank := rfl

section
variable {s : State} {page bank bit : Nat}

theorem State.report_unforced (hf : Machine.forcedSource page bit = false) : s.report (page, bit) bank false = s.reported (page, bit) bank := by
  rw [State.report_eq]
  exact if_neg (by simp [hf])

/-- Without an action that posts, a rising sticky bit is all. -/
theorem State.reported_rises (he : bitAt (s.rd (faultEnable page (bankOf page bank))) bit = true)
    (hv : bitAt (s.rd (faultSticky page (bankOf page bank))) bit = false)
    (ha : bitsOf (s.rd (faultAction page (bankOf page bank))) (2 * bit) 2 ≠ 1) :
    s.reported (page, bit) bank = s.wr (faultSticky page (bankOf page bank)) (s.rd (faultSticky page (bankOf page bank)) + 2 ^ bit) := by
  refine (if_pos (by rw [he, hv]; rfl)).trans (if_neg ?_)
  rw [State.rd_wr_ne _ _ _ _ (Field.key_ne (by simp [faultAction, faultSticky, hdrField]))]
  exact ha

theorem State.reported_stands (h : bitAt (s.rd (faultEnable page (bankOf page bank))) bit = false ∨
    bitAt (s.rd (faultSticky page (bankOf page bank))) bit = true) : s.reported (page, bit) bank = s :=
  if_neg (by rcases h with h | h <;> simp [h])

theorem State.report_forced {force : Bool} (h : force = true ∨ Machine.forcedSource page bit = true) :
    (s.report (page, bit) bank force).safe = true := by
  rw [State.report_eq, if_pos (by rcases h with h | h <;> simp [h])]
  exact State.enterSafe_safe _ _ _

end

/-! What an error spoils. -/

theorem State.mapError_resident (s : State) (i idx j k : Nat) : (s.mapError i idx).resident j k =
    (s.resident j k && decide ((j, k) ≠ (i, idx))) := by
  unfold State.mapError State.resident State.onMap State.onFlash
  dsimp only
  rw [List.any_filter]
  by_cases hjk : (j, k) = (i, idx)
  · obtain ⟨rfl, rfl⟩ := Prod.mk.inj hjk
    rw [decide_eq_false (by simp), Bool.and_false, List.any_eq_false]
    intro p _
    rw [Bool.not_and_self]
    decide
  · have hne : ∀ p : CachedPage, (p.slice == j && p.idx == k) = true → (p.slice == i && p.idx == idx) = false := by
      intro p hp
      simp only [Bool.and_eq_true, beq_iff_eq] at hp
      obtain ⟨rfl, rfl⟩ := hp
      simpa [Prod.ext_iff] using hjk
    rw [decide_eq_true hjk, Bool.and_true]
    refine congrArg (fun f => s.flash.map.cache.any f) (funext fun p => ?_)
    cases hp : p.slice == j && p.idx == k with
    | false => exact Bool.and_false _
    | true => rw [hne p hp]; rfl

theorem onFlash_only (s : State) (f : Flash → Flash) : Only [.flash] s (s.onFlash f) :=
  (State.onFlash_moved (T := partsOf [.flash]) (by unfold Within; decide) (Moved.refl _ s)).agree.only fun _ => partsOf_testBit_of_not_mem

/-- A map page in error is given up; one that was dirty stands as failed. -/
theorem mapError_spoils (s : State) (i idx : Nat) : Only [.flash] s (s.errorAt 0x0C 0 (some (i, idx))) ∧
    (s.errorAt 0x0C 0 (some (i, idx))).resident i idx = false ∧
    (∀ j k, (j, k) ≠ (i, idx) → (s.errorAt 0x0C 0 (some (i, idx))).resident j k = s.resident j k) ∧
    (s.mapDirty i idx = true → ∀ lba, lba / 1024 = idx → (s.errorAt 0x0C 0 (some (i, idx))).pageFailed i lba = true) ∧
    (s.mapDirty i idx = false → (s.errorAt 0x0C 0 (some (i, idx))).flash.map.failed = s.flash.map.failed) := by
  have herr : s.errorAt 0x0C 0 (some (i, idx)) = s.mapError i idx := rfl
  have hfailed : (s.mapError i idx).flash.map.failed = if s.mapDirty i idx then s.flash.map.failed ++ [(i, idx)] else s.flash.map.failed := rfl
  rw [herr]
  refine ⟨onFlash_only _ _, ?_, fun j k h => ?_, fun hd lba hl => ?_, fun hd => ?_⟩
  · rw [State.mapError_resident]
    simp
  · rw [State.mapError_resident, decide_eq_true h, Bool.and_true]
  · rw [State.pageFailed, hfailed, if_pos hd, hl]
    simp
  · rw [hfailed, if_neg (by simp [hd])]

/-- The parity buffer of a stripe in error is discarded. -/
theorem bufferError_spoils (s : State) (i n : Nat) : Only [.flash] s (s.errorAt 0x0E 0 (some (i, n))) ∧
    ∀ v ∈ (s.errorAt 0x0E 0 (some (i, n))).flash.versions, v.sb = i → v.stripe = n → v.cached = false := by
  have herr : s.errorAt 0x0E 0 (some (i, n)) = s.bufferError i n := rfl
  rw [herr]
  refine ⟨onFlash_only _ _, fun v hv hsb hst => ?_⟩
  rcases mem_mapIf (show v ∈ mapIf (fun v : Version => v.sb == i && v.stripe == n) _ s.flash.versions from hv) with ⟨-, hno⟩ | ⟨w, -, -, rfl⟩
  · rw [hsb, hst] at hno
    simp at hno
  · rfl

/-! Injection. -/

theorem injectable_bounds {page bit : Nat} (h : injectable page bit = true) : page < 2 ^ 8 ∧ bit < 2 ^ 5 := by
  simp only [injectable, assignedSource, Bool.and_eq_true, Bool.or_eq_true, decide_eq_true_eq, beq_iff_eq] at h
  omega

/-- Registers off the end of a step stand over an injection. -/
theorem State.inject_rd (s : State) (page bank bit : Nat) {f : Field} (hf : f.offEnd = true) : (s.inject page bank bit).rd f = s.rd f := by
  unfold State.inject
  split
  · rfl
  · split
    · rfl
    · exact (State.report_tail (Tail.refl s)).rd hf

/-- The card with the fields of INJECT written. -/
def State.injectFields (s : State) (page bank bit : Nat) : State :=
  ((s.wr Reg.TEST.INJECT.PAGE page).wr Reg.TEST.INJECT.BANK bank).wr Reg.TEST.INJECT.BIT bit

theorem State.injectFields_rd (s : State) (bank : Nat) {page bit : Nat} (hp : page < 2 ^ 8) (hb : bit < 2 ^ 5) :
    (s.injectFields page bank bit).rd Reg.TEST.INJECT.PAGE = page ∧ (s.injectFields page bank bit).rd Reg.TEST.INJECT.BIT = bit := by
  refine ⟨?_, State.rd_wr_of_lt (f := Reg.TEST.INJECT.BIT) (w := 5) _ rfl hb⟩
  exact (State.rd_wr_other _ _ rfl).trans ((State.rd_wr_other _ _ rfl).trans
    (State.rd_wr_of_lt (f := Reg.TEST.INJECT.PAGE) (w := 8) _ rfl hp))

/-- The header parity that an injection at bit 31 inverts. -/
theorem State.inject_parity {s : State} {page : Nat} (bank : Nat) (hlo : 1 ≤ page) (hhi : page ≤ 0x27) (ha : s.chanAbsent page = false) :
    (s.inject page bank 31).esc.hdrBad = if s.esc.hdrBad.contains (page, bankOf page bank, 1) then s.esc.hdrBad.erase (page, bankOf page bank, 1)
      else (page, bankOf page bank, 1) :: s.esc.hdrBad := by
  have hinj : injectable page 31 = true := by simp [injectable, hlo, hhi]
  unfold State.inject
  rw [if_neg (by simp [hinj, ha]), if_pos rfl]

/-- The card with a header register that mismatches its parity. -/
def State.parityBad (s : State) (x : Nat × Nat × Nat) : State :=
  { s with esc := { s.esc with hdrBad := if s.esc.hdrBad.contains x then s.esc.hdrBad else x :: s.esc.hdrBad } }

theorem State.parityBad_contains (s : State) (x : Nat × Nat × Nat) : (s.parityBad x).esc.hdrBad.contains x = true := by
  change (if s.esc.hdrBad.contains x then s.esc.hdrBad else x :: s.esc.hdrBad).contains x = true
  split
  · assumption
  · simp

theorem State.parityBad_only (s : State) (x : Nat × Nat × Nat) : Only [.esc] s (s.parityBad x) := by
  intro p hp
  cases p <;> simp_all [Part.Same, State.parityBad]

/-- Settles O55: the report by enable, action and what forces it, the three places that an error spoils, and injection. -/
theorem faultSources : Obligations.FaultSources := by
  refine ⟨fun page bank bit place s hk hbit hmask => ?_, mapError_spoils, bufferError_spoils, fun s k n _ hk8 => ?_,
    fun page bank bit s hk => ?_, fun page bank s hlo hhi ha => ?_, fun page bank index s hk hpage hindex => ?_⟩
  · intro b v forced
    have hassigned : assignedSource page bit = true := by simp [assignedSource, hbit, hmask]
    refine ⟨fun hr => ⟨_, moves_done (if_pos (by simp [hk, hassigned, hr]))⟩, fun hr => if_neg (by simp [hr]),
      fun hf hs he hv ha => ?_, fun hf hs h => ?_, fun h => State.report_forced h⟩
    · rw [hf, State.report_unforced hs]
      exact State.reported_rises he hv ha
    · rw [hf, State.report_unforced hs]
      exact State.reported_stands h
  · have herr : s.errorAt 0x27 0 (some (k, n)) = s.wr (Reg.DEBUG.SCRATCH.DATA.plus k) 0 :=
      if_pos (c := 0x27 = 0x27 ∧ 0 = 0 ∧ k < 8) ⟨rfl, rfl, hk8⟩
    rw [herr]
    exact ⟨(State.rd_wr_self _ _ _).trans (Nat.zero_and _), rfl⟩
  · refine ⟨fun hftm hinj => ?_, fun h => if_neg (by rcases h with h | h <;> simp [h])⟩
    obtain ⟨hp, hb⟩ := injectable_bounds hinj
    obtain ⟨hpage, hbit⟩ := s.injectFields_rd bank hp hb
    refine ⟨_, (s.injectFields page bank bit).inject page (bank % 64) bit, moves_done (if_pos (by simp [hk, hftm, hinj])), ?_, ?_⟩
    · rw [State.inject_rd _ _ _ _ rfl, hpage]
    · rw [State.inject_rd _ _ _ _ rfl, hbit]
  · rw [State.inject_parity bank hlo hhi ha]
    exact ⟨fun h => if_neg (by rw [h]; decide), fun h => if_pos h⟩
  · refine ⟨fun ha => ?_, fun ha => if_neg (by simp [ha])⟩
    have hidx : (index == 1 || index == 4 || index == 5 || index == 7) = true := by
      simpa [or_assoc] using hindex
    refine ⟨_, s.parityBad (page, bankOf page bank, index), moves_done (if_pos ?_), s.parityBad_contains _, s.parityBad_only _⟩
    rw [hidx]
    simp [hk, hpage, ha]

end Sys2Proof.Machine
end

section
/-!
Escalation, the ALERT pair and staging errors (R219, R371–R375, R379–R381).
-/
namespace Sys2Proof.Machine
open Sys2Proof.Safety

/-! Other commands while one completes. -/

theorem find?_mapIf_other {α : Type} {p r : α → Bool} {f : α → α} (h : ∀ x, r x = true → p x = false) (hf : ∀ x, r x = true → p (f x) = false)
    (l : List α) : (mapIf r f l).find? p = l.find? p := by
  induction l with
  | nil => rfl
  | cons a l ih =>
    unfold mapIf
    rw [List.find?_cons, List.find?_cons, ih]
    by_cases ha : r a = true
    · rw [if_pos ha, hf a ha, h a ha]
    · rw [if_neg ha]

/-- The command of number `q` and its descriptor stand from `b` to `t`. -/
def CmdKept (q : Nat) (b t : State) : Prop := t.cmd? q = b.cmd? q ∧ t.desc? q = b.desc? q

theorem CmdKept.refl (q : Nat) (s : State) : CmdKept q s s := ⟨rfl, rfl⟩

theorem CmdKept.trans {q : Nat} {a b t : State} (h : CmdKept q a b) (k : CmdKept q b t) : CmdKept q a t :=
  ⟨k.1.trans h.1, k.2.trans h.2⟩

theorem CmdKept.of_moved {q T : Nat} {s t : State} (h : Moved T s t) (hc : T.testBit 4 = false) (hd : T.testBit 5 = false) : CmdKept q s t := by
  unfold CmdKept State.cmd? State.desc?
  rw [(h.same .cmds hc :), (h.same .descs hd :)]
  exact ⟨rfl, rfl⟩

/-- The completion of a command of fast mode leaves every other command and its descriptor alone. -/
theorem State.complete_other {s : State} {q r : Nat} {d : Cmd} (hd : s.cmd? r = some d) (hi : d.idMode = false) (hne : r ≠ q)
    (status result : Nat) : CmdKept q s (s.complete r status result) := by
  have hdq : d.q = r := State.cmd?_q hd
  unfold State.complete
  rw [hd]
  dsimp only
  split
  · exact CmdKept.refl q s
  · rw [if_neg (by simp [hi]), if_neg (by simp [hi])]
    refine CmdKept.trans ?_ (CmdKept.of_moved (State.owe_moved (Within.refl 4) (Moved.refl _ _)) rfl rfl)
    refine ⟨?_, ?_⟩
    · refine (find?_mapIf_other (fun x hx => ?_) (fun _ _ => ?_) _).trans (congrArg (List.find? fun x : Cmd => x.q == q) (State.spendNonce_cmds s d))
      · simp only [beq_iff_eq] at hx
        simpa [hx] using hne
      · simpa [hdq] using hne
    · refine (find?_mapIf_other (fun x hx => ?_) (fun x hx => ?_) _).trans ?_
      · simp only [beq_iff_eq] at hx
        simpa [hx] using hne
      · simp only [beq_iff_eq] at hx
        simpa [hx] using hne
      · unfold State.spendNonce
        split <;> rfl

theorem State.endDataPhase_other {s : State} {q r : Nat} (hne : r ≠ q) : CmdKept q s (s.endDataPhase r) := by
  unfold State.endDataPhase
  split
  · rename_i d hd
    split
    · exact CmdKept.refl q s
    · rename_i hopen
      simp only [Bool.or_eq_true, not_or, Bool.not_eq_true] at hopen
      exact State.complete_other hd hopen.1 hne _ _
  · exact CmdKept.refl q s

theorem foldl_endDataPhase_kept {q : Nat} (l : List Cmd) (s : State) (h : ∀ e ∈ l, e.q ≠ q) :
    CmdKept q s (l.foldl (fun s e => s.endDataPhase e.q) s) := by
  induction l generalizing s with
  | nil => exact CmdKept.refl q s
  | cons e l ih =>
    exact (State.endDataPhase_other (h e List.mem_cons_self)).trans (ih _ fun x hx => h x (List.mem_cons_of_mem _ hx))

/-- A command whose data phase ends on the entry to the Safe state has SAFE_STATE fixed. -/
theorem foldl_endDataPhase_held {q : Nat} {c : Cmd} (ho : c.done? = false) (hi : c.idMode = false) (hdata : c.dataOpen = true) (l : List Cmd)
    (s : State) (hc : s.cmd? q = some c) (h : ∃ e ∈ l, e.q = q) :
    Held c stSafeState (completionFields c stSafeState 0) (l.foldl (fun s e => s.endDataPhase e.q) s) := by
  induction l generalizing s with
  | nil =>
    obtain ⟨e, he, -⟩ := h
    cases he
  | cons e l ih =>
    by_cases he : e.q = q
    · have hends : s.endDataPhase e.q = s.complete q stSafeState := by
        unfold State.endDataPhase
        rw [he, hc]
        exact if_neg (by simp [hi, hdata])
      rw [List.foldl_cons, hends]
      exact foldl_held (State.complete_fixes (data := 0) hc ho) fun _ _ h => State.endDataPhase_held h
    · obtain ⟨x, hx, hxq⟩ := h
      have hrest : x ∈ l := (List.mem_cons.1 hx).resolve_left fun e' => he (e' ▸ hxq)
      exact ih _ ((State.endDataPhase_other he).1.trans hc) ⟨x, hrest, hxq⟩

section
variable {s : State} {q : Nat} {c : Cmd} (hc : s.cmd? q = some c) (ho : c.done? = false) (hi : c.idMode = false)
  (huniq : ∀ e ∈ s.cmds, e.q = q → e = c)
include hc ho hi huniq

/-- The entry to the Safe state ends a command whose data phase is open, and leaves any other alone. -/
theorem State.enterSafe_cmd (kind : Nat) (x : Source) :
    Held c stSafeState (completionFields c stSafeState 0) (s.enterSafe kind x) ∨ CmdKept q s (s.enterSafe kind x) := by
  cases hsafe : s.safe with
  | true =>
    rw [State.enterSafe_of_safe hsafe]
    exact .inr (CmdKept.refl q s)
  | false =>
    rw [State.enterSafe_of_not_safe hsafe]
    have hentry : (s.safeEntry kind x).cmds = s.cmds := rfl
    unfold State.endDataPhases
    rw [hentry]
    by_cases hopen : ∃ e ∈ s.cmds.filter Cmd.dataOpen, e.q = q
    · obtain ⟨e, he, heq⟩ := id hopen
      obtain ⟨hmem, hdata⟩ := List.mem_filter.1 he
      exact .inl (foldl_endDataPhase_held ho hi (huniq e hmem heq ▸ hdata) _ (s.safeEntry kind x) hc hopen)
    · have hkept := foldl_endDataPhase_kept (q := q) _ (s.safeEntry kind x) fun e he heq => hopen ⟨e, he, heq⟩
      exact .inr ((CmdKept.refl q s : CmdKept q s (s.safeEntry kind x)).trans hkept)

end

/-- The same without an open data phase. -/
theorem State.enterSafe_kept {s : State} {q : Nat} {c : Cmd} (huniq : ∀ e ∈ s.cmds, e.q = q → e = c) (hdata : c.dataOpen = false) (kind : Nat) (x : Source) : CmdKept q s (s.enterSafe kind x) := by
  cases hsafe : s.safe with
  | true =>
    rw [State.enterSafe_of_safe hsafe]
    exact CmdKept.refl q s
  | false =>
    rw [State.enterSafe_of_not_safe hsafe]
    refine (CmdKept.refl q s : CmdKept q s (s.safeEntry kind x)).trans (foldl_endDataPhase_kept _ _ fun e he heq => ?_)
    obtain ⟨hmem, hopen⟩ := List.mem_filter.1 he
    rw [huniq e hmem heq, hdata] at hopen
    exact Bool.false_ne_true hopen

/-! A staging sector in error. -/

theorem State.reported_moved (s : State) (src : Nat × Nat) (bank : Nat) : Moved 194 s (s.reported src bank) := by
  unfold State.reported
  extract_lets b f x
  have hx : Moved 194 s x := State.wr_moved (by unfold Within; decide) (Moved.refl _ s)
  exact Moved.ite (Moved.ite (State.post_moved (Within.refl 194) hx) hx) (Moved.refl _ s)

/-- The row of a staging error on the card that has reported it. -/
theorem execStageEcc_of_kept {s : State} {q : Nat} {c : Cmd} {d : Desc} (hk : s.clocked = true)
    (hc : (s.report Src.DMA.STAGE_ECC).cmd? q = some c) (hd : (s.report Src.DMA.STAGE_ECC).desc? q = some d) : exec (.stageEcc q) s =
      if c.opcode = opRead ∨ c.opcode = opVerify then ((s.report Src.DMA.STAGE_ECC).endCmd q stUncorrectable d.offset).done
      else ((s.report Src.DMA.STAGE_ECC).endCmd q stSafeState).done := by
  change execStageEcc q s = _
  unfold execStageEcc
  rw [if_pos hk]
  simp only [hc, hd]

/-- A command that has its status keeps it over the row. -/
theorem execStageEcc_of_held {s : State} {q : Nat} {c : Cmd} {st r : Nat} (hk : s.clocked = true) (hi : c.idMode = false)
    (h : Held c st r (s.report Src.DMA.STAGE_ECC)) : ∃ t, exec (.stageEcc q) s = .next t ∧ Fixed t c st r := by
  change ∃ t, execStageEcc q s = .next t ∧ _
  unfold execStageEcc
  rw [if_pos hk]
  dsimp only
  split
  · split
    · exact ⟨_, rfl, (State.settle_held (State.endCmd_held hi h)).fixed⟩
    · exact ⟨_, rfl, (State.settle_held (State.endCmd_held hi h)).fixed⟩
  · exact ⟨_, rfl, (State.settle_held h).fixed⟩

theorem stageEcc_ends {s : State} {q : Nat} {c : Cmd} {d : Desc} (hk : s.clocked = true) (hc : s.cmd? q = some c) (hd : s.desc? q = some d)
    (ho : c.done? = false) (hi : c.idMode = false) (huniq : ∀ e ∈ s.cmds, e.q = q → e = c) :
    (s.report Src.DMA.STAGE_ECC).safe = true ∧
    (c.opcode = opRead ∨ c.opcode = opVerify → ∃ t, exec (.stageEcc q) s = .next t ∧
      Fixed t c stUncorrectable (completionFields c stUncorrectable d.offset)) ∧
    (c.opcode = opWrite ∨ c.opcode = opStage → ∃ t, exec (.stageEcc q) s = .next t ∧
      Fixed t c stSafeState (completionFields c stSafeState 0)) := by
  have hreport : s.report Src.DMA.STAGE_ECC = (s.reported Src.DMA.STAGE_ECC 0).enterSafe 4 (8, 0, 0) := rfl
  have hx : CmdKept q s (s.reported Src.DMA.STAGE_ECC 0) := CmdKept.of_moved (s.reported_moved _ 0) rfl rfl
  have hcx := hx.1.trans hc
  have huniqx : ∀ e ∈ (s.reported Src.DMA.STAGE_ECC 0).cmds, e.q = q → e = c := by
    rw [((s.reported_moved Src.DMA.STAGE_ECC 0).same .cmds rfl :)]
    exact huniq
  refine ⟨hreport ▸ State.enterSafe_safe _ _ _, fun hop => ?_, fun hop => ?_⟩
  · have hdata : c.dataOpen = false := by
      rcases hop with h | h <;> simp [Cmd.dataOpen, h, opRead, opVerify, opWrite, opStage]
    have hkept : CmdKept q s (s.report Src.DMA.STAGE_ECC) := hreport ▸ hx.trans (State.enterSafe_kept huniqx hdata _ _)
    refine ⟨_, (execStageEcc_of_kept hk (hkept.1.trans hc) (hkept.2.trans hd)).trans (if_pos hop), State.endCmd_fixed (hkept.1.trans hc) ho⟩
  · have hno : ¬(c.opcode = opRead ∨ c.opcode = opVerify) := by
      rcases hop with h | h <;> simp [h, opRead, opVerify, opWrite, opStage]
    rcases State.enterSafe_cmd hcx ho hi huniqx 4 (8, 0, 0) with hheld | hkeptx
    · exact execStageEcc_of_held hk hi (hreport ▸ hheld)
    · have hkept : CmdKept q s (s.report Src.DMA.STAGE_ECC) := hreport ▸ hx.trans hkeptx
      exact ⟨_, (execStageEcc_of_kept hk (hkept.1.trans hc) (hkept.2.trans hd)).trans (if_neg hno), State.endCmd_fixed (hkept.1.trans hc) ho⟩

/-! The escalation of an edge. -/

section
variable {s : State} (hs : s.safe = false)
include hs

theorem State.escEval_atOnce {x : Source} (h : firstSource (s.sources 3) = some x) : s.escEval = s.enterSafe 2 x := by
  unfold State.escEval
  rw [if_neg (by simp [hs]), h]

theorem State.escEval_pending {x : Source} (h3 : s.sources 3 = []) (h2 : firstSource (s.sources 2) = some x) (hp : s.escPending = true) :
    s.escEval = if s.rd Reg.ESCALATE.FAULT_GRACE.CCLK ≤ s.esc.count then s.enterSafe 1 x else s := by
  unfold State.escEval
  rw [if_neg (by simp [hs]), h3, h2]
  simp only [firstSource, hp, if_true]

/-- With no source left a pending escalation closes. -/
theorem State.escEval_closes (h3 : s.sources 3 = []) (h2 : s.sources 2 = []) (hp : s.escPending = true) :
    s.escEval.escPending = false ∧ s.escEval.esc.count = 0 := by
  have heval : s.escEval = ((({ (s.wr Reg.ESCALATE.STATE.PENDING 0) with esc := { s.esc with count := 0 } } : State).raise
      Evt.ESCALATE.PENDING_CLOSED).bump Reg.DEBUG.COUNTS.AVERTED) := by
    unfold State.escEval
    rw [if_neg (by simp [hs]), h3, h2]
    simp only [firstSource, hp, if_true]
  rw [heval]
  refine ⟨?_, ?_⟩
  · have hoff : OffRings Reg.ESCALATE.STATE.PENDING.key := .inl ⟨by decide, by decide⟩
    have hstands : Stands Reg.ESCALATE.STATE.PENDING.key (s.wr Reg.ESCALATE.STATE.PENDING 0)
        (({ (s.wr Reg.ESCALATE.STATE.PENDING 0) with esc := { s.esc with count := 0 } } : State).raise Evt.ESCALATE.PENDING_CLOSED) :=
      State.raise_stands hoff (Field.key_ne rfl) (Stands.refl _ (s.wr Reg.ESCALATE.STATE.PENDING 0))
    rw [State.escPending, State.bit, State.rd_bump_other _ _ rfl, hstands.rd, State.rd_wr_of_lt _ (w := 1) rfl (by decide)]
    rfl
  · exact congrArg Escalation.count (State.raise_same ({ (s.wr Reg.ESCALATE.STATE.PENDING 0) with esc := { s.esc with count := 0 } } : State)
      Evt.ESCALATE.PENDING_CLOSED 0 (p := .esc) rfl)

end

/-! The ALERT pair. -/

/-- The card with the mask written, where the restriction lets it be. -/
def State.maskWritten (s : State) (m : Nat) : State := if s.faultsOnly then s else s.wr Reg.ESCALATE.ALERT_MASK.MASK m

theorem State.maskWritten_rd (s : State) {m : Nat} (hm : m < 8) : (s.maskWritten m).rd Reg.ESCALATE.ALERT_MASK.MASK =
    if s.faultsOnly then s.rd Reg.ESCALATE.ALERT_MASK.MASK else m := by
  unfold State.maskWritten
  split
  · rfl
  · exact State.rd_wr_of_lt (f := Reg.ESCALATE.ALERT_MASK.MASK) (w := 3) _ rfl hm

/-- The card with the levels that a foreign driver holds at the pair. -/
def State.padsSeen (s : State) (p n : Bool) : State := { s with esc := { s.esc with pads := some (p, n), readback := 4096 } }

/-- Settles O56: the branches of `State.escEval`, the ALERT registers and pads, and what a staging error ends. -/
theorem escalationRows : Obligations.EscalationRows := by
  refine ⟨fun s x hs h => State.escEval_atOnce hs h, fun s x hs h3 h2 hp => ⟨fun hle => ?_, fun hlt => ?_⟩,
    fun s hs h3 h2 hp => State.escEval_closes hs h3 h2 hp, fun s hs => if_pos hs, fun s hk hp => ⟨_, moves_done (if_pos (by simp [hk, hp]))⟩,
    fun v s hk hv => ⟨_, moves_done (if_pos hk), ?_⟩, fun m f s hk hm => ?_, fun p n s hk => ⟨fun h => ?_, fun h => ?_⟩,
    fun q s c d hk hc hd ho hi huniq => stageEcc_ends hk hc hd ho hi huniq⟩
  · rw [State.escEval_pending hs h3 h2 hp, if_pos hle]
  · rw [State.escEval_pending hs h3 h2 hp, if_neg (by omega)]
  · exact (State.rd_settle _ rfl).trans (State.rd_wr_of_lt (f := Reg.ESCALATE.FAULT_GRACE.CCLK) (w := 32) _ rfl hv)
  · have hrd : (((s.maskWritten m).wr Reg.ESCALATE.ALERT_CTRL.FORCE (bit01 f)).settle).rd Reg.ESCALATE.ALERT_MASK.MASK =
        (s.maskWritten m).rd Reg.ESCALATE.ALERT_MASK.MASK := (State.rd_settle _ rfl).trans (State.rd_wr_other _ _ rfl)
    refine ⟨_, (s.maskWritten m).wr Reg.ESCALATE.ALERT_CTRL.FORCE (bit01 f), moves_done (if_pos hk), ?_, fun hf => ?_, fun hf => ?_⟩
    · exact (State.rd_settle _ rfl).trans (State.rd_wr_bit _ rfl (bit01_le f))
    · rw [hrd, s.maskWritten_rd hm, hf]
      rfl
    · rw [hrd, s.maskWritten_rd hm, hf]
      rfl
  · have hexec : exec (.alertReadback p n) s = .next { s with esc := { s.esc with pads := none, readback := 0 } } :=
      (if_pos hk).trans (if_pos (by simp [h]))
    refine ⟨_, hexec, rfl, rfl, fun part hpart => ?_⟩
    cases part <;> simp_all [Part.Same]
  · have hexec : exec (.alertReadback p n) s = ((s.padsSeen p n).report Src.ESCALATE.ALERT_READBACK).done :=
      (if_pos hk).trans (if_neg (by simpa using h))
    exact ⟨_, _, moves_done hexec, ((EscKept.refl (s.padsSeen p n)).report _ 0 false).2.1⟩

end Sys2Proof.Machine
end

section
/-!
Barriers and Rest windows (R122, R124, R259–R262).
-/
namespace Sys2Proof.Machine
open Sys2Proof.Safety

/-- What answers a REST that has taken no step: DEBT alone. -/
theorem State.restResult_noSteps (s : State) (c : Cmd) : s.restResult { c with steps := 0 } = s.debt % 2 ^ 64 := by
  simp [State.restResult]

theorem State.restOver_of_safe {s : State} (c : Cmd) (h : s.safe = true) : s.restOver c = true ↔ s.engineRuns = false := by
  rw [State.restOver, if_pos h, Bool.not_eq_true']

/-- Outside the Safe state a REST is over where no step of it runs and either its budget has passed or no debt is left (R260). -/
theorem State.restOver_of_notSafe {s : State} (c : Cmd) (h : s.safe = false) : s.restOver c = true ↔
    c.awaits = [] ∧ (c.budget ≤ c.progress ∨ (s.rd (enableBit 0x0D 0) = 1 ∧ s.debt = 0)) := by
  rw [State.restOver, if_neg (by rw [h]; decide)]
  by_cases hb : c.budget ≤ c.progress
  · simp [hb]
  · simp [hb, State.bit, and_comm]

/-- BARRIER_RELEASE completes a barrier behind which no earlier command of its Slice is left. -/
theorem barrierRelease_finishes {q i : Nat} {s : State} {c : Cmd} (hw : AtWork s q c c.opcode .waiting) (hb : c.isBarrier = true)
    (hr : c.ring = some i) (h : s.sliceQuiet q i = true) :
    Finishes (.barrierRelease q) s s c stOk 0 (s.complete q stOk).settle := by
  have hopen := isOpen_of_atWork hw (by decide)
  obtain ⟨hcmd, hk, -, hph⟩ := hw
  have hexec : exec (.barrierRelease q) s = (s.complete q stOk).done := by
    change execBarrierRelease q s = _
    simp [execBarrierRelease, hcmd, hr, hk, hb, hph, h]
  exact ⟨hexec, by rw [State.cmd?_q hcmd], State.complete_ends _ _ _ _ _ _,
    State.complete_fixed (data := 0) hcmd hopen⟩

theorem barrierRelease_waits {q i : Nat} {s : State} {c : Cmd} (hw : AtWork s q c c.opcode .waiting)
    (hr : c.ring = some i) (h : s.sliceQuiet q i = false) : Moves (.barrierRelease q) s s s.settle := by
  obtain ⟨hcmd, -, -, -⟩ := hw
  refine moves_done ?_
  change execBarrierRelease q s = _
  simp [execBarrierRelease, hcmd, hr, h]

/-- Settles O47: a barrier by the commands before it, a REST by its BUDGET and by whether it is over. -/
theorem barriersAndRests : Obligations.BarriersAndRests := by
  refine ⟨fun q s c hw => ⟨_, moves_of hw rfl rfl⟩, fun q i s c hw hb hr => ⟨fun h => ⟨_, barrierRelease_finishes hw hb hr h⟩,
    fun h => ⟨_, barrierRelease_waits hw hr h⟩⟩, fun q s c hw => ⟨fun h => ?_, fun h => ?_⟩, fun q s c hw => ?_⟩
  · exact ⟨_, finishes_of hw (by decide) rfl ((if_pos h).trans (by rw [State.restResult_noSteps])) hw.1⟩
  · exact ⟨_, moves_of hw rfl (if_neg h)⟩
  · intro ends
    have hover : s.restOver c = true ↔ ends := by
      dsimp only [ends]
      split
      · rename_i hs
        exact s.restOver_of_safe c hs
      · rename_i hs
        exact s.restOver_of_notSafe c (by simpa using hs)
    refine ⟨fun h => ?_, fun h => ⟨_, moves_of hw rfl (if_neg (mt hover.mp h))⟩⟩
    refine ⟨_, (exec_onCmd hw rfl).trans (congrArg (fun x : State => Host.Outcome.next x.settle) (if_pos (hover.mpr h))), ?_⟩
    exact State.endCmd_fixed hw.1 (isOpen_of_atWork hw (by decide))

end Sys2Proof.Machine
end

section
/-!
The grant watchdog (R235–R237, R478).
-/
namespace Sys2Proof.Machine
open Sys2Proof.Safety

/-- The watchdog is not a forced source: its report leaves the dies alone. -/
theorem State.report_bite_flash (s : State) : (s.report Src.WATCHDOG.BITE).flash = s.flash := by
  have h : s.report Src.WATCHDOG.BITE = s.reported Src.WATCHDOG.BITE 0 := State.report_unforced (by decide)
  rw [h]
  exact (s.reported_moved _ _).same (p := .flash) rfl

theorem State.recordBite_flash (s : State) (x : Die) (h : Holder) : (s.recordBite x h).flash = s.flash :=
  ((State.bump_moved (f := Reg.WATCHDOG.WD_BITES.BITES) (n := 1) (by unfold Within; decide) (Moved.refl 194 _)).same
    (p := .flash) rfl).trans s.report_bite_flash

theorem State.recordBite_valid (s : State) (x : Die) (h : Holder) : (s.recordBite x h).rd Reg.WATCHDOG.WD_LAST_REQ.VALID = 1 := by
  unfold State.recordBite
  extract_lets counted valid at_
  rw [State.rd_wr_other _ _ rfl]
  have hat : at_.rd Reg.WATCHDOG.WD_LAST_REQ.VALID = valid.rd Reg.WATCHDOG.WD_LAST_REQ.VALID := by
    dsimp only [at_]
    rw [State.rd_wr_other _ _ rfl, State.rd_wr_other _ _ rfl]
  rw [hat]
  exact State.rd_wr_bit _ rfl (by decide)

theorem State.recordBite_bites (s : State) (x : Die) (h : Holder) : (s.recordBite x h).rd Reg.WATCHDOG.WD_BITES.BITES =
    satAdd (s.rd Reg.WATCHDOG.WD_BITES.BITES) 1 (ones Reg.WATCHDOG.WD_BITES.BITES.width) := by
  unfold State.recordBite
  extract_lets counted valid at_
  have hat : (at_.wr Reg.WATCHDOG.WD_LAST_REQ.ACTIVITY x.activityCode).rd Reg.WATCHDOG.WD_BITES.BITES =
      counted.rd Reg.WATCHDOG.WD_BITES.BITES := by
    dsimp only [at_, valid]
    rw [State.rd_wr_other _ _ rfl, State.rd_wr_other _ _ rfl, State.rd_wr_other _ _ rfl, State.rd_wr_other _ _ rfl,
      State.rd_wr_other _ _ rfl]
  rw [hat]
  refine (State.rd_bump_self _ 1 rfl).trans ?_
  rw [Tail.rd (State.report_tail (Tail.refl s)) rfl]

theorem State.grantBus_dies (s : State) (n : Nat) : (s.grantBus n).flash.dies = s.flash.dies := by
  unfold State.grantBus
  split
  · rfl
  · split
    · rfl
    · split <;> rfl

theorem State.die?_of_dies {s t : State} (h : t.flash.dies = s.flash.dies) (d : Nat) : t.die? d = s.die? d := by
  unfold State.die?
  rw [h]

theorem State.die?_leaveBus (s : State) (d e : Nat) : (s.leaveBus d).die? e = s.die? e :=
  State.die?_of_dies (State.grantBus_dies _ _) e

theorem State.die?_id {s : State} {d : Nat} {x : Die} (h : s.die? d = some x) : x.id = d :=
  beq_iff_eq.mp (List.find?_some (show s.flash.dies.find? (fun x => x.id == d) = some x from h) :)

theorem State.die?_setDie_self {s : State} {d : Nat} {f : Die → Die} (hf : ∀ x, (f x).id = x.id) {x : Die} (h : s.die? d = some x) :
    (s.setDie d f).die? d = some (f x) := by
  have hp : ∀ x : Die, ((f x).id == d) = (x.id == d) := fun x => by rw [hf]
  refine (find?_mapIf (p := fun x : Die => x.id == d) hp s.flash.dies).trans ?_
  have hfind : s.flash.dies.find? (fun x => x.id == d) = some x := h
  rw [hfind, Option.map_some, if_pos (by rw [State.die?_id h, beq_self_eq_true])]

/-- What a first bite makes of the die. -/
def Die.bittenOf (h : Holder) (x : Die) : Die :=
  { x with holder := some (.resetLun h.back.1 h.back.2), activity := .idle, preempting := false, bitten := true, watchdog := 0 }

theorem State.bite_held {s : State} {d : Nat} {x : Die} {h : Holder} (hx : s.die? d = some x) (hh : x.holder = some h) :
    s.bite d = if x.bitten then
        (((s.recordBite x h).report Src.WATCHDOG.DIE_STUCK).bump Reg.WATCHDOG.WD_BITES.STUCK).dieFails d
      else ((s.recordBite x h).setDie d (Die.bittenOf h)).leaveBus d := by
  unfold State.bite
  simp only [hx, hh]
  rfl

theorem State.bite_free {s : State} {d : Nat} {x : Die} (hx : s.die? d = some x) (hh : x.holder = none) : s.bite d = s := by
  unfold State.bite
  simp only [hx, hh]

theorem exec_grantWatchdogBite {d : Nat} {s : State} (hk : s.clocked = true) (hw : s.wdRuns = true) :
    exec (.grantWatchdogBite d) s = (s.bite d).done := if_pos (by simp [hk, hw])

/-- Settles O49: by whether the watchdog runs, and by what it finds on the die. -/
theorem watchdogBites : Obligations.WatchdogBites := by
  refine ⟨fun d s x h hk hw hx hh hb => ?_, fun d s x h hk hw hx hh hb => ?_, fun d s x hk hw hx hh => ?_, fun d s hw => ?_⟩
  · have hbite := s.bite_held hx hh
    rw [if_neg (by simp [hb])] at hbite
    have hmoves := moves_done (exec_grantWatchdogBite (d := d) hk hw)
    have hends : Ends (((s.recordBite x h).setDie d (Die.bittenOf h)).leaveBus d) (s.bite d).settle := by
      rw [← hbite]
      exact hmoves.2.2
    have hrd : ∀ f : Field, (((s.recordBite x h).setDie d (Die.bittenOf h)).leaveBus d).rd f = (s.recordBite x h).rd f := fun f =>
      congrArg (fun r => regRead r f) ((State.leaveBus_moved (T := 2048) (by exact rfl) (Moved.refl _ _)).same (p := .regs) rfl)
    refine ⟨_, Die.bittenOf h x, hmoves.1, ?_, rfl, rfl, ?_, ?_⟩
    · have hflash := flash_of_ends hends
      rw [State.die?_of_dies (congrArg Flash.dies hflash), State.die?_leaveBus]
      refine State.die?_setDie_self (f := Die.bittenOf h) (fun _ => rfl) ?_
      rw [State.die?_of_dies (congrArg Flash.dies (s.recordBite_flash x h))]
      exact hx
    · rw [rd_over_ends hends rfl, hrd]
      exact s.recordBite_valid x h
    · rw [rd_over_ends hends rfl, hrd]
      exact s.recordBite_bites x h
  · have hbite := s.bite_held hx hh
    rw [if_pos hb] at hbite
    exact ⟨_, moves_done ((exec_grantWatchdogBite hk hw).trans (congrArg State.done hbite))⟩
  · exact ⟨_, moves_done ((exec_grantWatchdogBite hk hw).trans (congrArg State.done (s.bite_free hx hh)))⟩
  · exact if_neg (by simp [hw])

end Sys2Proof.Machine
end

section
/-!
FW_STAGE, FW_ACTIVATE and FW_CONFIRM (R394–R405).
-/
namespace Sys2Proof.Machine
open Sys2Proof.Safety

theorem State.fwSlot_setFwSlot_self {s : State} {i : Nat} (f : FwSlot → FwSlot) (h : i < s.fw.slots.length) :
    (s.setFwSlot i f).fwSlot i = f (s.fwSlot i) := getD_modify_self _ _ _ h

theorem State.fwSlot_setFwSlot_ne (s : State) {i j : Nat} (f : FwSlot → FwSlot) (h : j ≠ i) :
    (s.setFwSlot i f).fwSlot j = s.fwSlot j := by
  simp [State.fwSlot, State.setFwSlot, List.getD_eq_getElem?_getD, h.symm]

theorem State.fwSlot_of_fw {s t : State} (h : t.fw = s.fw) (i : Nat) : t.fwSlot i = s.fwSlot i := by
  unfold State.fwSlot
  rw [h]

/-! Staging. -/

/-- The card with the units of a stage recorded in its slot (R398). -/
def State.unitsStaged (s : State) (c : Cmd) (i : Nat) : State :=
  s.setFwSlot i (fun sl =>
    { sl with
      st := if sl.st == .empty then .staged else sl.st
      units := stageFrames sl.units (c.field 4 32 / 64) (c.field 8 32 / 64) c.payload })

theorem State.descHeld_eq_any (s : State) (q : Nat) : s.descHeld q = (s.desc? q).any (fun d => d.st == .held) := by
  unfold State.descHeld
  cases s.desc? q <;> rfl

theorem fwStage_finishes {q i : Nat} {s : State} {c : Cmd} (hw : AtWork s q c opStage .ready) (hi : c.slice = some i)
    (hv : s.power.vholdOk = true) (hd : s.descHeld q = false) :
    Finishes (.fwStage q) s (s.unitsStaged c i) c stOk 0 ((s.unitsStaged c i).complete q stOk).settle := by
  refine finishes_of hw (by decide) rfl ((if_neg ?_).trans ?_) hw.1
  · rw [← State.descHeld_eq_any, hd, hv]
    decide
  · rw [hi]
    rfl

/-! Activation. -/

/-- The card with a slot in PROBATION, cell 23 for what starts and a core reset asked for (R400). -/
def State.activated (s : State) (i : Nat) : State :=
  ((s.setCell 23 (s.startRequest i)).setFwSlot i (fun sl => { sl with st := .probation })).requestReset false 5 none

theorem State.startRequest_lt (s : State) (i : Nat) : s.startRequest i < 16 := by
  unfold State.startRequest
  extract_lets main confirmedMc mc
  omega

theorem State.activated_slot {s : State} {i : Nat} (h : i < s.fw.slots.length) : ((s.activated i).fwSlot i).st = .probation := by
  have hfw : (s.setCell 23 (s.startRequest i)).fw = s.fw := (State.setCell_moved (T := 8192) (by exact rfl) (Moved.refl _ s)).same (p := .fw) rfl
  have hslot : (s.activated i).fwSlot i = { (s.setCell 23 (s.startRequest i)).fwSlot i with st := .probation } :=
    State.fwSlot_setFwSlot_self (fun sl => { sl with st := .probation }) (by rw [hfw]; exact h)
  rw [hslot]

theorem State.activated_cell {s : State} (h : s.power.vbak = true) (i : Nat) : (s.activated i).cell 23 = s.startRequest i := by
  have hcell : (s.activated i).cell 23 = (s.setCell 23 (s.startRequest i)).cell 23 := rfl
  have hlt := s.startRequest_lt i
  rw [hcell, State.cell_setCell _ _ _ _ h, if_pos rfl]
  omega

theorem State.rejectSlot_slot {s : State} {i : Nat} (h : i < s.fw.slots.length) (reason : Nat) :
    ((s.rejectSlot i reason).fwSlot i).st = .rejected := by
  let x := ((s.cellBit 20 i true).setCell 21 (reason + 256 * i)).raiseCell 22
  have hx : x.fw = s.fw := (State.setCell_moved (T := 8192) (by exact rfl) (State.setCell_moved (by exact rfl)
    (State.setCell_moved (by exact rfl) (Moved.refl _ s)))).same (p := .fw) rfl
  have hslot : (s.rejectSlot i reason).fwSlot i = (x.setFwSlot i (fun sl => { sl with st := .rejected })).fwSlot i :=
    State.fwSlot_of_fw (State.raise_same _ _ _ (p := .fw) rfl) i
  rw [hslot, State.fwSlot_setFwSlot_self _ (by rw [hx]; exact h)]

/-- With nothing against a FW_ACTIVATE the check of the staging slot decides. -/
theorem fwActivate_finishes {q i : Nat} {r : Bool} {s x : State} {c : Cmd} {st : Nat} (hw : AtWork s q c opActivate .decoded)
    (hb : s.cmds.any (fun d => d.opcode == opStage && d.working && d.field 0 8 == c.field 0 8) = false)
    (hp : s.targetProbation (c.field 0 8) = false) (hr : s.power.resetReq = none) (hs : s.stagingSlot (c.field 0 8) = some i)
    (hx : (if s.checkSlot i r ≠ 0 then (s.rejectSlot i (s.checkSlot i r)).complete q stImageRejected
      else (s.activated i).complete q stOk) = x.complete q st) (hcmds : x.cmds = s.cmds) :
    Finishes (.fwActivate q r) s x c st 0 (x.complete q st).settle := by
  refine finishes_of hw (by decide) rfl ((if_neg (by simp [hb, hp, hr])).trans ?_) ((State.cmd?_of_cmds hcmds q).trans hw.1)
  rw [hs]
  exact hx

theorem fwActivate_conflicts {q : Nat} {r : Bool} {s : State} {c : Cmd} (hw : AtWork s q c opActivate .decoded)
    (h : s.cmds.any (fun d => d.opcode == opStage && d.working && d.field 0 8 == c.field 0 8) = true ∨
      s.targetProbation (c.field 0 8) = true ∨ s.power.resetReq ≠ none ∨ s.stagingSlot (c.field 0 8) = none) :
    Finishes (.fwActivate q r) s s c stConflict 0 (s.complete q stConflict).settle := by
  refine finishes_of hw (by decide) rfl ?_ hw.1
  extract_lets target staging
  split
  · rfl
  · rename_i hnone
    dsimp only [staging, target] at hnone ⊢
    rcases h with h | h | h | h
    · simp [h] at hnone
    · simp [h] at hnone
    · simp [Option.isSome_iff_ne_none.mpr h] at hnone
    · rw [h]

/-! Confirmation. -/

/-- The firmware store after a confirmation (R405). -/
def Firmware.confirmed (fw : Firmware) (run : RunImage) (shadow : Settings) : Firmware :=
  let seq := ((fw.settings.map (fun x => x.seq)).getD 0)
  let b : BootRecord :=
    { seq := (fw.boot.map (fun x => x.seq)).getD 0 + 1, main := run.main,
      mc := run.mc.getD ((fw.boot.map (fun x => x.mc)).getD 2),
      prev := match fw.boot with
        | some o => if o.main = run.main then o.prev else some o.main
        | none => none
      copyB := false }
  { fw with
    boot := some b
    copyA := some { shadow with seq := if fw.copyA == fw.settings then seq + 2 else seq + 1 }
    copyB := some { shadow with seq := if fw.copyA == fw.settings then seq + 1 else seq + 2 }
    shadow := none
    run := some { run with probation := false }
    slots := fw.slots.mapIdx (confirmedStates b) }

theorem State.confirm_eq (s : State) (m : RunImage) (e : Settings) : s.confirm m e =
    ({ s with fw := s.fw.confirmed m e }.setCell 23 0).raise Evt.FIRMWARE.CONFIRMED := by
  unfold State.confirm Firmware.confirmed
  rfl

theorem Firmware.confirmed_cfgs (fw : Firmware) (m : RunImage) (e : Settings) :
    (fw.confirmed m e).settings.map (fun x => x.cfgs) = some e.cfgs := by
  unfold Firmware.confirmed
  extract_lets seq b
  simp only [Firmware.settings, Option.map_some, Option.some.injEq]
  exact (apply_ite Settings.cfgs _ _ _).trans (ite_self _)

theorem State.confirm_fw (s : State) (m : RunImage) (e : Settings) : (s.confirm m e).fw = s.fw.confirmed m e := by
  rw [State.confirm_eq]
  exact (State.raise_same _ _ _ (p := .fw) rfl).trans
    ((State.setCell_moved (T := 8192) (by exact rfl) (Moved.refl _ _)).same (p := .fw) rfl)

theorem State.confirm_cmds (s : State) (m : RunImage) (e : Settings) : (s.confirm m e).cmds = s.cmds :=
  (State.confirm_moved (Within.refl 139458) (Moved.refl _ s)).same (p := .cmds) rfl

theorem State.confirm_cell {s : State} (h : s.power.vbak = true) (m : RunImage) (e : Settings) : (s.confirm m e).cell 23 = 0 := by
  rw [State.confirm_eq]
  have hraise : ∀ x : State, (x.raise Evt.FIRMWARE.CONFIRMED).cell 23 = x.cell 23 := fun x =>
    congrArg (storeRead · 23) (State.raise_same x _ _ (p := .crust) rfl)
  rw [hraise]
  exact (State.cell_setCell { s with fw := s.fw.confirmed m e } 23 23 0 h).trans (if_pos rfl)

/-- Settles O52: by what a stage waits for, by what stands against an activation and its check, and by what a confirmation finds. -/
theorem firmwareCommands : Obligations.FirmwareCommands := by
  refine ⟨fun q i s c hw hi hlen => ⟨fun hv hd => ?_, fun h => ?_⟩, fun q r s c hw => ⟨fun h => ⟨_, fwActivate_conflicts hw h⟩, ?_⟩,
    fun q s c hw => ?_⟩
  · have hfin := fwStage_finishes hw hi hv hd
    have hfw := fw_of_ends hfin.2.2.1
    refine ⟨_, _, hfin, ?_, ?_, fun j hj => ?_⟩
    · exact (State.setFwSlot_moved (T := partsOf [.fw]) (by exact rfl) (Moved.refl _ s)).agree.only
        fun _ => partsOf_testBit_of_not_mem
    · rw [State.fwSlot_of_fw hfw, State.unitsStaged, State.fwSlot_setFwSlot_self _ hlen]
    · rw [State.fwSlot_of_fw hfw]
      exact s.fwSlot_setFwSlot_ne _ hj
  · refine ⟨_, moves_of hw rfl (if_pos ?_)⟩
    rw [← State.descHeld_eq_any]
    rcases h with h | h <;> simp [h]
  · intro i hb hp hr hs hlen
    refine ⟨fun hcheck => ?_, fun hcheck => ?_⟩
    · have hfin := fwActivate_finishes (r := r) (st := stImageRejected) hw hb hp hr hs (if_pos hcheck)
        ((State.rejectSlot_moved (Within.refl 139458) (Moved.refl _ s)).same (p := .cmds) rfl)
      refine ⟨_, hfin, ?_⟩
      rw [State.fwSlot_of_fw (fw_of_ends hfin.2.2.1)]
      exact State.rejectSlot_slot hlen _
    · have hfin := fwActivate_finishes (r := r) (st := stOk) hw hb hp hr hs (if_neg (not_not.mpr hcheck))
        ((State.setCell_moved (T := 8192) (by exact rfl) (Moved.refl _ s)).same (p := .cmds) rfl)
      have hends := hfin.2.2.1
      obtain ⟨e, he, hsystem, -, hsource⟩ :=
        ((s.setCell 23 (s.startRequest i)).setFwSlot i (fun sl => { sl with st := .probation })).requestReset_req false 5 none
      have hpower : (s.setCell 23 (s.startRequest i)).power = s.power :=
        (State.setCell_moved (T := 8192) (by exact rfl) (Moved.refl _ s)).same (p := .power) rfl
      refine ⟨_, _, hfin, ?_, ⟨e, ?_, hsystem ?_, hsource⟩, fun hv => ?_⟩
      · rw [State.fwSlot_of_fw (fw_of_ends hends)]
        exact State.activated_slot hlen
      · rw [power_of_ends hends]
        exact he
      · exact (congrArg Power.resetReq hpower).trans hr
      · rw [hends.cells 23 (by decide) (by decide) (by decide)]
        exact State.activated_cell hv i
  · intro other
    refine ⟨fun h => ?_, fun m e hm he hprob hsafe hother => ⟨fun hv => ?_, fun hv => ?_⟩⟩
    · refine ⟨_, finishes_of hw (by decide) rfl ?_ hw.1⟩
      dsimp only
      split
      · rename_i m e hm he
        refine if_pos ?_
        have hp : s.probation = m.probation := by rw [State.probation, hm]
        have hs : s.safeIf = m.safeIf := by rw [State.safeIf, hm]
        rcases h with h | h | h | h | h
        · simp [hm] at h
        · simp [he] at h
        · dsimp only [other] at h
          simp [h]
        · simp [← hp, h]
        · simp [← hs, h]
      · rfl
    · refine ⟨_, moves_of hw rfl ?_⟩
      dsimp only [other] at hother
      rw [hm, he]
      exact (if_neg (by simp [hprob, hsafe, hother])).trans (if_pos (by simp [hv]))
    · have hfin : Finishes (.fwConfirm q) s (s.confirm m e.2) c stOk 0 ((s.confirm m e.2).complete q stOk).settle := by
        refine finishes_of hw (by decide) rfl ?_ ((State.cmd?_of_cmds (s.confirm_cmds m e.2) q).trans hw.1)
        dsimp only [other] at hother
        rw [hm, he]
        exact (if_neg (by simp [hprob, hsafe, hother])).trans (if_neg (by simp [hv]))
      have hends := hfin.2.2.1
      have hfw := (fw_of_ends hends).trans (s.confirm_fw m e.2)
      refine ⟨_, hfin, ?_, ?_, ?_, ?_, fun hvbak => ?_⟩
      · rw [State.probation, hfw]
        rfl
      · rw [hfw]
        rfl
      · rw [hfw]
        rfl
      · rw [hfw]
        exact Firmware.confirmed_cfgs _ _ _
      · rw [hends.cells 23 (by decide) (by decide) (by decide)]
        exact State.confirm_cell hvbak m e.2

end Sys2Proof.Machine
end

section
/-!
What every change of the flash side brings about (`flashSettle`), seen by parts of the flash that it leaves alone.
-/
namespace Sys2Proof.Machine
open Sys2Proof.Safety

/-- A view of the flash that shows nothing of the dies' requests, of jobs, codewords and snapshots, of the wear state and of the upkeep state
beside the samples owed: of what `flashSettle` changes. -/
structure FlashView {α : Type} (g : Flash → α) : Prop where
  dies : ∀ fl (x : List Die), g { fl with dies := x } = g fl
  words : ∀ fl (x : List Codeword), g { fl with words := x } = g fl
  jobs : ∀ fl (x : List Job) (n : Nat), g { fl with jobs := x, nextJob := n } = g fl
  snaps : ∀ fl x, g { fl with map := { fl.map with snaps := x } } = g fl
  wear : ∀ fl (x : Wear), g { fl with wear := x } = g fl
  upkeep : ∀ fl (u : Upkeep), u.patrol = fl.upkeep.patrol → g { fl with upkeep := u } = g fl

theorem foldl_flash {α β : Type} {g : Flash → α} {f : State → β → State} (hf : ∀ s b, g (f s b).flash = g s.flash) (s : State) (l : List β) :
    g (l.foldl f s).flash = g s.flash := by
  induction l generalizing s with
  | nil => rfl
  | cons b l ih => exact (ih (f s b)).trans (hf s b)

section
variable {α : Type} {g : Flash → α} (hg : FlashView g)
include hg

theorem FlashView.withdraw (s : State) (q : Nat) : g (s.withdraw q).flash = g s.flash :=
  (hg.words { s.flash with dies := _ } _).trans (hg.dies s.flash _)

theorem FlashView.endCmd (s : State) (q status result : Nat) : g (s.endCmd q status result).flash = g s.flash := by
  have hcomplete : g ((s.withdraw q).complete q status result).flash = g s.flash := by
    rw [State.complete_flash]
    exact hg.withdraw s q
  unfold State.endCmd State.sweepEngines State.snapSweep State.onFlash
  split
  · exact (hg.snaps _ _).trans hcomplete
  · exact (hg.snaps _ _).trans ((hg.dies _ _).trans hcomplete)

theorem FlashView.addJob (s : State) (b : Bearer) (w : JobWork) (dies : List Nat) : g (s.addJob b w dies).flash = g s.flash := by
  unfold State.addJob
  split
  · rfl
  · exact hg.jobs _ _ _

theorem FlashView.endTrim (s : State) (q status : Nat) : g (s.endTrim q status).flash = g s.flash := by
  unfold State.endTrim
  split
  · split
    · split
      · rfl
      · exact hg.addJob _ _ _ _
    · exact hg.endCmd _ _ _ _
  · rfl

theorem FlashView.lifeSettle (s : State) : g s.lifeSettle.flash = g s.flash := by
  unfold State.lifeSettle
  extract_lets now before base
  have hbase : g base.flash = g s.flash := hg.wear _ _
  split
  · rfl
  · split
    · exact (congrArg g (State.raise_flash _ _ _)).trans hbase
    · exact hbase

theorem FlashView.readOnlySettle (s : State) : g s.readOnlySettle.flash = g s.flash := by
  unfold State.readOnlySettle
  extract_lets w entered base told
  have hbase : g base.flash = g s.flash := hg.wear _ _
  split
  · exact (foldl_flash (fun s (c : Cmd) => hg.endTrim s c.q stReadOnly) _ _).trans ((congrArg g (State.raise_flash _ _ _)).trans hbase)
  · exact hbase

theorem FlashView.starveSettle (s : State) : g s.starveSettle.flash = g s.flash := by
  unfold State.starveSettle
  extract_lets free u
  split
  · split
    · exact hg.upkeep _ _ rfl
    · rfl
  · split
    · rw [(State.bump_moved (T := 194) (by exact rfl) (Moved.refl _ _)).same (p := .flash) rfl]
      exact (congrArg g (State.raise_flash _ _ _)).trans (hg.upkeep _ _ rfl)
    · rfl

theorem FlashView.patrolSettle (s : State) : g s.patrolSettle.flash = g s.flash := by
  unfold State.patrolSettle
  split
  · exact (congrArg g (State.raise_flash _ _ _)).trans (hg.upkeep _ _ rfl)
  · rfl

theorem FlashView.debtSettle (s : State) : g s.debtSettle.flash = g s.flash := by
  unfold State.debtSettle
  extract_lets before now base soft
  have hbase : g base.flash = g s.flash := hg.upkeep _ _ rfl
  have hsoft : g soft.flash = g s.flash := by
    dsimp only [soft]
    split
    · exact (congrArg g (State.raise_flash _ _ _)).trans hbase
    · exact hbase
  split
  · exact (congrArg g (State.raise_flash _ _ _)).trans hsoft
  · exact hsoft

theorem FlashView.flashSettle (s : State) : g s.flashSettle.flash = g s.flash :=
  (hg.debtSettle _).trans ((hg.patrolSettle _).trans ((hg.starveSettle _).trans ((hg.readOnlySettle _).trans (hg.lifeSettle s))))

end

/-- The blocks and the recoveries, which the block table is read by. -/
theorem flashView_blocks : FlashView (fun fl => (fl.blocks, fl.recoveries)) :=
  ⟨fun _ _ => rfl, fun _ _ => rfl, fun _ _ _ => rfl, fun _ _ => rfl, fun _ _ => rfl, fun _ _ _ => rfl⟩

/-- The samples that a patrol round owes. -/
theorem flashView_patrol : FlashView (fun fl => fl.upkeep.patrol) :=
  ⟨fun _ _ => rfl, fun _ _ => rfl, fun _ _ _ => rfl, fun _ _ => rfl, fun _ _ => rfl, fun _ _ h => h⟩

end Sys2Proof.Machine
end

section
/-!
The upkeep steps (R254–R260, R269, R283): what a step finds on its die, the state of an erased block and the round of a patrol.
-/
namespace Sys2Proof.Machine
open Sys2Proof.Safety

/-! The block table. -/

/-- Is a block listed for that die under that number? -/
def Block.at? (d n : Nat) (b : Block) : Bool := b.die == d && b.num == n

theorem find?_insertBlock_self {d n : Nat} {b : Block} (hb : b.at? d n = true) {l : List Block} (h : ∀ c ∈ l, c.at? d n = false) :
    (insertBlock b l).find? (Block.at? d n) = some b := by
  induction l with
  | nil => simp [insertBlock, hb]
  | cons c l ih =>
    unfold insertBlock
    split
    · simp [hb]
    · rw [List.find?_cons_of_neg (by simp [h c (by simp)])]
      exact ih fun e he => h e (by simp [he])

theorem find?_insertBlock_other {d n : Nat} {b : Block} (hb : b.at? d n = false) (l : List Block) :
    (insertBlock b l).find? (Block.at? d n) = l.find? (Block.at? d n) := by
  induction l with
  | nil => simp [insertBlock, hb]
  | cons c l ih =>
    unfold insertBlock
    split
    · rw [List.find?_cons_of_neg (by simp [hb])]
    · rw [List.find?_cons, List.find?_cons, ih]

theorem State.block_eq (s : State) (d n : Nat) :
    s.block d n = (s.flash.blocks.find? (Block.at? d n)).getD (freshBlock d n s.flash.recoveries) := rfl

theorem State.block_place (s : State) (d n : Nat) : (s.block d n).at? d n = true := by
  rw [State.block_eq]
  cases h : s.flash.blocks.find? (Block.at? d n) with
  | none => simp [Block.at?, freshBlock]
  | some b => exact List.find?_some h

/-- A view of the block table through the blocks and the recoveries. -/
theorem State.block_of_flash {s t : State} (h : (t.flash.blocks, t.flash.recoveries) = (s.flash.blocks, s.flash.recoveries)) (d n : Nat) :
    t.block d n = s.block d n := by
  obtain ⟨hblocks, hrec⟩ := Prod.mk.inj h
  rw [State.block_eq, hblocks, hrec]
  rfl

/-- The table with the block at a place replaced. -/
theorem State.block_setBlock_self (s : State) (d n : Nat) {f : Block → Block} (hf : (f (s.block d n)).at? d n = true) :
    (s.setBlock d n f).block d n = f (s.block d n) := by
  have hrest : ∀ c ∈ s.flash.blocks.filter (fun c => !(c.die == d && c.num == n)), c.at? d n = false := fun c hc => by
    exact Bool.not_eq_true' _ ▸ (List.mem_filter.mp hc).2
  rw [State.block_eq]
  unfold State.setBlock State.onFlash
  dsimp only
  split
  · rename_i hfresh
    rw [List.find?_eq_none.mpr fun c hc => by simp [hrest c hc]]
    exact (beq_iff_eq.mp hfresh).symm
  · rw [find?_insertBlock_self hf hrest]
    rfl

theorem State.block_setBlock_other (s : State) {d n d' n' : Nat} {f : Block → Block} (hf : (f (s.block d n)).at? d' n' = false) (hne : ¬ (d = d' ∧ n = n')) :
    (s.setBlock d n f).block d' n' = s.block d' n' := by
  have hrest : (s.flash.blocks.filter (fun c => !(c.die == d && c.num == n))).find? (Block.at? d' n') =
      s.flash.blocks.find? (Block.at? d' n') := by
    rw [List.find?_filter]
    congr 1
    funext c
    simp only [Block.at?]
    grind
  rw [State.block_eq, State.block_eq]
  unfold State.setBlock State.onFlash
  dsimp only
  split
  · rw [hrest]
  · rw [find?_insertBlock_other hf, hrest]

/-- A change of a block that keeps its place and its state changes the state of no block. -/
theorem State.setBlock_st (s : State) (d n : Nat) {f : Block → Block} (hf : ∀ b, (f b).die = b.die ∧ (f b).num = b.num ∧ (f b).st = b.st)
    (d' n' : Nat) : ((s.setBlock d n f).block d' n').st = (s.block d' n').st := by
  obtain ⟨hdie, hnum, hst⟩ := hf (s.block d n)
  have hplace : ∀ e m, (f (s.block d n)).at? e m = (s.block d n).at? e m := fun e m => by simp [Block.at?, hdie, hnum]
  by_cases h : d = d' ∧ n = n'
  · obtain ⟨rfl, rfl⟩ := h
    rw [s.block_setBlock_self d n (by rw [hplace]; exact s.block_place d n), hst]
  · rw [s.block_setBlock_other _ h]
    have hat := s.block_place d n
    rw [hplace]
    simp only [Block.at?, Bool.and_eq_true, beq_iff_eq] at hat ⊢
    obtain ⟨hd, hn⟩ := hat
    simp only [hd, hn]
    simpa using h

/-! An erased block. -/

theorem State.flagBlock_st (s : State) (d b d' n' : Nat) : ((s.flagBlock d b).block d' n').st = (s.block d' n').st := by
  unfold State.flagBlock
  split
  · exact s.setBlock_st d b (f := fun x => { x with flagged := true }) (fun _ => ⟨rfl, rfl, rfl⟩) d' n'
  · rfl

theorem State.wearLevel_st (s : State) (d d' n' : Nat) : ((s.wearLevel d).block d' n').st = (s.block d' n').st := by
  unfold State.wearLevel
  extract_lets n spread bs top low
  split
  · rfl
  · cases low with
    | none => rfl
    | some b =>
      dsimp only
      split
      · exact (State.setBlock_st _ _ _ (f := fun x => { x with wlFlag := x.flagged }) (fun _ => ⟨rfl, rfl, rfl⟩) d' n').trans
          (s.flagBlock_st _ _ d' n')
      · rfl

theorem State.eraseBlock_st (s : State) (d b : Nat) : ((s.eraseBlock d b).block d b).st = .erased := by
  unfold State.eraseBlock
  extract_lets counted cleared
  have hplace := cleared.block_place d b
  rw [State.block_setBlock_self _ _ _ (by exact hplace)]

theorem State.tally_flash (s : State) (f : Field) (n : Nat) : (s.tally f n).flash = s.flash :=
  (State.tally_moved (T := 194) (by exact rfl) (Moved.refl _ s)).same (p := .flash) rfl

/-- An erase that passes leaves its block erased (R254). -/
theorem State.eraseStep_st (s : State) (d b : Nat) : ((s.eraseStep d b true).block d b).st = .erased := by
  unfold State.eraseStep
  extract_lets x
  have hx : x = ((s.eraseBlock d b).wearLevel d).tally Reg.UPKEEP.ERASES.COUNT := if_pos rfl
  rw [State.block_of_flash (flashView_blocks.flashSettle x), hx,
    State.block_of_flash (congrArg (fun fl => (fl.blocks, fl.recoveries)) (State.tally_flash _ _ _)), State.wearLevel_st]
  exact s.eraseBlock_st d b

/-! What a row finds on its die. -/

section
variable {d b p : Nat} {s : State}

theorem State.engineErase_free {pass : Bool} (ha : s.engineAsked d b .erase = false) (hf : s.engineFree d b .erase = true) :
    s.engineErase d b true pass = ((s.countGrant 64 d 0).eraseStep d b pass).stepEnded d :=
  (if_neg (by simp [ha])).trans (if_pos hf)

theorem State.engineErase_busy {pass : Bool} (ha : s.engineAsked d b .erase = false) (hf : s.engineFree d b .erase = false) :
    s.engineErase d b true pass = s.present d (newReq 64 0 .steady (s.engineWeight 64) .erase b 0 .other) :=
  (if_neg (by simp [ha])).trans (if_neg (by simp [hf]))

variable {who : Nat} {body : State → State}

theorem State.engineRead_goesOn {may : Bool} (hh : s.engineHolds who d b p = true) :
    s.engineRead who d b p true may body = ((body s).stepEnded d).release_ d :=
  (if_pos hh).trans (if_pos rfl)

theorem State.engineRead_free (hh : s.engineHolds who d b p = false) (ha : s.engineAsked d b .read = false)
    (hf : s.engineFree d b .read = true) :
    s.engineRead who d b p true true body = (body ((s.countGrant who d 0).arrayRead d b)).stepEnded d :=
  (if_neg (by simp [hh])).trans ((if_neg (by simp [ha])).trans (if_pos hf))

theorem State.engineRead_busy (hh : s.engineHolds who d b p = false) (ha : s.engineAsked d b .read = false)
    (hf : s.engineFree d b .read = false) :
    s.engineRead who d b p true true body = s.present d (newReq who 0 .steady (s.engineWeight who) .read b p .other) :=
  (if_neg (by simp [hh])).trans ((if_neg (by simp [ha])).trans (if_neg (by simp [hf])))

/-- A relocation whose map pages are all there is its reading step. -/
theorem State.engineMove_of_there {may : Bool} {outs : List SlotOut} {prog : ProgOut} (hr : s.relocates = true) (hm : s.sourceMissing d b p = []) :
    s.engineMove who d b p may outs prog = s.engineRead who d b p true may (fun s => s.relocateStep who d b p outs prog) := by
  unfold State.engineMove
  simp [hm, hr]

end

/-! The rows. -/

/-- A row of a relocation: of a GC victim or of a block due for refresh. -/
theorem exec_relocation {d b p who : Nat} {outs : List SlotOut} {prog : ProgOut} {s : State} {i : Instr} (hk : s.clocked = true)
    (hmay : s.stepsMay = true) (hr : s.relocates = true) (he : s.eccOpen = true) (hv : s.pageValid d b p = true)
    (h : (i = .pageRelocation d b p outs prog ∧ who = 64 ∧ s.shortfall ≠ 0 ∧ s.isVictim d b = true ∧ s.rankFree s.gcRank = true) ∨
      (i = .refreshRelocation d b p outs prog ∧ who = 67 ∧ s.refreshDue (s.block d b) = true ∧ s.rankFree 3 = true)) :
    exec i s = (s.engineMove who d b p true outs prog).done := by
  rcases h with ⟨rfl, rfl, hshort, hvictim, hrank⟩ | ⟨rfl, rfl, hdue, hrank⟩
  · refine (if_pos hk).trans ?_
    simp [hmay, hr, he, hv, bne_iff_ne.mpr hshort, hvictim, hrank]
  · refine (if_pos hk).trans ?_
    simp [hmay, hr, he, hv, hdue, hrank]

theorem exec_blockErase {d b : Nat} {pass : Bool} {s : State} (hk : s.clocked = true) (hmay : s.stepsMay = true)
    (hr : s.relocates = true) (he : s.erasable d b = true) (hrank : s.rankFree (if s.shortfall = 0 then 6 else s.gcRank) = true) :
    exec (.blockErase d b pass) s = (s.engineErase d b true pass).done := by
  refine (if_pos hk).trans ?_
  simp [hmay, hr, he, hrank]

theorem exec_verificationRead {d b p i k : Nat} {outs : List SlotOut} {s : State} (hk : s.clocked = true) (hmay : s.stepsMay = true)
    (he : s.eccOpen = true) (hopen : s.pageOpen 0x0E = true) (hgood : s.dieGood d = true) (ha : s.awaitsVerify d b p = some (i, k))
    (hrank : s.rankFree 4 = true) :
    exec (.verificationRead d b p outs) s = (s.engineRead 65 d b p true true (fun s => s.verifyStep i k d b p outs)).done := by
  refine (if_pos hk).trans ?_
  simp only [ha, hgood, hmay, he, hopen, hrank, Bool.not_true, Bool.false_eq_true, if_false, Bool.and_self]

theorem exec_patrolSample {d b p : Nat} {outs : List SlotOut} {s : State} (hk : s.clocked = true) (hmay : s.stepsMay = true)
    (he : s.eccOpen = true) (hopen : s.pageOpen 0x0E = true) (ha : s.awaitsVerify d b p = none) (hp : s.patrolOwed d b p = true)
    (hrank : s.rankFree 7 = true) :
    exec (.verificationRead d b p outs) s = (s.engineRead 65 d b p true true (fun s => s.patrolStep d b p outs)).done := by
  refine (if_pos hk).trans ?_
  simp only [ha, hp, hmay, he, hopen, hrank, if_true, Bool.and_self]

/-- A patrol round owes the closed blocks of the dies in use. -/
theorem State.mem_startPatrol (s : State) (e : Nat × Nat) : e ∈ s.startPatrol.flash.upkeep.patrol ↔
    ∃ x ∈ s.flash.blocks, x.st = .closed ∧ s.dieGood x.die = true ∧ e = (x.die, x.num) := by
  unfold State.startPatrol
  extract_lets l base
  have hlist : (if l.isEmpty then base.raise Evt.UPKEEP.PATROL_DONE else base).flash.upkeep.patrol = l := by
    split
    · exact congrArg (fun fl => fl.upkeep.patrol) (State.raise_flash base _ _)
    · rfl
  rw [hlist]
  simp only [l, List.mem_map, List.mem_filter, Bool.and_eq_true, beq_iff_eq, and_assoc]
  exact ⟨fun ⟨x, hx, hst, hgood, he⟩ => ⟨x, hx, hst, hgood, he.symm⟩, fun ⟨x, hx, hst, hgood, he⟩ => ⟨x, hx, hst, hgood, he.symm⟩⟩

/-- Settles O51: each row by what it finds on its die, a patrol round by the blocks that are closed. -/
theorem upkeepSteps : Obligations.UpkeepSteps := by
  refine ⟨fun d b p s hk hmay => ⟨fun pass hr he hrank ha => ⟨fun hf => ?_, fun hf => ?_⟩,
    fun i who outs prog hr he hv hi hh hm ha => ⟨fun hf => ?_, fun hf => ?_⟩,
    fun outs he hopen hgood hh ha hf => ⟨fun i k hawait hrank => ?_, fun hawait hp hrank => ?_⟩⟩,
    fun d b p outs prog s hk hr hm => ⟨fun hh => ?_, fun hh => ?_⟩, fun s hk => ?_⟩
  · have hmoves := moves_done ((exec_blockErase (pass := pass) hk hmay hr he hrank).trans (congrArg State.done (State.engineErase_free ha hf)))
    refine ⟨_, hmoves, ?_⟩
    rintro rfl
    rw [State.block_of_flash (congrArg (fun fl => (fl.blocks, fl.recoveries)) (flash_of_ends hmoves.2.2))]
    exact State.eraseStep_st _ d b
  · exact ⟨_, moves_done ((exec_blockErase hk hmay hr he hrank).trans (congrArg State.done (State.engineErase_busy ha hf)))⟩
  · exact ⟨_, moves_done ((exec_relocation hk hmay hr he hv hi).trans
      (congrArg State.done ((State.engineMove_of_there hr hm).trans (State.engineRead_free hh ha hf))))⟩
  · exact ⟨_, moves_done ((exec_relocation hk hmay hr he hv hi).trans
      (congrArg State.done ((State.engineMove_of_there hr hm).trans (State.engineRead_busy hh ha hf))))⟩
  · exact ⟨_, moves_done ((exec_verificationRead hk hmay he hopen hgood hawait hrank).trans
      (congrArg State.done (State.engineRead_free hh ha hf)))⟩
  · exact ⟨_, moves_done ((exec_patrolSample hk hmay he hopen hawait hp hrank).trans
      (congrArg State.done (State.engineRead_free hh ha hf)))⟩
  · exact ⟨_, moves_done ((if_pos hk).trans (congrArg State.done ((State.engineMove_of_there hr hm).trans (State.engineRead_goesOn hh))))⟩
  · exact ⟨_, moves_done ((if_pos hk).trans (congrArg State.done ((State.engineMove_of_there hr hm).trans (State.engineRead_goesOn hh))))⟩
  · have hmoves := moves_done (i := .patrolStart) (s := s) (x := s.startPatrol.flashSettle) (if_pos hk)
    refine ⟨_, hmoves, fun e => ?_⟩
    rw [flash_of_ends hmoves.2.2, flashView_patrol.flashSettle]
    exact s.mem_startPatrol e

end Sys2Proof.Machine
end

section
/-!
Decodes, map page fetches and reconfiguration (R215, R217, R248, R338, R342–R348).
-/
namespace Sys2Proof.Machine
open Sys2Proof.Safety

/-! Programs of the map region, by what they leave alone. -/

/-- A view of the flash that shows nothing of the block table and of the counts of the arbiters: of what a program of the map region
changes. -/
structure CountView {α : Type} (g : Flash → α) : Prop where
  blocks : ∀ fl (x : List Block), g { fl with blocks := x } = g fl
  arb : ∀ fl (x : List ArbCount), g { fl with arb := x } = g fl

section
variable {α : Type} {g : Flash → α} (hg : CountView g)
include hg

theorem CountView.setBlock (s : State) (d n : Nat) (f : Block → Block) : g (s.setBlock d n f).flash = g s.flash := hg.blocks _ _

theorem CountView.flagBlock (s : State) (d n : Nat) : g (s.flagBlock d n).flash = g s.flash := by
  unfold State.flagBlock
  split
  · exact hg.setBlock _ _ _ _
  · rfl

theorem CountView.renewMapBlock (s : State) (d n : Nat) : g (s.renewMapBlock d n).flash = g s.flash := by
  unfold State.renewMapBlock
  split
  · rfl
  · refine (hg.setBlock _ _ _ _).trans (congrArg g ?_)
    exact (State.tally_flash _ _ _).trans (State.tally_flash _ _ _)

theorem CountView.mapProgram (s : State) (d : Nat) : g (s.mapProgram d).1.flash = g s.flash := by
  unfold State.mapProgram
  split
  · rfl
  · split
    · rfl
    · extract_lets counted blocks cur bump next closed
      have hcounted : g counted.flash = g s.flash := congrArg g (State.tally_flash _ _ _)
      have hbump : ∀ x n, g (bump x n).flash = g x.flash := fun x n => hg.setBlock x d n _
      have hclosed : g closed.flash = g s.flash := (hg.setBlock counted d cur _).trans hcounted
      split
      · exact (hbump _ _).trans hcounted
      · exact (hbump _ _).trans ((hg.renewMapBlock closed d next).trans hclosed)

theorem CountView.countGrant (s : State) (who d waited : Nat) : g (s.countGrant who d waited).flash = g s.flash := by
  unfold State.countGrant
  split
  · rfl
  · extract_lets full before base
    have hbase : g base.flash = g s.flash := hg.arb _ _
    split
    · exact (congrArg g (State.raise_flash _ _ _)).trans hbase
    · exact hbase

theorem CountView.mapWrite (s : State) : g s.mapWrite.1.flash = g s.flash := by
  have hfold : ∀ (l : List Nat) (a : State × List (Nat × Nat)), g (l.foldl (fun (a : State × List (Nat × Nat)) d =>
      let r := (a.1.countGrant 66 d 0).mapProgram d
      match r.2 with
      | some b => (r.1, a.2 ++ [(d, b)])
      | none => (r.1, a.2)) a).1.flash = g a.1.flash := by
    intro l
    induction l with
    | nil => exact fun _ => rfl
    | cons d l ih =>
      intro a
      refine (ih _).trans (Eq.trans ?_ ((hg.mapProgram (a.1.countGrant 66 d 0) d).trans (hg.countGrant a.1 66 d 0)))
      cases h : ((a.1.countGrant 66 d 0).mapProgram d).2 <;> simp only [h]
  exact hfold _ _

end

/-- The map. -/
theorem countView_map : CountView (fun fl => fl.map) := ⟨fun _ _ => rfl, fun _ _ => rfl⟩

/-- The pages. -/
theorem countView_pages : CountView (fun fl => fl.pages) := ⟨fun _ _ => rfl, fun _ _ => rfl⟩

/-! The cache. -/

theorem any_mapIf {α : Type} {p r : α → Bool} {f : α → α} (hf : ∀ x, r (f x) = r x) (l : List α) : (mapIf p f l).any r = l.any r := by
  induction l with
  | nil => rfl
  | cons a l ih =>
    have hhead : r (if p a then f a else a) = r a := by
      split
      · exact hf a
      · rfl
    simp only [mapIf, List.any_cons, ih, hhead]

theorem State.makeResident_resident (s : State) (i idx : Nat) : (s.makeResident i idx).resident i idx = true := by
  unfold State.makeResident
  split
  · assumption
  · simp [State.resident, State.onMap, State.onFlash]

theorem State.makeResident_of_resident {s : State} {i idx : Nat} (h : s.resident i idx = true) : s.makeResident i idx = s := if_pos h

/-- Do two states agree on which map pages are resident and which are being fetched? -/
def CacheKept (s t : State) : Prop := (∀ j k, t.resident j k = s.resident j k) ∧ t.flash.map.fetching = s.flash.map.fetching

theorem CacheKept.refl (s : State) : CacheKept s s := ⟨fun _ _ => rfl, rfl⟩

theorem CacheKept.trans {a b t : State} (h : CacheKept a b) (k : CacheKept b t) : CacheKept a t :=
  ⟨fun i idx => (k.1 i idx).trans (h.1 i idx), k.2.trans h.2⟩

theorem CacheKept.of_map {s t : State} (h : t.flash.map = s.flash.map) : CacheKept s t := by
  unfold CacheKept State.resident
  rw [h]
  exact ⟨fun _ _ => rfl, rfl⟩

theorem State.tally_cacheKept (s : State) (f : Field) (n : Nat) : CacheKept s (s.tally f n) :=
  CacheKept.of_map (congrArg Flash.map (s.tally_flash f n))

theorem State.writtenBack_cacheKept (s : State) (i idx : Nat) (places : List (Nat × Nat)) : CacheKept s (s.writtenBack i idx places) := by
  have htally := s.tally_cacheKept Reg.FTL.MAP_WRITEBACKS.COUNT 1
  unfold State.writtenBack
  extract_lets x
  split
  · exact htally
  · exact htally.trans ⟨fun j k => any_mapIf (f := fun p : CachedPage => { p with dirty := false, dirtyAt := 0 }) (fun _ => rfl) _, rfl⟩

theorem State.writeBack_cacheKept (s : State) (i idx : Nat) : CacheKept s (s.writeBack i idx) :=
  (CacheKept.of_map (countView_map.mapWrite s)).trans (State.writtenBack_cacheKept _ _ _ _)

/-- A resident page that takes a change stays resident, and so does every other page. -/
theorem State.dirty_cacheKept {s : State} {i idx : Nat} (h : s.resident i idx = true) : CacheKept s (s.dirty i idx) := by
  unfold State.dirty
  split
  · exact CacheKept.refl s
  · extract_lets there room
    have hthere : there = s := State.makeResident_of_resident h
    have hroom : CacheKept s room := by
      rw [← hthere]
      dsimp only [room]
      split
      · split
        · exact State.writeBack_cacheKept _ _ _
        · exact CacheKept.refl _
      · exact CacheKept.refl _
    split
    · rw [hthere]
      exact CacheKept.refl s
    · exact hroom.trans ⟨fun j k => any_mapIf (f := fun p : CachedPage => { p with dirty := true, dirtyAt := room.flash.map.stamp + 1 })
        (fun _ => rfl) _, rfl⟩

theorem State.report_mapPageLost_flash (s : State) : (s.report Src.FTL.MAP_PAGE_LOST).flash = s.flash := by
  have h : s.report Src.FTL.MAP_PAGE_LOST = s.reported Src.FTL.MAP_PAGE_LOST 0 := State.report_unforced (by decide)
  rw [h]
  exact (s.reported_moved _ _).same (p := .flash) rfl

theorem State.mapLost_cacheKept {s : State} {i idx : Nat} (h : s.resident i idx = true) : CacheKept s (s.mapLost i idx) := by
  unfold State.mapLost
  extract_lets counted inPage old lost listed
  have hflash : counted.flash = s.flash := (State.tally_flash _ _ _).trans s.report_mapPageLost_flash
  have hlisted : CacheKept s listed := (CacheKept.of_map (congrArg Flash.map hflash)).trans ⟨fun _ _ => rfl, rfl⟩
  exact hlisted.trans (State.dirty_cacheKept ((hlisted.1 i idx).trans h))

theorem State.pinSettle_flash (s : State) (i : Nat) : (s.pinSettle i).flash = s.flash :=
  (State.pinSettle_moved (T := 706) (by exact rfl) (Moved.refl _ s)).same (p := .flash) rfl

theorem State.unpark_flash (s : State) (i idx : Nat) : (s.unpark i idx).flash = s.flash := rfl

/-! Fetches of map pages. -/

/-- The card with the page of a fetch resident and its fetch ended. -/
def State.fetchedPage (s : State) (f : Fetch) : State :=
  (s.makeResident f.slice f.idx).onMap (fun m => { m with fetching := m.fetching.filter (fun x => !(x.slice == f.slice && x.idx == f.idx)) })

theorem State.fetchedPage_resident (s : State) (f : Fetch) : (s.fetchedPage f).resident f.slice f.idx = true :=
  s.makeResident_resident f.slice f.idx

theorem State.fetchedPage_fetch (s : State) (f : Fetch) : (s.fetchedPage f).fetch? f.slice f.idx = none := by
  refine List.find?_eq_none.mpr fun x hx => ?_
  have hother := (List.mem_filter.mp hx).2
  rwa [Bool.not_eq_true', ← Bool.not_eq_true] at hother

/-- A fetch that ends leaves the page resident and no fetch of it, lost or not (R248). -/
theorem State.fetchEnds_cacheKept (s : State) (f : Fetch) (good : Bool) : CacheKept (s.fetchedPage f) (s.fetchEnds f good) := by
  unfold State.fetchEnds
  extract_lets there ended
  have hended : CacheKept (s.fetchedPage f) ended := by
    dsimp only [ended]
    split
    · exact CacheKept.refl _
    · exact State.mapLost_cacheKept (s.fetchedPage_resident f)
  exact hended.trans (CacheKept.of_map (congrArg Flash.map ((State.unpark_flash _ _ _).trans (State.pinSettle_flash _ _))))

theorem State.fetchOn_copy {s : State} {i p : Nat} {a b : Bool} {f : Fetch} {e : Nat × Nat} (hf : s.fetch? i p = some f)
    (hc : s.fetchCopy f = some e) (ha : f.arrived = true) (hgood : (if f.tried = 0 then a else b) = true) :
    State.fetchOn i p a b 3 s = s.fetchEnds f true := by
  unfold State.fetchOn
  simp only [hf, hc, ha, hgood, if_true, Bool.not_true, Bool.false_eq_true, if_false]

theorem State.fetchOn_noCopy {s : State} {i p : Nat} {a b : Bool} {f : Fetch} (hf : s.fetch? i p = some f) (hc : s.fetchCopy f = none) :
    State.fetchOn i p a b 3 s = s.fetchEnds f false := by
  unfold State.fetchOn
  simp only [hf, hc]

/-! Decodes. -/

theorem State.slotData_of_pages {s t : State} (h : t.flash.pages = s.flash.pages) (d b p k : Nat) : t.slotData d b p k = s.slotData d b p k := by
  unfold State.slotData State.page?
  rw [h]

theorem State.decodeCounts_hard_pages (s : State) (d b bits : Nat) : (s.decodeCounts d b (.hard bits)).flash.pages = s.flash.pages := by
  unfold State.decodeCounts
  dsimp only
  have hcounted : ∀ v, ((s.tally Reg.ECC.HARD_OK.COUNT).wr Reg.ECC.MAX_BITS.BITS v).flash.pages = s.flash.pages :=
    fun _ => congrArg Flash.pages (s.tally_flash Reg.ECC.HARD_OK.COUNT 1)
  split
  · exact (countView_pages.flagBlock _ _ _).trans (hcounted _)
  · exact hcounted _

theorem State.decodeCounts_soft_pages (s : State) (d b : Nat) : (s.decodeCounts d b .soft).flash.pages = s.flash.pages :=
  (countView_pages.flagBlock (s.tally Reg.ECC.SOFT_OK.COUNT) d b).trans (congrArg Flash.pages (s.tally_flash _ _))

section
variable {d b p k : Nat} {out : SlotOut} {s : State} {w : Codeword} (hk : s.clocked = true) (hw : s.word? d b p k = some w)
include hw

/-- A codeword whose command is held, or that the decoders do not take, stays. -/
theorem exec_decodes_wait (h : s.eccOpen = false ∨ s.descHeld w.q = true) :
    exec (.hardDecodeDone d b p k out) s = s.done ∧ exec (.softDecodeDone d b p k out) s = s.done := by
  refine ⟨?_, ?_⟩
  · change execHardDecodeDone d b p k out s = _
    unfold execHardDecodeDone
    simp only [hw]
    exact if_pos (by rcases h with h | h <;> simp [h])
  · change execSoftDecodeDone d b p k out s = _
    unfold execSoftDecodeDone
    simp only [hw]
    exact if_pos (by rcases h with h | h <;> simp [h])

include hk

theorem exec_hardDecode (ho : s.eccOpen = true) (hd : s.descHeld w.q = false) (hs : w.soft = false) :
    exec (.hardDecodeDone d b p k out) s = if out.needsSoft then
      (((s.setWord w (fun _ => { w with soft := true })).softRead { w with soft := true }).flashSettle).done else (s.wordEnds w out).done := by
  change execHardDecodeDone d b p k out s = _
  unfold execHardDecodeDone
  simp only [hw]
  exact if_neg (by simp [hk, ho, hd, hs])

theorem exec_softDecode (ho : s.eccOpen = true) (hd : s.descHeld w.q = false) (hs : w.soft = true) (hr : w.reads = 3)
    (hdec : w.decoder ≠ none) (hout : out.needsSoft = true) : exec (.softDecodeDone d b p k out) s = (s.wordEnds w out).done := by
  change execSoftDecodeDone d b p k out s = _
  unfold execSoftDecodeDone
  simp only [hw]
  exact if_neg (by simp [hk, ho, hd, hs, hr, hdec, hout])

end

/-! Reconfiguration. -/

theorem exec_mapPageResident {i p : Nat} {a b : Bool} {s : State} {f : Fetch} (hk : s.clocked = true) (hf : s.fetch? i p = some f)
    (hm : s.fetchMay f = true) : exec (.mapPageResident i p a b) s = ((State.fetchOn i p a b 3 s).goOn.flashSettle).done := by
  change execMapPageResident i p a b s = _
  unfold execMapPageResident
  simp only [hf]
  exact if_pos (by simp [hk, hm])

/-- No entry of a channel that has been configured asks for it again. -/
theorem State.configure_reconf (s : State) (n : Nat) (pr : Profile) (l : List (Nat × Nat)) :
    ∀ e ∈ (s.configure n pr l).flash.chans, e.id = n → e.reconf = false := by
  unfold State.configure
  extract_lets khz sdr k dies r fast
  intro e he hid
  obtain ⟨c, hc, rfl⟩ := List.mem_map.mp he
  have hboth : (if c.id / 4 = n / 4 then { c with zqDone := true } else c).id = c.id ∧
      (if c.id / 4 = n / 4 then { c with zqDone := true } else c).reconf = c.reconf := by
    split <;> exact ⟨rfl, rfl⟩
  rw [hboth.2]
  rw [hboth.1] at hid
  rcases mem_mapIf hc with ⟨-, hother⟩ | ⟨x, -, -, rfl⟩
  · rw [hid, beq_self_eq_true] at hother
    exact absurd hother (by decide)
  · rfl

theorem exec_reconfiguration {n : Nat} {l : List (Nat × Nat)} {s : State} {c : Chan} {pr : Profile} (hk : s.clocked = true)
    (hc : s.chanOf? n = some c) (hp : s.chanProfile n = some pr) (hr : c.reconf = true) (hi : s.channelIdle n = true) :
    exec (.reconfiguration n l) s =
      (((s.configure n pr l).raise (Evt.CH.RECONFIGURED.1 + n, Evt.CH.RECONFIGURED.2)).chanTally Reg.CH.COUNTS.RECONFIGS n).done := by
  change execReconfiguration n l s = _
  unfold execReconfiguration
  simp only [hc, hp]
  exact if_pos (by simp [hk, hr, hi])

/-- Settles O50: decodes by what holds the codeword and by the outcome, a fetch by its copies, a reconfiguration by its channel's entry. -/
theorem decodesAndFetches : Obligations.DecodesAndFetches := by
  refine ⟨fun d b p k out s w hk hw => ⟨fun ho hd hs => ⟨fun hout => ?_, fun hout => ?_⟩, fun ho hd hs hr hdec hout => ?_, fun h => ?_⟩,
    fun s d b p k bits u => ⟨?_, ?_⟩, fun i p a b s f hk hf hm => ⟨?_, fun e hc ha hgood => ?_, fun hc => ?_⟩,
    fun s f good => ?_, fun i p a b s hf => ?_, fun n l s c pr hk hc hp hr hi => ?_⟩
  · exact ⟨_, moves_done ((exec_hardDecode hk hw ho hd hs).trans (if_pos hout))⟩
  · exact ⟨_, moves_done ((exec_hardDecode hk hw ho hd hs).trans (if_neg (by simp [hout])))⟩
  · exact ⟨_, moves_done (exec_softDecode hk hw ho hd hs hr hdec hout)⟩
  · have hwait := exec_decodes_wait (out := out) hw h
    exact ⟨⟨_, moves_done hwait.1⟩, _, moves_done hwait.2⟩
  · exact State.slotData_of_pages (s.decodeCounts_hard_pages d b bits) d b p k
  · exact State.slotData_of_pages (s.decodeCounts_soft_pages d b) d b p k
  · exact ⟨_, moves_done (exec_mapPageResident hk hf hm)⟩
  · exact State.fetchOn_copy hf hc ha hgood
  · exact State.fetchOn_noCopy hf hc
  · have hkept := s.fetchEnds_cacheKept f good
    refine ⟨(hkept.1 _ _).trans (s.fetchedPage_resident f), ?_⟩
    unfold State.fetch?
    rw [hkept.2]
    exact s.fetchedPage_fetch f
  · change execMapPageResident i p a b s = _
    unfold execMapPageResident
    rw [hf]
  · have hmoves := moves_done (exec_reconfiguration (l := l) hk hc hp hr hi)
    refine ⟨_, hmoves.1, ?_⟩
    have hflash : (((s.configure n pr l).raise (Evt.CH.RECONFIGURED.1 + n, Evt.CH.RECONFIGURED.2)).chanTally
        Reg.CH.COUNTS.RECONFIGS n).flash = (s.configure n pr l).flash :=
      ((State.bump_moved (T := 194) (f := Reg.CH.COUNTS.RECONFIGS.ofChannel n) (n := 1) (by exact rfl) (Moved.refl _ _)).same
        (p := .flash) rfl).trans (State.raise_flash _ _ _)
    rw [flash_of_ends hmoves.2.2, hflash]
    exact s.configure_reconf n pr l

end Sys2Proof.Machine
end

section
/-!
Grants, readiness and the bus (R225–R233, R327, R338, R342).
-/
namespace Sys2Proof.Machine
open Sys2Proof.Safety

/-! Array reads, by what they leave alone. -/

section
variable {α : Type} {g : Flash → α} (hg : CountView g)
include hg

theorem CountView.checkpointBatch (s : State) : g s.checkpointBatch.flash = g s.flash := by
  unfold State.checkpointBatch
  split
  · exact (hg.blocks _ _).trans (hg.mapWrite s)
  · rfl

theorem CountView.arrayRead (s : State) (d b : Nat) (urgent : Bool) : g (s.arrayRead d b urgent).flash = g s.flash := by
  unfold State.arrayRead
  extract_lets batched carried counted read
  have hbatched : g batched.flash = g s.flash := hg.checkpointBatch s
  have hcarried : g carried.flash = g s.flash := by
    dsimp only [carried]
    split
    · split
      · exact (congrArg g ((State.bump_moved (T := 194) (f := Reg.FTL.CKPT.URGENT_CARRIED) (n := 1) (by exact rfl)
          (Moved.refl _ batched)).same (p := .flash) rfl)).trans hbatched
      · exact hbatched
    · rfl
  have hread : g read.flash = g s.flash := (hg.setBlock counted d b _).trans ((congrArg g (State.tally_flash _ _ _)).trans hcarried)
  split
  · exact (hg.flagBlock _ _ _).trans hread
  · exact hread

end

theorem countView_dies : CountView (fun fl => fl.dies) := ⟨fun _ _ => rfl, fun _ _ => rfl⟩

theorem State.arrayRead_dies (s : State) (d b : Nat) (urgent : Bool) : (s.arrayRead d b urgent).flash.dies = s.flash.dies :=
  countView_dies.arrayRead s d b urgent

theorem State.addJob_dies (s : State) (b : Bearer) (w : JobWork) (dies : List Nat) : (s.addJob b w dies).flash.dies = s.flash.dies := by
  unfold State.addJob
  split <;> rfl

theorem State.hostRead_dies (s : State) (q d b : Nat) (urgent : Bool) : (s.hostRead q d b urgent).flash.dies = s.flash.dies := by
  unfold State.hostRead
  extract_lets before read
  split
  · exact (State.addJob_dies _ _ _ _).trans (s.arrayRead_dies d b urgent)
  · exact s.arrayRead_dies d b urgent

theorem State.fetchRead_dies (s : State) (f : Fetch) (d b : Nat) : (s.fetchRead f d b).flash.dies = s.flash.dies := by
  unfold State.fetchRead
  extract_lets urgent
  split
  · exact s.hostRead_dies _ _ _ _
  · exact s.arrayRead_dies _ _ _

/-! Grants. -/

theorem State.die?_countGrant (s : State) (who d waited e : Nat) : (s.countGrant who d waited).die? e = s.die? e :=
  State.die?_of_dies (countView_dies.countGrant s who d waited) e

theorem Req.granted_read {r : Req} (h : r.op = .read) : r.granted = { r with waited := 0 } := by
  simp [Req.granted, h]

/-- The die as the grant to an admitted urgent request leaves it (R225). -/
def Die.urgentGrant (l : List Req) (r : Req) (x : Die) : Die :=
  { x with fifo := l, holder := some (.step r.granted), activity := .reading, guarded := false, preempting := false, watchdog := 0 }

/-- The head of the urgent FIFO takes the die (R225). -/
theorem State.grantUrgent_die {s : State} {d : Nat} {x : Die} {r : Req} {l : List Req} (hx : s.die? d = some x) (hf : x.fifo = r :: l)
    (hm : s.opMay d r.block r.op = true) : ∃ z, (s.grantUrgent d).die? d = some z ∧ z.holder = some (.step r.granted) ∧ z.fifo = l ∧
      z.activity = .reading := by
  refine ⟨x.urgentGrant l r, ?_, rfl, rfl, rfl⟩
  unfold State.grantUrgent
  simp only [hx, hf, hm, Bool.not_true, Bool.false_eq_true, if_false]
  rw [State.die?_countGrant]
  exact State.die?_setDie_self (f := Die.urgentGrant l r) (fun _ => rfl) hx

/-- No channel of an open number asks for a reconfiguration. -/
theorem State.reconf_of_chanOpen {s : State} {n : Nat} (h : s.chanOpen n = true) {c : Chan} (hc : s.chanOf? n = some c) : c.reconf = false := by
  unfold State.chanOpen at h
  simp only [Bool.and_eq_true, Bool.not_eq_true', List.any_eq_false] at h
  have hfind : s.flash.chans.find? (fun c => c.id == n) = some c := hc
  simpa [List.find?_some hfind] using h.2 c (List.mem_of_find?_eq_some hfind)

/-- Is a reconfiguration of a channel due, with no soft reset of it active? -/
def State.reconfDue (s : State) (n : Nat) : Bool :=
  match s.chanOf? n with
  | some c => c.reconf && !s.bit (resetActive (0x10 + n) 0)
  | none => false

theorem State.reconfDue_of_chanOpen {s : State} {n : Nat} (h : s.chanOpen n = true) : s.reconfDue n = false := by
  unfold State.reconfDue
  split
  · rename_i c hc
    rw [State.reconf_of_chanOpen h hc]
    rfl
  · rfl

/-- ARBITER_GRANT on a free die: a reconfiguration that is due and may begin holds the channel, otherwise the die is granted. -/
theorem exec_arbiterGrant {d : Nat} {s : State} {w : Die} (hk : s.clocked = true) (hw : s.die? d = some w) (hh : w.holder = none) :
    exec (.arbiterGrant d) s = if s.arbSettle.reconfDue (d / 16) && s.arbSettle.channelIdle (d / 16)
      then (s.arbSettle.holdChannel (d / 16)).done else (((s.arbSettle.grantDie d).grantBegun d).flashSettle).done := by
  change execArbiterGrant d s = _
  unfold execArbiterGrant
  simp only [hw, hk, hh]
  rfl

theorem exec_arbiterGrant_held {d : Nat} {s : State} (h : s.die? d = none ∨ ∃ x, s.die? d = some x ∧ x.holder ≠ none) :
    exec (.arbiterGrant d) s = s.done := by
  change execArbiterGrant d s = _
  unfold execArbiterGrant
  rcases h with h | ⟨x, hx, hh⟩
  · simp only [h]
  · simp only [hx]
    exact if_pos (by simp [Option.isSome_iff_ne_none.mpr hh])

/-- A free die on an open channel goes to the head of its FIFO (R225–R227). -/
theorem State.grantDie_urgent {s : State} {d : Nat} {x : Die} {r : Req} {l : List Req} (hx : s.die? d = some x) (hh : x.holder = none)
    (hfail : x.failed = false) (hgate : s.chanGate d = true) (hopen : s.chanOpen (d / 16) = true) (hf : x.fifo = r :: l) :
    s.grantDie d = s.grantUrgent d := by
  unfold State.grantDie
  simp only [hx]
  rw [if_neg (by simp [hh, hfail, hgate])]
  exact if_pos (by simp [hopen, hf])

/-! Readiness. -/

theorem State.resetMates_of_resetLun {s : State} {d : Nat} {x : Die} (hx : s.die? d = some x) (h : x.resetLun = true) : s.resetMates d = s := by
  have hmates : s.targetMates d = [] := by
    unfold State.targetMates
    rw [hx]
    split
    · rename_i y p hy _
      cases hy
      exact if_pos h
    · rfl
  unfold State.resetMates
  rw [hmates]
  rfl

theorem exec_dieReady_way {d : Nat} {pass : Bool} {s : State} {x : Die} (hk : s.clocked = true) (hx : s.die? d = some x)
    (hp : x.preempting = true) : exec (.dieReady d pass) s = (((s.wayReset d x).makeWay d).grantUrgent d).done := by
  change execDieReady d pass s = _
  unfold execDieReady
  simp only [hx]
  exact (if_neg (by simp [hk])).trans (if_pos hp)

theorem exec_dieReady_ends {d : Nat} {pass : Bool} {s : State} {x : Die} {h : Holder} (hk : s.clocked = true) (hx : s.die? d = some x)
    (hp : x.preempting = false) (hh : x.holder = some h) :
    exec (.dieReady d pass) s = ((s.operationEnds d x h pass).arbSettle.goOn.flashSettle).done := by
  change execDieReady d pass s = _
  unfold execDieReady
  simp only [hx, hh]
  exact (if_neg (by simp [hk])).trans (if_neg (by simp [hp]))

theorem State.setChan_dies (s : State) (n : Nat) (f : Chan → Chan) : (s.setChan n f).flash.dies = s.flash.dies := rfl

theorem State.needBus_die {s : State} {d : Nat} {x : Die} (hx : s.die? d = some x) :
    (s.needBus d).die? d = some { x with moved := 0 } := by
  unfold State.needBus
  rw [State.die?_of_dies (State.grantBus_dies _ _), State.die?_of_dies (State.setChan_dies _ _ _)]
  exact State.die?_setDie_self (f := fun x : Die => { x with moved := 0 }) (fun _ => rfl) hx

/-- An array read that has ended keeps its die for the data output (R342). -/
theorem State.readMade_die {s : State} {d : Nat} {x : Die} (r : Req) (hx : s.die? d = some x) :
    (s.readMade d r).die? d = some { x with activity := .dataOut, watchdog := 0, moved := 0 } := by
  unfold State.readMade
  extract_lets urgent read
  have hread : read.die? d = some x := by
    rw [← hx]
    refine State.die?_of_dies ?_ d
    dsimp only [read]
    split
    · exact s.hostRead_dies _ _ _ _
    · exact s.hostRead_dies _ _ _ _
    · split
      · exact s.fetchRead_dies _ _ _
      · exact s.arrayRead_dies _ _ _
    · exact s.arrayRead_dies _ _ _
    · exact s.arrayRead_dies _ _ _
    · exact s.arrayRead_dies _ _ _
    · exact s.arrayRead_dies _ _ _
  exact State.needBus_die (State.die?_setDie_self (f := fun x : Die => { x with activity := .dataOut, watchdog := 0 }) (fun _ => rfl) hread)

theorem Die.admitWaiting_at (x : Die) (cap n : Nat) : (x.admitWaiting cap n).id = x.id ∧ (x.admitWaiting cap n).holder = x.holder ∧
    (x.admitWaiting cap n).activity = x.activity := by
  induction n generalizing x with
  | zero => exact ⟨rfl, rfl, rfl⟩
  | succ n ih =>
    unfold Die.admitWaiting
    split
    · exact ⟨rfl, rfl, rfl⟩
    · split
      · exact ih _
      · exact ⟨rfl, rfl, rfl⟩

theorem Die.settleU_at (x : Die) (cap : Nat) : (x.settleU cap).id = x.id ∧ (x.settleU cap).holder = x.holder ∧
    (x.settleU cap).activity = x.activity := by
  unfold Die.settleU
  extract_lets y
  have hy : y.id = x.id ∧ y.holder = x.holder ∧ y.activity = x.activity := by
    dsimp only [y]
    split <;> exact ⟨rfl, rfl, rfl⟩
  obtain ⟨hid, hholder, hact⟩ := y.admitWaiting_at cap y.waiting.length
  exact ⟨hid.trans hy.1, hholder.trans hy.2.1, hact.trans hy.2.2⟩

theorem Die.charge_at (x : Die) (r : Req) (share : Nat) : (x.charge r share).id = x.id ∧ (x.charge r share).holder = x.holder ∧
    (x.charge r share).activity = x.activity := by
  unfold Die.charge
  extract_lets o
  split <;> exact ⟨rfl, rfl, rfl⟩

/-- The die that a release leaves, before the bus is free of it. -/
def Die.released (share cap : Nat) (x : Die) : Die :=
  let h := x.holder
  let x := { x with holder := none, activity := .idle, preempting := false, guarded := false, watchdog := 0, bitten := false }
  let x := match h with
    | some (.step r) => x.charge r share
    | some (.orphan _) => x
    | some (.resetLun _ _) => x
    | some .reconfig => x
    | none => x
  x.settleU cap

theorem Die.released_at (share cap : Nat) (x : Die) : (x.released share cap).id = x.id ∧ (x.released share cap).holder = none ∧
    (x.released share cap).activity = .idle := by
  unfold Die.released
  extract_lets h freed charged
  have hcharged : charged.id = x.id ∧ charged.holder = none ∧ charged.activity = .idle := by
    dsimp only [charged]
    rcases h with _ | ⟨r⟩ | _ | _ | _
    case some.step => exact freed.charge_at _ _
    all_goals exact ⟨rfl, rfl, rfl⟩
  obtain ⟨hid, hholder, hact⟩ := charged.settleU_at cap
  exact ⟨hid.trans hcharged.1, hholder.trans hcharged.2.1, hact.trans hcharged.2.2⟩

theorem State.release_leaves (s : State) (d : Nat) :
    s.release_ d = (s.setDie d (Die.released (s.rd Reg.ARB.BULK.BULK_MIN_SHARE) (s.capOf d))).leaveBus d := rfl

/-- A release leaves its die free and idle. -/
theorem State.release_die {s : State} {d : Nat} {x : Die} (hx : s.die? d = some x) :
    ∃ y, (s.release_ d).die? d = some y ∧ y.holder = none ∧ y.activity = .idle := by
  obtain ⟨-, hholder, hact⟩ := x.released_at (s.rd Reg.ARB.BULK.BULK_MIN_SHARE) (s.capOf d)
  refine ⟨_, ?_, hholder, hact⟩
  rw [State.release_leaves, State.die?_leaveBus]
  exact State.die?_setDie_self (fun x => (x.released_at _ _).1) hx

/-! The bus. -/

theorem State.grantBus_taken {s : State} {n : Nat} {c : Chan} (hc : s.chanOf? n = some c) (hb : c.bus ≠ none) : s.grantBus n = s := by
  have hfind : s.flash.chans.find? (fun c => c.id == n) = some c := hc
  unfold State.grantBus
  simp only [hfind]
  exact if_pos (Option.isSome_iff_ne_none.mpr hb)

theorem find?_of_takeWhile {α : Type} [BEq α] [LawfulBEq α] {p : α → Bool} {d : α} {l : List α} (hd : d ∈ l) (hp : p d = true)
    (h : ∀ e ∈ l.takeWhile (fun e => e != d), p e = false) : l.find? p = some d := by
  induction l with
  | nil => cases hd
  | cons e l ih =>
    by_cases hed : e = d
    · rw [hed]
      exact List.find?_cons_of_pos hp
    · have hne : (e != d) = true := bne_iff_ne.mpr hed
      have hmem : d ∈ l := (List.mem_cons.mp hd).resolve_left (Ne.symm hed)
      rw [List.takeWhile_cons_of_pos (p := fun e => e != d) hne] at h
      rw [List.find?_cons_of_neg (by simp [h e (by simp)])]
      exact ih hmem fun a ha => h a (by simp [ha])

/-- The bus goes to the first urgent step that waits for it, or else to the first step (R229). -/
theorem State.nextOnBus_eq {s : State} {l : List Nat} {d : Nat} (hd : d ∈ l)
    (h : (s.urgentHolds d = true ∧ ∀ e ∈ l.takeWhile (fun e => e != d), s.urgentHolds e = false) ∨
      ((∀ e ∈ l, s.urgentHolds e = false) ∧ l.head? = some d)) : s.nextOnBus l = some d := by
  unfold State.nextOnBus
  rcases h with ⟨hu, hbefore⟩ | ⟨hnone, hhead⟩
  · rw [find?_of_takeWhile hd hu hbefore]
  · rw [List.find?_eq_none.mpr fun e he => by simp [hnone e he]]
    exact hhead

theorem State.grantBus_chan {s : State} {n d : Nat} {c : Chan} (hc : s.chanOf? n = some c) (hb : c.bus = none)
    (hd : s.nextOnBus c.busWait = some d) : (s.grantBus n).chanOf? n = some { c with bus := some d, busWait := c.busWait.erase d, beat := 0 } := by
  have hfind : s.flash.chans.find? (fun c => c.id == n) = some c := hc
  have hgrant : s.grantBus n = s.setChan n (fun c => { c with bus := some d, busWait := c.busWait.erase d, beat := 0 }) := by
    unfold State.grantBus
    simp only [hfind, hb, hd]
    rfl
  rw [hgrant]
  refine (find?_mapIf (r := fun c : Chan => c.id == n) (p := fun c : Chan => c.id == n)
    (f := fun c : Chan => { c with bus := some d, busWait := c.busWait.erase d, beat := 0 }) (fun _ => rfl) s.flash.chans).trans ?_
  rw [hfind, Option.map_some]
  exact congrArg some (if_pos (List.find?_some hfind))

/-- Settles O48: grants by what the die and its channel stand in, readiness by what the die was at, the bus by who waits for it. -/
theorem grantsAndReadiness : Obligations.GrantsAndReadiness := by
  refine ⟨⟨fun d s w x r l hk hw hh => ?_, fun d s w c hk hw hh => ?_,
    fun d s hk h => ⟨_, moves_done (exec_arbiterGrant_held h)⟩⟩,
    ⟨fun d pass s x hk hx hp => ⟨_, moves_done (exec_dieReady_way hk hx hp)⟩, fun d s x hx h => State.resetMates_of_resetLun hx h,
      fun d pass s x r hk hx hp hh hact => ?_, fun d pass s x r hk hx hp hh hact => ?_⟩,
    fun n s c hc hb => State.grantBus_taken hc hb, fun n d s c hc hb hd h => ⟨_, State.grantBus_chan hc hb (State.nextOnBus_eq hd h), rfl, rfl⟩⟩
  · intro y hx hxh hfail hgate hopen hf hread hm
    obtain ⟨z, hz, hholder, hfifo, hactivity⟩ := State.grantUrgent_die hx hf (by rw [hread]; exact hm)
    refine ⟨_, z, moves_done ?_, hz, by rw [hholder, Req.granted_read hread], hfifo, hactivity⟩
    rw [exec_arbiterGrant hk hw hh, if_neg (by simp [State.reconfDue_of_chanOpen (show s.arbSettle.chanOpen (d / 16) = true from hopen)]),
      State.grantDie_urgent hx hxh hfail hgate hopen hf]
  · intro y hc hr hact hidle
    refine ⟨_, moves_done ((exec_arbiterGrant hk hw hh).trans (if_pos ?_))⟩
    have hdue : s.arbSettle.reconfDue (d / 16) = true := by
      unfold State.reconfDue
      rw [show s.arbSettle.chanOf? (d / 16) = some c from hc]
      dsimp only [y] at hact
      simp [hr, State.bit, hact]
    exact Bool.and_eq_true_iff.mpr ⟨hdue, hidle⟩
  · refine ⟨_, _, moves_done ?_, State.readMade_die r hx, rfl, rfl, rfl⟩
    have hop : s.operationEnds d x (.step r) pass = s.readMade d r := if_pos (by simp [hact])
    rw [exec_dieReady_ends hk hx hp hh, hop]
  · obtain ⟨y, hy, hholder, hidle⟩ := State.release_die hx
    refine ⟨_, y, moves_done ?_, hy, hholder, hidle⟩
    have hop : s.operationEnds d x (.step r) pass = (s.release_ d).opEnds d r pass :=
      (if_neg (by simp [hact])).trans (if_pos (by simp [hact]))
    rw [exec_dieReady_ends hk hx hp hh, hop]

end Sys2Proof.Machine
end

section
/-!
READ and TRIM of ID mode: where the end of the command's own step makes the card read-only, another command of ID mode ends on that edge,
the response that the card keeps is that command's, and the status of the READ or TRIM stands nowhere any more.
-/
namespace Sys2Proof.Machine
open Sys2Proof.Safety

/-- A WRITE of ID mode, its data phase ended. -/
def endedWrite : Cmd := { newCmd 1 1 1 opWrite (2 ^ 64) false true (some 0) [0] with phase := .ready }

/-- A READ of ID mode of one sector, stamped after it. -/
def lastRead : Cmd := { newCmd 2 1 2 opRead (2 ^ 64) false true (some 0) [] with phase := .decoded }

/-- A TRIM of ID mode of one sector, stamped after it. -/
def lastTrim : Cmd := { newCmd 2 1 2 opTrim (2 ^ 64) false true (some 0) [] with phase := .decoded }

/-- The READ's descriptor: its sector has passed. -/
def passedDesc : Desc := { newDesc 0 2 .active with next := 1, offset := 1 }

/-- A recovered card without dies in ID mode, which becomes read-only as soon as its flash side settles (R293), with the WRITE and a
further command In flight. -/
def endsReadOnly (c : Cmd) (l : List Desc) : State :=
  { State.reset with
    power := { Power.reset with startup := .ready, armed := true, recovered := true, vholdOk := true }
    link := { Link.reset with phase := .idReady }
    cmds := [endedWrite, c]
    descs := l
    slices := { Slice.free with st := .active, owner := some 1 } :: List.replicate 63 Slice.free }

/-- Is nothing In flight and unacknowledged, no completion posted, and the kept response that of another opcode? -/
def AnsweredOther (t : State) (op : Nat) : Prop :=
  t.cmds = [] ∧ t.link.unacked = [] ∧ (∀ e ∈ t.attn, e.kind ≠ .completion) ∧ ∃ a, t.link.idResponse = some a ∧ a.opcode ≠ op

theorem AnsweredOther.of_opcode {t : State} {op other : Nat} (hne : other ≠ op) (h : t.cmds = [] ∧ t.link.unacked = [] ∧
    (∀ e ∈ t.attn, e.kind ≠ .completion) ∧ t.link.idResponse.map (fun a => a.opcode) = some other) : AnsweredOther t op := by
  obtain ⟨hcmds, hunacked, hattn, hresp⟩ := h
  obtain ⟨a, ha, rfl⟩ := Option.map_eq_some_iff.mp hresp
  exact ⟨hcmds, hunacked, hattn, a, ha, hne⟩

/-- Then the status of a command of that opcode is fixed nowhere. -/
theorem AnsweredOther.not_fixed {t : State} {c : Cmd} (h : AnsweredOther t c.opcode) (st r : Nat) : ¬ Fixed t c st r := by
  obtain ⟨hcmds, hunacked, hattn, b, hresp, hother⟩ := h
  rintro (⟨d, hd, -⟩ | ⟨f, hf, -⟩ | ⟨a, ha, -, -, hop, -⟩ | ⟨e, he, hkind, -⟩)
  · rw [hcmds] at hd
    cases hd
  · rw [hunacked] at hf
    cases hf
  · cases hresp.symm.trans ha
    exact hother hop
  · exact hattn e he hkind

theorem lastRead_atWork : AtWork (endsReadOnly lastRead [passedDesc]) 2 lastRead opRead .decoded := ⟨rfl, rfl, rfl, rfl⟩

theorem exec_lastRead : exec (.read 2 []) (endsReadOnly lastRead [passedDesc]) =
    .next ((endsReadOnly lastRead [passedDesc]).readOn 2 []).flashSettle.settle :=
  (exec_onCmd lastRead_atWork rfl).trans (congrArg (fun x : State => Host.Outcome.next x.settle) (if_neg (by decide)))

/-- At the end of the step the response that the card keeps is the WRITE's, which has ended READ_ONLY. -/
theorem lastRead_answered : AnsweredOther ((endsReadOnly lastRead [passedDesc]).readOn 2 []).flashSettle.settle opRead := by
  refine AnsweredOther.of_opcode (other := opWrite) (by decide) ?_
  decide +kernel

/-- Refutes O45: the sectors of a READ of ID mode have passed and it completes OK, and on the same edge the card becomes read-only and ends
an earlier WRITE of ID mode (R293), whose response replaces the READ's. The clause asks for the fixed status in every state, also in one
with two commands of ID mode In flight, which R72 does not let arise, and that ID mode serves neither (R78). -/
theorem not_readsAndVerifies : ¬ Obligations.ReadsAndVerifies := by
  intro h
  obtain ⟨-, ⟨hread, -, -⟩⟩ := h
  obtain ⟨-, hwork⟩ := hread (.read 2 []) opRead 2 0 [] (endsReadOnly lastRead [passedDesc]) lastRead passedDesc (.inl ⟨rfl, rfl⟩)
    lastRead_atWork
  obtain ⟨hpassed, -, -⟩ := hwork (by decide) rfl rfl rfl rfl
  obtain ⟨t, hexec, hfixed⟩ := hpassed (by decide) (by decide)
  cases exec_lastRead.symm.trans hexec
  exact lastRead_answered.not_fixed _ _ hfixed

theorem lastTrim_atWork : AtWork (endsReadOnly lastTrim []) 2 lastTrim opTrim .decoded := ⟨rfl, rfl, rfl, rfl⟩

theorem exec_lastTrim : exec (.trim 2) (endsReadOnly lastTrim []) = .next ((endsReadOnly lastTrim []).trimOn lastTrim 0).settle :=
  (exec_onCmd lastTrim_atWork rfl).trans (congrArg (fun x : State => Host.Outcome.next x.settle) (if_neg (by decide)))

theorem lastTrim_answered : AnsweredOther ((endsReadOnly lastTrim []).trimOn lastTrim 0).settle opTrim := by
  refine AnsweredOther.of_opcode (other := opWrite) (by decide) ?_
  decide +kernel

/-- The conditions of the last range hold: its map pages are there, there is room among the dirty pages, nothing runs in the map region,
and no die holds map data. -/
theorem lastTrim_lands : (endsReadOnly lastTrim []).missing 0 0 1 = [] ∧ (endsReadOnly lastTrim []).flash.map.cache = [] ∧
    (endsReadOnly lastTrim []).dirtyExcess (mapPagesOf 0 0 1) = 0 ∧ (endsReadOnly lastTrim []).flash.jobs = [] ∧
    (endsReadOnly lastTrim []).checkpointDue = false ∧ (endsReadOnly lastTrim []).mapDies = [] := by decide +kernel

/-- Refutes O46: the last range of a TRIM of ID mode takes effect and its record is programmed, and on the same edge the card becomes
read-only and ends an earlier WRITE of ID mode (R293), whose response replaces the TRIM's. The clause asks for the fixed status in every
state, also in one with two commands of ID mode In flight, which R72 does not let arise, and that ID mode serves neither (R78). -/
theorem not_writesAndTrims : ¬ Obligations.WritesAndTrims := by
  intro h
  obtain ⟨-, -, htrim⟩ := h
  obtain ⟨hmissing, hcache, hexcess, hjobs, hdue, hdies⟩ := lastTrim_lands
  obtain ⟨-, -, hrange⟩ := htrim 2 0 (endsReadOnly lastTrim []) lastTrim lastTrim_atWork rfl (by decide)
  obtain ⟨t, hexec, -, hlast⟩ := hrange rfl hmissing (by decide) (by dsimp only; rw [hcache]; exact .nil) hexcess
  cases exec_lastTrim.symm.trans hexec
  exact lastTrim_answered.not_fixed _ _ (hlast (by decide) hjobs hdue fun d hd => by rw [hdies] at hd; cases hd)

end Sys2Proof.Machine
end
